-- ==== Sys2Proof/Word.lean ====
section
/-! DEFINITION. The words the station and its commands are made of: digits, keys, line levels, slot numbers, round kinds. -/

namespace Sys2Proof

/-- A digit of the keypad (00, 1.1). -/
abbrev Digit := Fin 10

/-- The 16-bit argument of a round's header (R38). -/
abbrev Arg := BitVec 16

/-- What is read or driven in one field, as the number its bits spell most significant bit first (R175);
the longest field, SERIAL, has 256 bits. -/
abbrev LineBits := BitVec 256

/-- The result of a slotted map of station slots: bit n is set when slot n was driven (R27). -/
abbrev Slots := BitVec 8

/-- An extent of the bank, 0 to 63 (08). -/
abbrev Extent := Fin 64

/-- A slot of the credential table, 0 to 3 (R79). -/
abbrev CodeSlotNo := Fin 4

/-- A policy timer T0 to T3 (R114). -/
abbrev TimerNo := Fin 4

/-- A trigger entry, 0 to 7 (R112). -/
abbrev EntryNo := Fin 8

/-- A bank key. Its width and bits are outside the manual: a key is known by its identity alone (log 10). -/
abbrev BankKey := Nat

/-- One of the twelve keys (00, section 4). -/
inductive Key where
  | digit (d : Digit)
  | unlock
  | shift
  deriving DecidableEq, Repr

/-- A level of the Quorum Line: dominant is low, recessive is high (02). -/
inductive Level where
  | dominant
  | recessive
  deriving DecidableEq, Repr

/-- The ten round kinds (R52). Stations open the first seven, the observer the last three and LOCK. -/
inductive RoundKind where
  | wipe | lock | roll | check | setcode | setmark | progress | status | clear | fit
  deriving DecidableEq, Repr

/-- What made bus power absent (R159). -/
inductive FallCause where
  /-- BUS_SENSE went absent. -/
  | senseLost
  /-- PFW_N was asserted. -/
  | warning
  deriving DecidableEq, Repr

/-- What made bus power present (R159). -/
inductive RiseCause where
  /-- BUS_SENSE appeared. -/
  | senseAppeared
  /-- PFW_N was released. -/
  | warningReleased
  deriving DecidableEq, Repr

/-- What wakes a dormant station, beside a bus-power rise (R163). -/
inductive WakeSource where
  | key (k : Key)
  | lineEdge
  deriving DecidableEq, Repr

/-- A block that owns a store made in a hold field (R40). -/
inductive HoldOwner where
  | tally | credential | pendingMark | journal
  deriving DecidableEq, Repr

/-- Which nonvolatile records fail their integrity check as they are loaded (R166). A serial that fails
carries the value as read, which is in force until power is lost. -/
structure LoadReport where
  slot0 : Bool := false
  slot1 : Bool := false
  slot2 : Bool := false
  slot3 : Bool := false
  header : Bool := false
  pendingSlot : Bool := false
  tally : Bool := false
  holdOwed : Bool := false
  policy : Bool := false
  fixedMarks : Bool := false
  pendingMark : Bool := false
  journal : Bool := false
  flags : Bool := false
  serial : Option (BitVec 32) := none
  deriving DecidableEq, Repr

end Sys2Proof
end

