-- ==== Sys2Proof/Syntax.lean ====
section
/-! DEFINITION. The commands of the station: one constructor per row of spec/opcode_table.json. -/

namespace Sys2Proof

/-- The events and operations that reach a station. The rule cited with each is the table's. -/
inductive Instr where
  /-- POWER_ON (R165): the strap pins STN and RSZ, BUS_SENSE, PFW_N asserted, BAT_SENSE. -/
  | powerOn (stn rsz : BitVec 3) (busSense pfw batSense : Bool)
  /-- LOADING_END (R167): which records failed their check. -/
  | loadingEnd (report : LoadReport)
  /-- BUS_POWER_FALL (R159). -/
  | busPowerFall (cause : FallCause)
  /-- BUS_POWER_RISE (R159). -/
  | busPowerRise (cause : RiseCause)
  /-- BATTERY_REMOVED (R159): while on battery. -/
  | batteryRemoved
  /-- BATTERY_CHANGE_IN_BUS (R159): fitted or removed while on bus power. -/
  | batteryChangeInBus (fitted : Bool)
  /-- SUPPLY_FAIL (R160). -/
  | supplyFail
  /-- KEY_LINE_CHANGE (R64): a key line takes a level. -/
  | keyLineChange (k : Key) (down : Bool)
  /-- KEY_PRESS (R65): the debounce timer of a key expires with its line DOWN. -/
  | keyPress (k : Key)
  /-- KEY_RELEASE (R70): the debounce timer of a key expires with its line UP. -/
  | keyRelease (k : Key)
  /-- ENTRY_TIMER_EXPIRY (R67). -/
  | entryTimerExpiry
  /-- RESET_TIMER_EXPIRY (R70). -/
  | resetTimerExpiry
  /-- WIPE_WINDOW_EXPIRY (R72). -/
  | wipeWindowExpiry
  /-- HELD_ENTRY_TIMER_EXPIRY (R69). -/
  | heldEntryTimerExpiry
  /-- HELD_CHANGE_TIMER_EXPIRY (R77). -/
  | heldChangeTimerExpiry
  /-- BATTERY_OPEN_EXPIRY (R13). -/
  | batteryOpenExpiry
  /-- PULSE_TIMER_EXPIRY (R20). -/
  | pulseTimerExpiry
  /-- HOLD_DEADLINE_REACHED (R109). -/
  | holdDeadlineReached
  /-- POLICY_TIMER_EXPIRY (R122): of one policy timer. -/
  | policyTimerExpiry (t : TimerNo)
  /-- PROGRESS_TIMER_EXPIRY (R154). -/
  | progressTimerExpiry
  /-- INACTIVITY_TIMER_EXPIRY (R161). -/
  | inactivityTimerExpiry
  /-- WAKE (R163): by a key held pressed or a dominant edge. -/
  | wake (source : WakeSource)
  /-- WARMUP_END (R164). -/
  | warmupEnd
  /-- IDLE_GAP_REACHED (R23). -/
  | idleGapReached
  /-- OPEN_ROUND (R48). -/
  | openRound
  /-- RETRY_DUE (R48): the not-before time of the request of this kind passes. -/
  | retryDue (kind : RoundKind)
  /-- ROUND_START (R23). -/
  | roundStart
  /-- LATE_ROUND_SEEN (R24). -/
  | lateRoundSeen
  /-- FIELD_MARK (R25): the level read at a field's or section's mark. -/
  | fieldMark (level : Level)
  /-- FIELD_END (R40): a field ends, with what was read in it. In a slotted map bit n is set when slot n
  was read dominant; in every other field the operand is the number on the line, dominant reading 0. -/
  | fieldEnd (read : LineBits)
  /-- HOLD_FIELD_END (R30). -/
  | holdFieldEnd
  /-- HOLD_MAX_EXPIRY (R31). -/
  | holdMaxExpiry
  /-- LINE_STUCK_EXPIRY (R35). -/
  | lineStuckExpiry
  /-- LINE_RELEASED (R35). -/
  | lineReleased
  /-- ROUND_END (R44): ACCEPT ends, with the map read in it. -/
  | roundEnd (accept : Slots)
  /-- HOLD_STORE_FINISHED (R31). -/
  | holdStoreFinished
  /-- HOLD_STORE_FAILED (R31). -/
  | holdStoreFailed
  /-- LATE_STORE_FINISHED (R31): a store begun in a hold field finishes after it. -/
  | lateStoreFinished (owner : HoldOwner)
  /-- JOURNAL_STORE_MADE (R143). -/
  | journalStoreMade
  /-- JOURNAL_STORE_FAILED (R143). -/
  | journalStoreFailed
  /-- TABLE_DESTRUCTION_MADE (R98). -/
  | tableDestructionMade
  /-- CREDENTIAL_STORE_ENDED (R80): made, or failed. -/
  | credentialStoreEnded (made : Bool)
  /-- TALLY_STORE_ENDED (R101). -/
  | tallyStoreEnded (made : Bool)
  /-- HOLD_OWED_STORE_ENDED (R108). -/
  | holdOwedStoreEnded (made : Bool)
  /-- FLAG_STORE_ENDED (R168). -/
  | flagStoreEnded (made : Bool)
  /-- FIXED_MARK_STORE_ENDED (R129). -/
  | fixedMarkStoreEnded (made : Bool)
  /-- POLICY_STORE_ENDED (R174). -/
  | policyStoreEnded (made : Bool)
  /-- READ (R132): of a block of an extent. -/
  | read (extent : Extent) (block : Nat)
  /-- WRITE (R132). -/
  | write (extent : Extent) (block : Nat)
  /-- TRIM (R132). -/
  | trim (extent : Extent) (block : Nat)
  /-- PORT_READY (R137). -/
  | portReady
  /-- ACCESS_COMPLETION (R134): with the bank's status. -/
  | accessCompletion (status : Nat)
  /-- ERASE_COMPLETION (R152): success or failure. -/
  | eraseCompletion (success : Bool)
  /-- PENDING_MARK_STORE_ENDED (R141). -/
  | pendingMarkStoreEnded (made : Bool)
  deriving DecidableEq, Repr

end Sys2Proof
end

