-- ==== Sys2Proof/Decode.lean ====
section
/-! DEFINITION. The commands spelled by words. -/

namespace Sys2Proof

/-- The command a word of the opcode table spells. No row of spec/opcode_table.json gives bits (R165 and the
other rows name events, not encodings), so no word spells a command. -/
def decodeTableWord (_nbits _w : Nat) : Option Instr := none

end Sys2Proof
end

