-- ==== Sys2Proof/Config.lean ====
section
/-! DEFINITION. What is fixed for the part: the named limits (00, 3.5), in milliseconds where they are times,
the policy table's data (R112), and the free values (logs 8 and 9), which have no body. -/

namespace Sys2Proof

/-- HOLD_MAX, 200 ms. -/
def Config.holdMax : Nat := 200
/-- LINE_STUCK_TIME, 50 ms. -/
def Config.lineStuckTime : Nat := 50
/-- IDLE_GAP, 2 ms. -/
def Config.idleGap : Nat := 2
/-- DEBOUNCE, 20 ms. -/
def Config.debounce : Nat := 20
/-- ENTRY_IDLE, 10 s. -/
def Config.entryIdle : Nat := 10000
/-- RESET_HOLD, 10 s. -/
def Config.resetHold : Nat := 10000
/-- The wipe window of R63, 5 s. -/
def Config.wipeWindow : Nat := 5000
/-- MIN_GAP, in seconds. -/
def Config.minGapSeconds : Nat := 1
/-- WARMUP, 20 ms. -/
def Config.warmup : Nat := 20
/-- ROUND_RETRY, 100 ms. -/
def Config.roundRetry : Nat := 100
/-- ROUND_RETRY's greatest number of retries. -/
def Config.maxRetries : Nat := 10
/-- LOST_ROUNDS. -/
def Config.lostRounds : Nat := 3
/-- ROLL_LIMIT. -/
def Config.rollLimit : Nat := 20
/-- WIPE_YIELD. -/
def Config.wipeYield : Nat := 8
/-- PROGRESS_RETRY, 1 s. -/
def Config.progressRetry : Nat := 1000
/-- DOZE_AFTER, 30 s. -/
def Config.dozeAfter : Nat := 30000
/-- DORMANT_AFTER, 300 s. -/
def Config.dormantAfter : Nat := 300000
/-- BATTERY_OPEN, 60 s. -/
def Config.batteryOpen : Nat := 60000
/-- The greatest tally (R100). -/
def Config.tallyMax : Nat := 99
/-- The substitute hold-owed of R110, in seconds, also the longest hold. -/
def Config.holdMaxSeconds : Nat := 3600
/-- The outstanding list's capacity (R128). -/
def Config.outstandingMax : Nat := 4
/-- The entry buffer's capacity (R63). -/
def Config.bufferMax : Nat := 15
/-- The shortest code (00, 3.5). -/
def Config.codeMin : Nat := 7
/-- The number of extents, which ends the pass (R142). -/
def Config.extents : Nat := 64

/-- One trigger entry as it is programmed: raw fields, kept even when they are malformed (R112, R113). -/
structure PolicyEntry where
  causeCode : BitVec 3 := 0
  causeArg : BitVec 7 := 0
  actionCode : BitVec 3 := 0
  timer : BitVec 2 := 0
  seconds : BitVec 16 := 0
  links : BitVec 8 := 0
  repeats : Bool := false
  armAtStart : Bool := false
  deriving DecidableEq, Repr

/-- One further symbol of a fold: a digit, or the must-change mark appended in SETCODE (R82). -/
inductive FoldSymbol where
  | digit (d : Digit)
  | mustChange (mark : Bool)
  deriving DecidableEq, Repr

/-- FREE VALUE: the nonce of the n-th draw, "at random from 0 to 65535" (R68). -/
opaque Config.freeNonce : Nat → Arg

/-- FREE VALUE: the fresh bank key of the n-th draw (R97). -/
opaque Config.freeBankKey : Nat → BankKey

/-- FREE VALUE: the opaque 64-bit verifier derived from a code (R81). -/
opaque Config.verifierOf : List Digit → BitVec 64

/-- FREE VALUE: the fold's last mixing, one-to-one (R82; log 9). -/
opaque Config.foldMix : Equiv.Perm (BitVec 32)

/-- FREE VALUE: what the fold makes of the ARG under one entry, one-to-one in the ARG (R82; log 9). -/
opaque Config.foldRest : List FoldSymbol → Equiv.Perm (BitVec 27)

/-- The 32-bit one-way fold of an entry and a round's ARG. Its bits are free; what R82 states of it holds by its form:
entries of different length give different folds, and one entry gives different folds under different ARGs. -/
def Config.fingerprintOf (entry : List FoldSymbol) (arg : Arg) : BitVec 32 :=
  Config.foldMix (BitVec.ofNat 5 entry.length ++ Config.foldRest entry (arg.setWidth 27))

/-- The eight entries of the substitute policy table (R113). -/
def Config.idleEntries : Vector PolicyEntry 8 := Vector.replicate 8 {}

/-- FREE VALUE: the check value of the substitute policy table (R113; log 9). -/
opaque Config.policyIdleCheck : BitVec 16

/-- FREE VALUE: which of the other 65535 check values a programmed table has (R113; log 9). -/
opaque Config.policyRest : Bool → Bool → Vector PolicyEntry 8 → Fin 65535

/-- The check value over fault-disarm enable, the frozen mark and the eight entries. Its bits are free; that the
substitute's differs from that of any programmed table holds by its form (R113). -/
def Config.policyCheckOf (faultDisarm frozen : Bool) (entries : Vector PolicyEntry 8) : BitVec 16 :=
  if faultDisarm = false ∧ frozen = false ∧ entries = Config.idleEntries then Config.policyIdleCheck
  else Config.policyIdleCheck + BitVec.ofNat 16 ((Config.policyRest faultDisarm frozen entries).val + 1)

end Sys2Proof
end

