-- ==== Sys2Proof/Machine/State.lean ====
section
/-! DEFINITION. The state of one station, block by block as the manual has it, and the state after reset.
Running timers hold the moment they run out, on the clock State.now (log 1). -/

namespace Sys2Proof.Machine

/-! ## Credential table data -/

/-- What a slot holds (R79). -/
inductive Role where
  | empty | admin | user | duress
  deriving DecidableEq, Repr

/-- What a table keeps of a code: its length and verifier (R79, R81). -/
structure CodeMark where
  length : Nat
  verifier : BitVec 64
  deriving DecidableEq, Repr

/-- The bank key enciphered under the code that has this mark: opened with an entry that matches the
mark it yields the key (R81; log 10). -/
structure KeyWrap where
  key : BankKey
  under : CodeMark
  deriving DecidableEq, Repr

/-- The fields of a slot that its role gives it (R79). -/
inductive SlotContents where
  | empty
  | admin (code : CodeMark) (wrap : KeyWrap)
  | user (code : CodeMark) (wrap : KeyWrap) (mustChange : Bool)
  | duress (code : CodeMark)
  deriving DecidableEq, Repr

/-- A slot record (R79). -/
structure CodeSlot where
  contents : SlotContents := .empty
  stamp : BitVec 16 := 0
  deriving DecidableEq, Repr

/-- A staged change in the pending slot (R80). With its stored mark clear it is taken as empty (R93). -/
structure PendingChange where
  target : CodeSlotNo
  contents : SlotContents
  stamp : BitVec 16
  stored : Bool
  deriving DecidableEq, Repr

/-- A store of the credential table (R80): staging, promotion, discard, destruction, and the
store-backs of power-on. -/
inductive CredJob where
  | stage (p : PendingChange)
  | promote (p : PendingChange)
  | discard
  | destroy
  | slotBack (i : CodeSlotNo)
  | headerBack (stamp : BitVec 16)
  | pendingBack
  deriving DecidableEq, Repr

/-! ## Stores of one record -/

/-- The store of a record that keeps the last value put in force (R101, R108, R129, R168): the value of the
store in progress, at most one waiting value, and whether a failed store waits to be repeated. -/
structure Store (α : Type) where
  busy : Option α := none
  waiting : Option α := none
  again : Bool := false
  deriving DecidableEq, Repr

/-! ## Policy, marks, journal -/

/-- The policy table (R112). -/
structure PolicyTable where
  faultDisarm : Bool
  frozen : Bool
  check : BitVec 16
  entries : Vector PolicyEntry 8
  deriving DecidableEq, Repr

/-- A fixed mark (R129). -/
inductive FixedMark where
  | normal | pub | frozen
  deriving DecidableEq, Repr

/-- A session mark (R128). -/
inductive SessionMark where
  | writable | readOnly
  deriving DecidableEq, Repr

/-- A staged fixed-mark change (R128). -/
structure PendingMark where
  extent : Extent
  mark : FixedMark
  arg : Arg
  stored : Bool
  deriving DecidableEq, Repr

/-- What a fixed-mark store writes: the marks, and whether it empties the pending mark as a promotion does (R141). -/
structure MarkWrite where
  marks : Vector FixedMark 64
  emptiesPending : Bool
  deriving DecidableEq, Repr

/-- A store of the pending mark record: a staging, told whether to empty the record when it finishes late,
or the store that empties the record (R139, R141). -/
inductive PendingMarkJob where
  | stage (p : PendingMark) (dropped : Bool)
  | empty
  deriving DecidableEq, Repr

/-- A staged session change (R128): one extent, or ALL. -/
structure SessionChange where
  extent : Option Extent
  mark : SessionMark
  arg : Arg
  deriving DecidableEq, Repr

/-- Journal phase (R142). -/
inductive Phase where
  | none | ordered | keyGone | passing | done
  deriving DecidableEq, Repr

/-- Journal cause (R142). -/
inductive WipeCause where
  | none | duress | userReset | adminCommand | policy | adopted
  deriving DecidableEq, Repr

/-- The wipe journal (R142). The bad list holds extents in the order they were listed. -/
structure Journal where
  phase : Phase := .none
  cause : WipeCause := .none
  nextExtent : Nat := 0
  bad : List Nat := []
  attempts : Nat := 0
  deriving DecidableEq, Repr

/-- The erase in flight (R142). -/
inductive EraseState where
  | absent | waiting | issued
  deriving DecidableEq, Repr

/-- The twelve fault flags as one record, by the bit numbers of R168. -/
abbrev FlagSet := BitVec 12

/-- The nonvolatile records (R166). -/
structure Nonvolatile where
  slots : Vector CodeSlot 4
  liveStamp : BitVec 16
  pendingSlot : Option PendingChange
  tally : Nat
  holdOwed : Nat
  policy : PolicyTable
  fixedMarks : Vector FixedMark 64
  pendingMark : Option PendingMark
  journal : Journal
  flags : FlagSet
  serial : BitVec 32
  deriving DecidableEq, Repr

/-! ## Pins and supply -/

/-- Input pins as last sensed: the key lines (bit set: DOWN) and the supply senses (00, section 4). -/
structure Pins where
  keyLines : BitVec 12
  busSense : Bool
  pfw : Bool
  batSense : Bool
  deriving DecidableEq, Repr

/-- Supply state (R159). -/
inductive SupplyState where
  | bus | battery | off
  deriving DecidableEq, Repr

/-- Activity state (R161). -/
inductive Activity where
  | awake | doze | dormant
  deriving DecidableEq, Repr

/-- The inactivity timer; expired is the timer that ran out in DOZE while R162's conditions did not hold. -/
inductive Inactivity where
  | stopped
  | running (until_ : Nat)
  | expired
  deriving DecidableEq, Repr

/-- Power-on step (R158). -/
inductive PowerStep where
  | reading | loading | done
  deriving DecidableEq, Repr

/-- The supply controller (R158). -/
structure Supply where
  state : SupplyState
  activity : Activity := .awake
  inactivity : Inactivity := .stopped
  warmup : Option Nat := none
  stn : BitVec 3 := 0
  roster : Nat := 2
  step : PowerStep := .reading
  deriving DecidableEq, Repr

/-! ## Guard controller -/

/-- Guard states (R1); opened is the manual's OPEN. -/
inductive GuardState where
  | strapFault | starting | blank | locked | held | opened | admin | closing | wiping
  deriving DecidableEq, Repr

/-- The guard controller (R1). holdDue: a deadline moved during a CHECK round waits to be taken (R5). -/
structure Guard where
  state : GuardState := .starting
  matched : Option CodeSlotNo := none
  mustChange : Bool := false
  batteryTimer : Option Nat := none
  pulseTimer : Option Nat := none
  holdDue : Bool := false
  deriving DecidableEq, Repr

/-! ## Line interface and round engine -/

/-- Line views (R21). -/
inductive LineView where
  | syncing | idle | gap | round | rejecting | stuck
  deriving DecidableEq, Repr

/-- Role in the current round (R21). -/
inductive LineRole where
  | none | contender | opener | listener
  deriving DecidableEq, Repr

/-- The fields of the frame and of the bodies (R38, R52). -/
inductive Field where
  | kind | arg | openers | answer
  | serial | tallyHi | stampHi | stampLo | wipeAny | policyLo | policyHi
  | fingerprint | agree | hold | stored | verdict | verdictAgree
  | done | badHi | summary | detail | item
  | accept
  deriving DecidableEq, Repr

/-- Field position (R21): no round; the mark of a field awaited; or inside a field, in the section that
starts at this bit (sections of 64 bits, R25). -/
inductive FieldPos where
  | none
  | atMark (f : Field)
  | inField (f : Field) (bit : Nat)
  deriving DecidableEq, Repr

/-- What this station drives in the present field: nothing, its own slot of a map, or a value (R25). -/
inductive Offer where
  | nothing
  | slot
  | bits (v : LineBits)
  deriving DecidableEq, Repr

/-- The line interface (R21). header is the header the round engine has handed over; ownDrive is released
in every view but ROUND (R22). tail: a round rejected or not joined has still to end. -/
structure LineIf where
  view : LineView := .syncing
  role : LineRole := .none
  pos : FieldPos := .none
  idleTimer : Option Nat := none
  stuckTimer : Option Nat := none
  holdTimer : Option Nat := none
  ownDrive : Bool := false
  offer : Offer := .nothing
  header : Option (RoundKind × Arg) := none
  tail : Bool := false
  deriving DecidableEq, Repr

/-- Own part in a round (R40). -/
inductive OwnPart where
  | contender | opener | listener | refusing | rejected
  deriving DecidableEq, Repr

/-- Outcome classes (R44). -/
inductive RoundClass where
  | complete | partial_ | void | absent
  deriving DecidableEq, Repr

/-- The result of one body field (R40): its value, and for a merged field whether the own value equals it. -/
structure FieldResult where
  field : Field
  value : LineBits
  equal : Bool
  deriving DecidableEq, Repr

/-- The current round record (R40), with what the owners keep for the span of the round: whether this
station drove ANSWER, whether its store counted as made, whether the hold field has ended, whether it took
the verdict (R87), whether it staged (R139, R173), the carried set (R169), and whether it met a second
driver in DETAIL (R32). -/
structure RoundRec where
  kind : Option RoundKind := none
  arg : Arg := 0
  part : OwnPart := .listener
  sent : Option RoundKind := none
  openers : BitVec 9 := 0
  answer : Slots := 0
  accept : Slots := 0
  results : List FieldResult := []
  cls : Option RoundClass := none
  answered : Bool := false
  made : Bool := false
  holdEnded : Bool := false
  tookVerdict : Bool := false
  staged : Bool := false
  carried : Option FlagSet := none
  secondDriver : Bool := false
  deriving DecidableEq, Repr

/-- A request of the opening queue (R46). -/
structure Request where
  kind : RoundKind
  arg : Arg
  retries : Nat := 0
  notBefore : Option Nat := none
  inFlight : Bool := false
  replaced : Bool := false
  deriving DecidableEq, Repr

/-- The round engine: round record (R40), opening queue in rising order of kind (R46), absence counts
(R54), PARTIAL ROLL count (R62), the station serial in force (R56, R166). -/
structure Engine where
  round : Option RoundRec := none
  queue : List Request := []
  absence : Vector Nat 8 := Vector.replicate 8 0
  rollCount : Nat := 0
  serial : BitVec 32 := 0
  deriving DecidableEq, Repr

/-! ## Keypad sampler -/

/-- Keypad modes (R63). -/
inductive KeypadMode where
  | idle | collecting | newFirst | newSecond | command | markEntry | resetHold
  deriving DecidableEq, Repr

/-- A code as typed, with its OVERLONG mark (R63). -/
structure TypedCode where
  digits : List Digit
  overlong : Bool
  deriving DecidableEq, Repr

/-- The chord that opened COMMAND or MARK_ENTRY and the digits taken for it (R63). -/
structure PendingCommand where
  chord : Digit
  digits : List Digit
  deriving DecidableEq, Repr

/-- The held entry (R68). -/
structure HeldEntry where
  digits : List Digit
  nonce : Arg
  until_ : Nat
  deriving DecidableEq, Repr

/-- The held change (R76). -/
structure HeldChange where
  target : CodeSlotNo
  role : Role
  stamp : BitVec 16
  code : List Digit
  until_ : Nat
  deriving DecidableEq, Repr

/-- The keypad sampler (R63). debounce lists the keys whose timer runs, by key number. shiftFreed: SHIFT has been
released since the chord that opened the pending command (R65; log 49). setAside holds presses waiting for an ANSWER
field (R66). -/
structure Keypad where
  states : BitVec 12 := 0
  debounce : List (Nat × Nat) := []
  mode : KeypadMode := .idle
  buffer : List Digit := []
  overlong : Bool := false
  firstCode : Option TypedCode := none
  target : Option (CodeSlotNo × Role) := none
  command : Option PendingCommand := none
  shiftFreed : Bool := false
  entryTimer : Option Nat := none
  resetTimer : Option Nat := none
  wipeWindow : Option Nat := none
  heldEntry : Option HeldEntry := none
  heldChange : Option HeldChange := none
  setAside : List Key := []
  deriving DecidableEq, Repr

/-! ## The other blocks -/

/-- The confirmed change handed over for a SETCODE round (R77, R83), with its must-change mark (R91). -/
structure RoundChange where
  target : CodeSlotNo
  role : Role
  stamp : BitVec 16
  code : List Digit
  mustChange : Bool
  deriving DecidableEq, Repr

/-- The credential table in force, the volatile items, and its stores (R80). stagingDropped is the mark that a destruction
has dropped the waiting staging this station holds the line for, so that an older store still in progress is not taken
for it (R80; log 52). -/
structure Credentials where
  slots : Vector CodeSlot 4
  liveStamp : BitVec 16
  pendingSlot : Option PendingChange
  plainKey : Option BankKey := none
  genKey : Option BankKey := none
  roundEntry : Option (List Digit) := none
  roundChange : Option RoundChange := none
  busy : Option CredJob := none
  waiting : List CredJob := []
  stagingDropped : Bool := false
  deriving DecidableEq, Repr

/-- Tally and hold (R99). -/
structure TallyHold where
  tally : Nat
  tallyStore : Store Nat := {}
  deadline : Option Nat := none
  holdOwed : Nat
  owedStore : Store Nat := {}
  deriving DecidableEq, Repr

/-- Policy triggers (R112, R114). -/
structure Policy where
  table : PolicyTable
  store : Store PolicyTable := {}
  armed : BitVec 8 := 0
  last : BitVec 8 := 0
  memos : Vector Nat 8 := Vector.replicate 8 0
  timers : Vector (Option Nat) 4 := Vector.replicate 4 none
  latch : Bool := false
  deriving DecidableEq, Repr

/-- The kind of a bridge request (R131). -/
inductive AccessKind where
  | read | write | trim
  deriving DecidableEq, Repr

/-- A bridge request (R131). -/
structure BridgeRequest where
  kind : AccessKind
  extent : Extent
  block : Nat
  deriving DecidableEq, Repr

/-- Reasons of refusal (R132). -/
inductive RefuseReason where
  | noPower | locked | wiping | mustChange | readOnly | frozen
  deriving DecidableEq, Repr

/-- What the bridge is sent (R131, R134). -/
inductive BridgeReply where
  | refusal (r : BridgeRequest) (reason : RefuseReason)
  | completion (r : BridgeRequest) (status : Nat)
  deriving DecidableEq, Repr

/-- What the bank is sent (R133, R138). -/
inductive BankOp where
  | access (r : BridgeRequest)
  | erase (e : Nat)
  deriving DecidableEq, Repr

/-- The bank gate (R128). -/
structure Gate where
  fixedMarks : Vector FixedMark 64
  markStore : Store MarkWrite := {}
  pendingMark : Option PendingMark := none
  pmBusy : Option PendingMarkJob := none
  pmWaiting : List PendingMarkJob := []
  session : Vector SessionMark 64 := Vector.replicate 64 .writable
  staging : Option SessionChange := none
  markLockOpen : Bool := false
  presented : Option BridgeRequest := none
  outstanding : List BridgeRequest := []
  portReady : Bool := false
  eraseWaiting : Option Nat := none
  yieldCount : Nat := 0
  deriving DecidableEq, Repr

/-- The wipe engine (R142). busy, waiting and again are the journal store: the record being written, the
record to be written next, the failed record to be written again. -/
structure Wipe where
  journal : Journal
  busy : Option Journal := none
  waiting : Option Journal := none
  again : Option Journal := none
  orderPending : Option WipeCause := none
  erase : EraseState := .absent
  progressTimer : Option Nat := none
  deriving DecidableEq, Repr

/-- The status block (R168), with the FIT staging (R173). -/
structure Status where
  flags : FlagSet
  reported : FlagSet := 0
  store : Store FlagSet := {}
  fit : Option (Arg × BitVec 32) := none
  deriving DecidableEq, Repr

/-- An input of the policy triggers (07), handed on within an event and taken before the event ends. -/
inductive Notice where
  /-- The tally in force changed to this value (R100). -/
  | tally (v : Nat)
  /-- The guard controller entered this state (R18). -/
  | entered (g : GuardState)
  /-- The PEER_LOST condition changed to this value (R55). -/
  | peerLost (b : Bool)
  | busRise
  | busFall
  /-- A policy timer ran out (R122). -/
  | timer (t : TimerNo)
  /-- One of the four fault flags was set (R125). -/
  | fault
  /-- STARTING ended (R123). -/
  | startingEnded
  deriving DecidableEq, Repr

/-- One station. pending, now, draws, notices, toBridge and toBank are the model's own (logs 1, 8, 20, 33);
everything else is the manual's. -/
structure State where
  pending : List Instr
  now : Nat
  draws : Nat
  notices : List Notice
  toBridge : List BridgeReply
  toBank : List BankOp
  nv : Nonvolatile
  pins : Pins
  sup : Supply
  grd : Guard
  line : LineIf
  eng : Engine
  key : Keypad
  cred : Credentials
  tal : TallyHold
  pol : Policy
  gate : Gate
  wipe : Wipe
  stat : Status
  deriving DecidableEq, Repr

/-- Why a step stops with a fault. The manual names no event that stops the station (a bad strap is a guard
state, the fault flags are state), so there is none: nothing raises it; safe. -/
inductive Fault where
  deriving DecidableEq, Repr

/-- Why a step is refused. -/
inductive Refusal where
  /-- Raised by exec for a command that has no meaning yet, by its mnemonic; safe. No arm raises it now. -/
  | notModelled (mnemonic : String)
  deriving DecidableEq, Repr

/-- The policy table that acts on nothing (R113, R166). -/
def PolicyTable.idle : PolicyTable :=
  ⟨false, false, Config.policyCheckOf false false Config.idleEntries, Config.idleEntries⟩

/-- The nonvolatile records as a part leaves manufacture (R166). The serial is log 6's. -/
def Nonvolatile.manufactured : Nonvolatile where
  slots := Vector.replicate 4 {}
  liveStamp := 0
  pendingSlot := none
  tally := 0
  holdOwed := 0
  policy := PolicyTable.idle
  fixedMarks := Vector.replicate 64 .normal
  pendingMark := none
  journal := {}
  flags := 0
  serial := 0

/-- A staged change that counts: one whose stored mark is clear is taken as empty (R93). -/
def PendingChange.kept : Option PendingChange → Option PendingChange
  | some p => if p.stored then some p else none
  | none => none

/-- A station whose volatile items stand at their power-on values, over these nonvolatile records (R1, R21,
R63, R80, R99, R114, R128, R142, R158, R168). -/
def State.atPowerOn (pending : List Instr) (now draws : Nat) (toBridge : List BridgeReply)
    (toBank : List BankOp) (nv : Nonvolatile) (pins : Pins) (sup : Supply) : State where
  pending := pending
  now := now
  draws := draws
  notices := []
  toBridge := toBridge
  toBank := toBank
  nv := nv
  pins := pins
  sup := sup
  grd := {}
  line := {}
  eng := { serial := nv.serial }
  key := {}
  cred := { slots := nv.slots, liveStamp := nv.liveStamp, pendingSlot := PendingChange.kept nv.pendingSlot }
  tal := { tally := nv.tally, holdOwed := nv.holdOwed }
  pol := { table := nv.policy }
  gate := { fixedMarks := nv.fixedMarks }
  wipe := { journal := nv.journal }
  stat := { flags := nv.flags }

/-- The part as it leaves manufacture, without a supply (R160, R166; logs 4 to 7). -/
def State.reset : State :=
  State.atPowerOn [] 0 0 [] [] Nonvolatile.manufactured ⟨0, false, false, false⟩ { state := .off }

end Sys2Proof.Machine
end

