-- ==== Sys2Proof/Machine/Store.lean ====
section
/-! DEFINITION. The store of a record that keeps the last value put in force. -/

namespace Sys2Proof.Machine

/-- A value put in force is stored: at once when no store is in progress, else it becomes the waiting value
(R101). A record whose failed store waits to be repeated stores the value in force then. -/
def Store.put {α : Type} (st : Store α) (v : α) : Store α :=
  match st.busy with
  | some _ => { st with waiting := some v }
  | none => if st.again then st else { st with busy := some v }

/-- The store in progress was made: the waiting value is stored next (R101), if a store may begin. -/
def Store.made {α : Type} (st : Store α) (mayBegin : Bool) : Store α :=
  { busy := if mayBegin then st.waiting else none, waiting := none, again := false }

/-- The store in progress failed. With a value waiting, that value's store begins, as at any end of a store (R101); it is
the value in force. Else the value in force is stored again, at once or, where the owner says so, when it may. Where no
store may begin none does (R2). -/
def Store.failed {α : Type} (st : Store α) (inForce : α) (mayBegin now : Bool) : Store α :=
  if !mayBegin then {}
  else if now || st.waiting.isSome then { busy := some inForce } else { again := true }

/-- A failed store that waited is begun again with the value in force. -/
def Store.repeatNow {α : Type} (st : Store α) (inForce : α) : Store α :=
  if st.again then { busy := some inForce } else st

/-- No store is in progress or waiting to be repeated (R162). -/
def Store.quiet {α : Type} (st : Store α) : Bool :=
  st.busy.isNone && !st.again

end Sys2Proof.Machine
end

