-- ==== Sys2Proof/Machine/Flags.lean ====
section
/-! DEFINITION. The twelve fault flags: their bits and groups, setting one, and what a CLEAR clears. -/

namespace Sys2Proof.Machine

/-- The fault flags (R168). -/
inductive Flag where
  | lineStuck | badRound | obsRefused | slotClash | rollShort | peerLost
  | tableSplit | policySplit | splitEntry | storeFail | eraseBad | abandoned
  deriving DecidableEq, Repr

/-- Bit numbers (R168). -/
def Flag.bit : Flag → Nat
  | .lineStuck => 11 | .badRound => 10 | .obsRefused => 9 | .slotClash => 8 | .rollShort => 7 | .peerLost => 6
  | .tableSplit => 5 | .policySplit => 4 | .splitEntry => 3 | .storeFail => 2 | .eraseBad => 1 | .abandoned => 0

/-- The flag's bit alone. -/
def Flag.mask (f : Flag) : FlagSet := 1#12 <<< f.bit

/-- The flag is set in this record. -/
def FlagSet.has (fs : FlagSet) (f : Flag) : Bool := fs.getLsbD f.bit

/-- The LINE and ROSTER groups: bits 11 to 6 (R168). -/
def flagGroupLineRoster : FlagSet := 0b111111000000#12
/-- The TABLE group: bits 5 to 3 (R168). -/
def flagGroupTable : FlagSet := 0b000000111000#12
/-- The MEDIA group: bits 2 to 0 (R168). -/
def flagGroupMedia : FlagSet := 0b000000000111#12

/-- TABLE_SPLIT, POLICY_SPLIT, SLOT_CLASH and STORE_FAIL: the flags of the fault-disarm latch (07, 7.8). -/
def disarmingFlags : FlagSet :=
  Flag.tableSplit.mask ||| Flag.policySplit.mask ||| Flag.slotClash.mask ||| Flag.storeFail.mask

/-- Any flag of the mask is set. -/
def FlagSet.any (fs mask : FlagSet) : Bool := fs &&& mask != 0

/-- A setting takes the flag out of the carried set of a DETAIL in progress (R169). -/
def RoundRec.uncarry (r : RoundRec) (f : Flag) : RoundRec :=
  { r with carried := r.carried.map (· &&& ~~~f.mask) }

/-- Stores may begin: not in STRAP_FAULT (R2). -/
def State.mayStore (s : State) : Bool := s.grd.state != .strapFault

/-- An input is handed to the policy triggers. -/
def State.note (s : State) (n : Notice) : State := { s with notices := s.notices ++ [n] }

/-- A flag is set: in force whether or not it was, its reported mark cleared, the record stored, the triggers
told when the flag is one of the four (R168, R169, R125). In STRAP_FAULT no store begins (R2). -/
def State.setFlag (s : State) (f : Flag) : State :=
  let flags := s.stat.flags ||| f.mask
  let s :=
    { s with
      stat := { s.stat with
        flags := flags
        reported := s.stat.reported &&& ~~~f.mask
        store := if s.mayStore then s.stat.store.put flags else s.stat.store }
      eng := { s.eng with round := s.eng.round.map (·.uncarry f) } }
  if FlagSet.any f.mask disarmingFlags then s.note .fault else s

/-- The flags of a CLEAR that are cleared: those named that are set and reported (R172). -/
def clearable (st : Status) (named : FlagSet) : FlagSet := named &&& st.flags &&& st.reported

/-- A CLEAR is applied: its clearable flags and their marks are cleared, the record is stored (R172), and the
fault-disarm latch is cleared when none of the four flags is left (R126). A CLEAR that clears nothing asks for the
store all the same (log 17). -/
def State.clearFlags (s : State) (named : FlagSet) : State :=
  let gone := clearable s.stat named
  let flags := s.stat.flags &&& ~~~gone
  let s :=
    { s with stat := { s.stat with
        flags := flags
        reported := s.stat.reported &&& ~~~gone
        store := if s.mayStore then s.stat.store.put flags else s.stat.store } }
  if FlagSet.any flags disarmingFlags then s else { s with pol := { s.pol with latch := false } }

end Sys2Proof.Machine
end

