-- ==== Sys2Proof/Machine/Operands.lean ====
section
/-! DEFINITION. The forms of operands and of what goes over the line: key classification, kinds and bodies,
field conventions and widths, ARG layouts, the SUMMARY and DETAIL reports, FIT items (R52, R65, R175). -/

namespace Sys2Proof.Machine

/-- A vector rewritten entry by entry. -/
def mapEntries {α β : Type} {n : Nat} (f : α → β) (v : Vector α n) : Vector β n :=
  ⟨⟨v.toList.map f⟩, by simp⟩

/-! ## Keys -/

/-- The number of a key line: the digits, UNLOCK, SHIFT. -/
def keyNumber : Key → Nat
  | .digit d => d.val
  | .unlock => 10
  | .shift => 11

/-- The bit of a key. -/
def keyMask (k : Key) : BitVec 12 := 1#12 <<< keyNumber k

/-- The bits of the ten digit keys. -/
def digitKeys : BitVec 12 := 0b001111111111#12

/-- What a press is taken as (R65). -/
inductive Gesture where
  | modifier
  | ignored
  | digit (d : Digit)
  | chord (d : Digit)
  | chordUnlock
  | unlock
  deriving DecidableEq, Repr

/-- A press classified by the keys already DOWN (R65). -/
def classify (k : Key) (down : BitVec 12) : Gesture :=
  let others := down &&& ~~~keyMask k
  let shift := others &&& keyMask .shift != 0
  match k with
  | .shift => .modifier
  | .digit d =>
    if others &&& digitKeys != 0 then .ignored else if shift then .chord d else .digit d
  | .unlock => if shift then .chordUnlock else .unlock

/-! ## Kinds, fields and bodies -/

/-- Round kind codes (R52). -/
def kindCode : RoundKind → Nat
  | .wipe => 1 | .lock => 2 | .roll => 3 | .check => 4 | .setcode => 5 | .setmark => 6 | .progress => 7
  | .status => 8 | .clear => 9 | .fit => 10

/-- What a KIND field's four bits are judged as (R33). -/
inductive KindJudgement where
  | stuck | valid (k : RoundKind) | badKind | idlePattern
  deriving DecidableEq, Repr

/-- The judgement of a KIND read (R33). -/
def judgeKind (code : Nat) : KindJudgement :=
  match code with
  | 0 => .stuck
  | 1 => .valid .wipe | 2 => .valid .lock | 3 => .valid .roll | 4 => .valid .check | 5 => .valid .setcode
  | 6 => .valid .setmark | 7 => .valid .progress | 8 => .valid .status | 9 => .valid .clear | 10 => .valid .fit
  | 15 => .idlePattern
  | _ => .badKind

/-- The body fields of a kind, in order (R52); DETAIL only when the ARG names a target (R170). -/
def bodyFields (kind : RoundKind) (arg : Arg) : List Field :=
  match kind with
  | .wipe => [.hold, .stored]
  | .lock => []
  | .roll => [.serial, .tallyHi, .stampHi, .stampLo, .wipeAny, .policyLo, .policyHi]
  | .check => [.fingerprint, .agree, .tallyHi, .hold, .stored, .verdict, .verdictAgree]
  | .setcode => [.fingerprint, .agree, .hold, .stored]
  | .setmark => [.hold, .stored]
  | .progress => [.done, .badHi]
  | .status => if arg.toNat < 8 then [.summary, .detail] else [.summary]
  | .clear => []
  | .fit => [.item, .hold, .stored]

/-- The fields of a round from OPENERS on (R38). -/
def fieldsAfterArg (kind : RoundKind) (arg : Arg) : List Field :=
  [.openers, .answer] ++ bodyFields kind arg ++ [.accept]

/-- The field after f in a list of fields. -/
def nextAfter (f : Field) : List Field → Option Field
  | [] => none
  | x :: xs => if x = f then xs.head? else nextAfter f xs

/-- How a field is driven and read (02, 2.4). -/
inductive Convention where
  | arbitrated | map | mergedLow | mergedHigh | hold | data
  deriving DecidableEq, Repr

/-- The convention of each field (R38, R52, R53, 05, 09, 11). -/
def convention : Field → Convention
  | .kind | .arg => .arbitrated
  | .openers | .answer | .wipeAny | .agree | .stored | .verdictAgree | .done | .accept => .map
  | .stampLo | .policyLo | .fingerprint | .verdict => .mergedLow
  | .tallyHi | .stampHi | .policyHi | .badHi => .mergedHigh
  | .hold => .hold
  | .serial | .summary | .detail | .item => .data

/-- Field widths (R175). A hold field has no width. -/
def fieldWidth : Field → Nat
  | .kind => 4 | .arg => 16 | .openers => 9
  | .answer | .accept | .agree | .stored | .verdictAgree | .wipeAny | .done => 8
  | .serial => 256
  | .tallyHi | .badHi => 7
  | .stampHi | .policyHi | .stampLo | .policyLo => 16
  | .fingerprint => 32 | .verdict => 3 | .hold => 0
  | .summary => 64 | .detail => 160 | .item => 32

/-- The greatest value of a field's width. -/
def fieldMax (f : Field) : Nat := 2 ^ fieldWidth f - 1

/-- A number as the bits of a field. -/
def asBits (n : Nat) : LineBits := BitVec.ofNat 256 n

/-- A merged-high offer in complement form (R29). -/
def complementOf (f : Field) (n : Nat) : LineBits := asBits (fieldMax f - n)

/-! ## Maps -/

/-- The slot of station n in a map. -/
def slotBit (n : Nat) : Slots := 1#8 <<< n

/-- The roster set: stations 0 up to one less than the roster size (R44). -/
def rosterSet (size : Nat) : Slots := BitVec.ofNat 8 (2 ^ size - 1)

/-- A map as this station takes it: its own slot as it drove it, slots outside the roster dropped (R27). -/
def takenMap (sup : Supply) (drove : Bool) (read : Slots) : Slots :=
  (if drove then read ||| slotBit sup.stn.toNat else read &&& ~~~slotBit sup.stn.toNat) &&& rosterSet sup.roster

/-- OPENERS as taken: as any map, with the observer's slot 8 kept (R27). -/
def takenOpeners (sup : Supply) (drove : Bool) (read : BitVec 9) : BitVec 9 :=
  (read &&& 0b100000000#9) ||| (takenMap sup drove (read.setWidth 8)).setWidth 9

/-- The value a driven number leaves on the line against what the operand reports: the line is never above
what the station itself drives on it (02, wired-AND; log 13). -/
def lineValue (offer : Offer) (read : LineBits) : LineBits :=
  match offer with
  | .bits v => if v < read then v else read
  | _ => read

/-- The bits of a field that an operand reports. -/
def fieldBits (f : Field) (read : LineBits) : LineBits := read &&& asBits (fieldMax f)

/-- The result of a body field as it is handed to its owner (R27, R28, R29, R32). -/
def fieldResult (sup : Supply) (offer : Offer) (f : Field) (read : LineBits) : FieldResult :=
  let bits := fieldBits f read
  let line := lineValue offer bits
  match convention f with
  | .map => ⟨f, (takenMap sup (offer == .slot) (bits.setWidth 8)).setWidth 256, offer == .slot⟩
  | .mergedHigh => ⟨f, asBits (fieldMax f - line.toNat), offer == .bits line⟩
  | .mergedLow | .arbitrated => ⟨f, line, offer == .bits line⟩
  | .data | .hold => ⟨f, bits, offer == .bits bits⟩

/-- What stood on the line in a field: what the operand reports, with this station's own drive on it (R22). -/
def lineRead (sup : Supply) (offer : Offer) (f : Field) (read : LineBits) : LineBits :=
  let bits := fieldBits f read
  match convention f with
  | .map => if offer = .slot then bits ||| (slotBit sup.stn.toNat).setWidth 256 else bits
  | .data | .hold => bits
  | _ => lineValue offer bits

/-- The field ended dominant: a map's last slot was driven, another field's last bit is 0. -/
def endsDominant (f : Field) (line : LineBits) : Bool :=
  if convention f = .map then line.getLsbD (fieldWidth f - 1) else !line.getLsbD 0

/-- The field was dominant throughout: every slot of a map was driven, another field reads 0. -/
def dominantThroughout (f : Field) (line : LineBits) : Bool :=
  if convention f = .map then line == asBits (fieldMax f) else line == 0

/-- The result of a body field already read. -/
def RoundRec.result (r : RoundRec) (f : Field) : Option FieldResult := r.results.find? (·.field == f)

/-- A body map already read, empty before. -/
def RoundRec.mapOf (r : RoundRec) (f : Field) : Slots :=
  match r.result f with
  | some x => x.value.setWidth 8
  | none => 0

/-- A body value already read. -/
def RoundRec.numberOf (r : RoundRec) (f : Field) : Nat :=
  match r.result f with
  | some x => x.value.toNat
  | none => 0

/-- The own value equalled the result of a merged field (R28). -/
def RoundRec.equalIn (r : RoundRec) (f : Field) : Bool :=
  match r.result f with
  | some x => x.equal
  | none => false

/-- This station's slot was driven in a body map. -/
def RoundRec.droveIn (r : RoundRec) (sup : Supply) (f : Field) : Bool :=
  (r.mapOf f).getLsbD sup.stn.toNat

/-- AGREE has been read and equals ANSWER (R85, R91). -/
def RoundRec.agreed (r : RoundRec) : Bool := (r.result .agree).isSome && r.mapOf .agree == r.answer

/-- AGREE has been read and differs from ANSWER. -/
def RoundRec.disagreed (r : RoundRec) : Bool := (r.result .agree).isSome && r.mapOf .agree != r.answer

/-! ## ARG layouts (R175) -/

/-- LOCK causes (R10). -/
def lockKeypad : Arg := 1
def lockPolicy : Arg := 2
def lockBattery : Arg := 3
def lockLine : Arg := 4

/-- WIPE causes (09, 9.2). -/
def wipeDuress : Arg := 1
def wipeUserReset : Arg := 2
def wipeAdmin : Arg := 3
def wipePolicy : Arg := 4

/-- The cause a WIPE round's ARG stores (R144). -/
def causeOfArg (a : Arg) : WipeCause :=
  match a.toNat with
  | 1 => .duress | 2 => .userReset | 3 => .adminCommand | 4 => .policy | _ => .adopted

/-- SETCODE role codes (R175). -/
def roleCode : Role → BitVec 2
  | .empty => 0 | .admin => 1 | .user => 2 | .duress => 3

/-- A SETCODE ARG: slot, role, low twelve bits of the new stamp (R175). -/
def setcodeArg (slot : CodeSlotNo) (role : Role) (stamp : BitVec 16) : Arg :=
  BitVec.ofNat 2 slot.val ++ roleCode role ++ stamp.setWidth 12

/-- What a SETMARK ARG asks for. -/
inductive MarkChange where
  | session (extent : Option Extent) (mark : SessionMark)
  | fixed (extent : Extent) (mark : FixedMark)
  deriving DecidableEq, Repr

/-- A session mark's code (R175). -/
def sessionOfCode : Nat → Option SessionMark
  | 0 => some .writable | 1 => some .readOnly | _ => none

/-- A fixed mark's code (R175). -/
def fixedOfCode : Nat → Option FixedMark
  | 0 => some .normal | 1 => some .pub | 2 => some .frozen | _ => none

/-- A SETMARK ARG read by its layout: none when a bit given as 0 reads 1, or when the scope does not allow
the extent or the value (R139, R175). -/
def markChangeOf (a : Arg) : Option MarkChange :=
  let extent := (a.extractLsb' 0 7).toNat
  let value := (a.extractLsb' 8 2).toNat
  if a.extractLsb' 10 5 != 0 || a.getLsbD 7 then none
  else if a.getLsbD 15 then
    if h : extent < 64 then (fixedOfCode value).map (.fixed ⟨extent, h⟩) else none
  else if h : extent < 64 then (sessionOfCode value).map (.session (some ⟨extent, h⟩))
  else if extent = 127 then (sessionOfCode value).map (.session none) else none

/-- The ARG of SETMARK SESSION ALL (R74). -/
def setmarkSessionAll (mark : SessionMark) : Arg :=
  match mark with
  | .writable => 0b0000000001111111#16
  | .readOnly => 0b0000000101111111#16

/-- The ARG of SETMARK FIXED (R73): the digits spell the extent, the third digit is the mark's code. -/
def setmarkFixed (extent mark : Nat) : Arg :=
  1#1 ++ 0#5 ++ BitVec.ofNat 2 mark ++ 0#1 ++ BitVec.ofNat 7 extent

/-- A CLEAR ARG's target and flag set (R172). -/
def clearTarget (a : Arg) : Nat := (a.extractLsb' 12 4).toNat
def clearSet (a : Arg) : FlagSet := a.extractLsb' 0 12

/-! ## Codes of the states (R1, R175) -/

/-- Guard state codes (R1). -/
def guardCode : GuardState → Nat
  | .strapFault => 0 | .starting => 1 | .blank => 2 | .locked => 3 | .held => 4 | .opened => 5 | .admin => 6
  | .closing => 7 | .wiping => 8

/-- The guard state of a code, if it is one (R1). -/
def guardOfCode : Nat → Option GuardState
  | 0 => some .strapFault | 1 => some .starting | 2 => some .blank | 3 => some .locked | 4 => some .held
  | 5 => some .opened | 6 => some .admin | 7 => some .closing | 8 => some .wiping | _ => none

/-- Journal phase codes (R175). -/
def phaseCode : Phase → Nat
  | .none => 0 | .ordered => 1 | .keyGone => 2 | .passing => 3 | .done => 4

/-- Journal cause codes (R175). -/
def causeCode : WipeCause → Nat
  | .none => 0 | .duress => 1 | .userReset => 2 | .adminCommand => 3 | .policy => 4 | .adopted => 5

/-! ## SUMMARY and DETAIL -/

/-- The summary byte (R170). -/
def summaryByte (s : State) : BitVec 8 :=
  BitVec.ofBool (s.stat.flags == 0) ++ BitVec.ofNat 4 (guardCode s.grd.state)
    ++ BitVec.ofBool (FlagSet.any s.stat.flags flagGroupLineRoster)
    ++ BitVec.ofBool (FlagSet.any s.stat.flags flagGroupTable)
    ++ BitVec.ofBool (FlagSet.any s.stat.flags flagGroupMedia)

/-- The hold seconds remaining, rounded up; 0 without a deadline (R99). -/
def holdSeconds (s : State) : Nat :=
  match s.tal.deadline with
  | some d => (d - s.now + 999) / 1000
  | none => 0

/-- The eight memos, entry 0 first (R171). -/
def memoBits (memos : Vector Nat 8) : BitVec 64 :=
  BitVec.ofNat 8 (memos.get 0) ++ BitVec.ofNat 8 (memos.get 1) ++ BitVec.ofNat 8 (memos.get 2)
    ++ BitVec.ofNat 8 (memos.get 3) ++ BitVec.ofNat 8 (memos.get 4) ++ BitVec.ofNat 8 (memos.get 5)
    ++ BitVec.ofNat 8 (memos.get 6) ++ BitVec.ofNat 8 (memos.get 7)

/-- The DETAIL report (R171, R175). -/
def detailReport (s : State) : BitVec 160 :=
  0#1 ++ s.stat.flags ++ BitVec.ofNat 7 s.tal.tally ++ BitVec.ofNat 3 (phaseCode s.wipe.journal.phase)
    ++ BitVec.ofNat 3 (causeCode s.wipe.journal.cause) ++ BitVec.ofNat 7 s.wipe.journal.nextExtent
    ++ BitVec.ofNat 7 s.wipe.journal.bad.length ++ BitVec.ofNat 12 (holdSeconds s) ++ s.cred.liveStamp
    ++ s.pol.armed ++ BitVec.ofBool s.pol.table.faultDisarm ++ BitVec.ofBool s.pol.table.frozen
    ++ s.pol.table.check ++ memoBits s.pol.memos ++ 0#2

/-! ## FIT items (R175) -/

/-- What a FIT item writes. -/
inductive FitItem where
  | header (faultDisarm frozen : Bool)
  | partA (e : EntryNo) (causeCode : BitVec 3) (causeArg : BitVec 7) (actionCode : BitVec 3)
      (links : BitVec 8) (repeats armAtStart : Bool)
  | partB (e : EntryNo) (timer : BitVec 2) (seconds : BitVec 16)
  | marks (group : Nat) (codes : BitVec 32)
  deriving DecidableEq, Repr

/-- The two-bit code of the i-th extent of a fixed-mark item: extent 16k in bits 31–30 (R175). -/
def markCodeAt (codes : BitVec 32) (i : Nat) : Nat := (codes.extractLsb' (30 - 2 * i) 2).toNat

/-- An item read by its index's layout; none when the index is not defined, a bit given as 0 reads 1, or an
extent's code is 3 (R173). -/
def fitItemOf (index : Arg) (w : BitVec 32) : Option FitItem :=
  let i := index.toNat
  if i = 0 then
    if w.extractLsb' 2 30 = 0 then some (.header (w.getLsbD 1) (w.getLsbD 0)) else none
  else if h : 1 ≤ i ∧ i ≤ 8 then
    if w.extractLsb' 0 9 = 0 then
      some (.partA ⟨i - 1, by omega⟩ (w.extractLsb' 29 3) (w.extractLsb' 22 7) (w.extractLsb' 19 3)
        (w.extractLsb' 11 8) (w.getLsbD 10) (w.getLsbD 9))
    else none
  else if h : 9 ≤ i ∧ i ≤ 16 then
    if w.extractLsb' 18 14 = 0 then
      some (.partB ⟨i - 9, by omega⟩ (w.extractLsb' 16 2) (w.extractLsb' 0 16))
    else none
  else if 32 ≤ i ∧ i ≤ 35 then
    if (List.range 16).all (fun j => markCodeAt w j != 3) then some (.marks (i - 32) w) else none
  else none

/-- A fixed-mark item's sixteen marks put into a mark set (R174). -/
def withMarks (marks : Vector FixedMark 64) (group : Nat) (codes : BitVec 32) : Vector FixedMark 64 :=
  (List.range 16).foldl
    (fun m j => m.setIfInBounds (16 * group + j) ((fixedOfCode (markCodeAt codes j)).getD .normal)) marks

end Sys2Proof.Machine
end

