-- ==== Sys2Proof/Machine/Ops.lean ====
section
/-! DEFINITION. The named operations over the station's blocks that several events share: the clock, the
opening queue, the inactivity timer, the gate's decisions and port, the guard state and its changes, holds and
the tally, keypad resets. -/

namespace Sys2Proof.Machine

/-! ## The clock -/

/-- The clock stands at least at a moment (log 2). -/
def State.reach (s : State) (moment : Nat) : State := { s with now := max s.now moment }

/-- One millisecond passes (log 1). -/
def State.tick (s : State) : State := { s with now := s.now + 1 }

/-- The station has a supply, has finished power-on and is not in STRAP_FAULT (R2, 10.5). -/
def State.working (s : State) : Bool :=
  s.sup.state != .off && s.sup.step == .done && s.grd.state != .strapFault

/-- The station tracks the line: it works, and is neither DORMANT nor warming up (R37). -/
def State.tracking (s : State) : Bool := s.working && s.sup.activity != .dormant

/-! ## The opening queue -/

/-- A request put in its place by kind (R48: the lowest kind first). -/
def queueInsert (r : Request) : List Request → List Request
  | [] => [r]
  | x :: xs => if kindCode r.kind < kindCode x.kind then r :: x :: xs else x :: queueInsert r xs

/-- The queued request of a kind (R46). -/
def queueFind (k : RoundKind) (q : List Request) : Option Request := q.find? (·.kind == k)

/-- The request of a kind changed in place. -/
def queueModify (k : RoundKind) (f : Request → Request) (q : List Request) : List Request :=
  q.map fun r => if r.kind = k then f r else r

/-- The request of a kind removed. -/
def queueRemove (k : RoundKind) (q : List Request) : List Request := q.filter (·.kind != k)

/-- A post whose ARG differs from the queued request's (R47). -/
def Request.repost (r : Request) (arg : Arg) : Request :=
  if r.inFlight then { r with arg := arg, replaced := true }
  else { r with arg := arg, retries := 0, notBefore := none }

/-- A posted request taken by the queue (R47). -/
def queuePost (k : RoundKind) (arg : Arg) (q : List Request) : List Request :=
  match queueFind k q with
  | none => queueInsert { kind := k, arg := arg } q
  | some r => if r.arg = arg then q else queueModify k (fun r => r.repost arg) q

/-- A header that was lost or not sent: in flight is cleared, and a replaced request is a new one (R48, R50). -/
def Request.unsent (r : Request) : Request :=
  { r with inFlight := false, replaced := false, retries := if r.replaced then 0 else r.retries }

/-- A request that may be offered now (R48). -/
def Request.eligible (now : Nat) (r : Request) : Bool :=
  !r.inFlight && (match r.notBefore with | none => true | some t => t ≤ now)

/-- A block posts a request; the queue of a station in STRAP_FAULT stays empty (R2, R46). -/
def State.post (s : State) (k : RoundKind) (arg : Arg) : State :=
  if s.grd.state = .strapFault then s
  else { s with eng := { s.eng with queue := queuePost k arg s.eng.queue } }

/-- A request of a kind that is not in flight is withdrawn (R69, R77). -/
def State.withdraw (s : State) (k : RoundKind) : State :=
  { s with eng := { s.eng with queue := s.eng.queue.filter fun r => r.kind != k || r.inFlight } }

/-- A request of a kind is removed. -/
def State.unqueue (s : State) (k : RoundKind) : State :=
  { s with eng := { s.eng with queue := queueRemove k s.eng.queue } }

/-! ## Inactivity -/

/-- The holding states (R161). -/
def GuardState.holding : GuardState → Bool
  | .starting | .opened | .admin | .closing | .wiping => true
  | _ => false

/-- The inactivity timer may run: on battery, in a state that is neither holding nor STRAP_FAULT (R161). -/
def State.mayDoze (s : State) : Bool :=
  s.sup.state == .battery && !s.grd.state.holding && s.grd.state != .strapFault

/-- An activity event: the timer restarts at DOZE_AFTER and DOZE ends (R161). While the activity state is DORMANT, warm-up
included, it leaves the timer stopped (log 58). -/
def State.activityEvent (s : State) : State :=
  if s.mayDoze && s.sup.activity != .dormant then
    { s with sup := { s.sup with inactivity := .running (s.now + Config.dozeAfter), activity := .awake } }
  else s

/-- A holding state or bus power keeps the station awake: the timer stops and DOZE ends (R161), at a bus-power rise in
STRAP_FAULT too (log 30). -/
def State.stayAwake (s : State) : State :=
  { s with sup := { s.sup with
      inactivity := .stopped
      activity := if s.sup.activity = .doze then .awake else s.sup.activity } }

/-! ## The gate -/

/-- The gate's answer to a request (R131). -/
inductive Decision where
  | refuse (reason : RefuseReason)
  | forward
  deriving DecidableEq, Repr

/-- The decision table (R132). -/
def gateDecision (s : State) (r : BridgeRequest) : Decision :=
  let mark := s.gate.fixedMarks.get r.extent
  if s.sup.state ≠ .bus then .refuse .noPower
  else if s.grd.state = .strapFault ∨ s.grd.state = .closing then .refuse .locked
  else if r.kind = .read ∧ mark = .pub then .forward
  else if s.grd.state = .wiping then .refuse .wiping
  else if s.grd.state = .opened ∧ s.grd.mustChange then .refuse .mustChange
  else if s.grd.state ≠ .opened ∧ s.grd.state ≠ .admin then .refuse .locked
  else if r.kind ≠ .read ∧ mark = .pub then
    if s.grd.state = .admin ∧ s.gate.markLockOpen then .forward else .refuse .readOnly
  else if r.kind ≠ .read ∧ mark = .frozen then .refuse .frozen
  else if r.kind ≠ .read ∧ s.gate.session.get r.extent = .readOnly then .refuse .readOnly
  else .forward

/-- The presented request is decided: a refusal goes to the bridge and empties the slot (R131). -/
def State.regate (s : State) : State :=
  match s.gate.presented with
  | none => s
  | some r =>
    match gateDecision s r with
    | .refuse reason =>
      { s with toBridge := s.toBridge ++ [.refusal r reason], gate := { s.gate with presented := none } }
    | .forward => s

/-- The bridge candidate: a presented request whose decision is forward, with room in the list (R133, R137). -/
def bridgeCandidate (s : State) : Option BridgeRequest :=
  match s.gate.presented with
  | none => none
  | some r =>
    if gateDecision s r = .forward ∧ s.gate.outstanding.length < Config.outstandingMax then some r else none

/-- A request is issued to the bank (R133); with an erase waiting the yield count rises (R137). -/
def State.issueAccess (s : State) (r : BridgeRequest) : State :=
  { s with
    toBank := s.toBank ++ [.access r]
    gate := { s.gate with
      presented := none
      outstanding := s.gate.outstanding ++ [r]
      portReady := false
      yieldCount := if s.gate.eraseWaiting.isSome then s.gate.yieldCount + 1 else s.gate.yieldCount } }

/-- The waiting erase is issued to the bank (R138). -/
def State.issueErase (s : State) (e : Nat) : State :=
  { s with
    toBank := s.toBank ++ [.erase e]
    gate := { s.gate with eraseWaiting := none, yieldCount := 0, portReady := false }
    wipe := { s.wipe with erase := .issued } }

/-- The arbiter grants a READY port by the table of R137; while the records are loading the station drives nothing
(10.5). -/
def State.grantPort (s : State) : State :=
  if s.gate.portReady && s.grd.state != .strapFault && s.sup.step != .loading then
    match bridgeCandidate s, s.gate.eraseWaiting with
    | none, none => s
    | none, some e => s.issueErase e
    | some r, none => s.issueAccess r
    | some r, some e => if s.gate.yieldCount < Config.wipeYield then s.issueAccess r else s.issueErase e
  else s

/-- The erase waiting is withdrawn (R136, R138). -/
def State.dropErase (s : State) : State :=
  { s with gate := { s.gate with eraseWaiting := none, yieldCount := 0 } }

/-! ## The keypad sampler -/

/-- The sampler returns to IDLE: buffer, first code, target, pending command and the three gesture timers go (R67, R72, R75). -/
def Keypad.toIdle (k : Keypad) : Keypad :=
  { k with
    mode := .idle, buffer := [], overlong := false, firstCode := none, target := none, command := none
    shiftFreed := false, entryTimer := none, resetTimer := none, wipeWindow := none }

/-- The sampler takes a guard state change (R78): back to IDLE, held entry and held change discarded and their
requests withdrawn. A CHECK or SETCODE request whose held entry or change is gone already stays queued (log 53). -/
def State.keypadReset (s : State) : State :=
  let s := if s.key.heldEntry.isSome then s.withdraw .check else s
  let s := if s.key.heldChange.isSome then s.withdraw .setcode else s
  { s with key := { s.key.toIdle with heldEntry := none, heldChange := none } }

/-! ## Guard state changes -/

/-- The gate takes a guard state change (R130): session marks set WRITABLE on entry to OPEN or ADMIN, the mark
lock closed on leaving ADMIN. -/
def Gate.takeGuard (gt : Gate) (before after : GuardState) : Gate :=
  { gt with
    session := if after = .opened ∨ after = .admin then Vector.replicate 64 .writable else gt.session
    markLockOpen := if before = .admin ∧ after ≠ .admin then false else gt.markLockOpen }

/-- The guard state changes and is handed on (R18): to the sampler, the gate, the triggers and, for the holding
states, the supply controller (R161). -/
def State.setGuard (s : State) (g : GuardState) : State :=
  if s.grd.state = g then s
  else
    let before := s.grd.state
    let s := { s with grd := { s.grd with state := g } }
    let s := s.keypadReset
    let s := { s with gate := s.gate.takeGuard before g }
    let s := s.regate
    let s := if g.holding then s.stayAwake else if before.holding then s.activityEvent else s
    s.note (.entered g)

/-- A deadline that has not been reached lies in the future: it is cleared when it is reached (R109, log 21). -/
def State.deadlineAhead (s : State) : Bool := s.tal.deadline.isSome

/-- The end of CLOSING (R15). -/
def State.endClosing (s : State) : State :=
  let s := { s with
    cred := { s.cred with plainKey := none }
    grd := { s.grd with matched := none, mustChange := false } }
  s.setGuard (if s.deadlineAhead then .held else .locked)

/-- The gate's drained notice: it ends CLOSING, and nothing else takes it (R134, R15). -/
def State.drained (s : State) : State := if s.grd.state = .closing then s.endClosing else s

/-- A station in OPEN or ADMIN enters CLOSING, and leaves it at once when its list is empty (R10 to R15). -/
def State.lockLocally (s : State) : State :=
  if s.grd.state = .opened ∨ s.grd.state = .admin then
    let s := { s with grd := { s.grd with batteryTimer := none } }
    let s := s.setGuard .closing
    if s.gate.outstanding = [] then s.drained else s
  else s

/-- A local lock on a rejected round, a stuck line or late listening, with its LOCK request (R14). -/
def State.lockForLine (s : State) : State :=
  if s.grd.state = .opened ∨ s.grd.state = .admin then s.lockLocally.post .lock lockLine else s

/-- Entry to OPEN or ADMIN with the plain key in place (R7, R8, R13). -/
def State.openStation (s : State) (slot : CodeSlotNo) (mustChange : Bool) (plain : Option BankKey) : State :=
  let s := { s with
    cred := { s.cred with plainKey := plain }
    grd := { s.grd with
      matched := some slot
      mustChange := mustChange
      batteryTimer := if s.sup.state = SupplyState.battery then some (s.now + Config.batteryOpen) else s.grd.batteryTimer } }
  s.setGuard (if slot = 0 then .admin else .opened)

/-- A PULSE of some seconds (R20). -/
def State.pulse (s : State) (seconds : Nat) : State :=
  { s with grd := { s.grd with pulseTimer := some (s.now + 1000 * seconds) } }

/-! ## Tally and hold -/

/-- Hold-owed is set and stored (R106, R108, R109). -/
def State.setOwed (s : State) (seconds : Nat) : State :=
  { s with tal := { s.tal with
      holdOwed := seconds
      owedStore := if s.mayStore then s.tal.owedStore.put seconds else s.tal.owedStore } }

/-- The deadline is cleared and hold-owed set to 0 and stored (R16, R105, R109). -/
def State.clearHold (s : State) : State :=
  ({ s with tal := { s.tal with deadline := none } }).setOwed 0

/-- This station has a CHECK round in progress (R5). -/
def State.inCheck (s : State) : Bool :=
  match s.eng.round with
  | some r => r.kind == some .check
  | none => false

/-- The guard controller takes a moved deadline (R6). -/
def State.takeDeadline (s : State) : State :=
  if s.grd.state = .locked then s.setGuard .held else s

/-- The deadline moves later: hold-owed is the request's length, the guard controller takes the move, after the
round's outcome when a CHECK round is in progress (R106, R5). -/
def State.moveDeadline (s : State) (deadline seconds : Nat) : State :=
  let s := ({ s with tal := { s.tal with deadline := some deadline } }).setOwed seconds
  if s.inCheck then { s with grd := { s.grd with holdDue := true } } else s.takeDeadline

/-- A hold request (R106). -/
def State.holdRequest (s : State) (seconds : Nat) : State :=
  let deadline := s.now + 1000 * seconds
  match s.tal.deadline with
  | some d => if deadline ≤ d then s else s.moveDeadline deadline seconds
  | none => s.moveDeadline deadline seconds

/-- The shortest hold after a CHECK round without a match: a station in LOCKED goes to HELD, be it by a later deadline
that already stands (R5, R90). -/
def State.takeGap (s : State) : State := (s.holdRequest Config.minGapSeconds).takeDeadline

/-- A deadline moved during a CHECK round is taken after its outcome (R5). -/
def State.takeDueDeadline (s : State) : State :=
  if s.grd.holdDue then
    let s := { s with grd := { s.grd with holdDue := false } }
    if s.deadlineAhead then s.takeDeadline else s
  else s

/-- A new tally: no change is handed to nobody and starts no store; a change is stored and handed to the
triggers (R100, R101). -/
def State.setTally (s : State) (v : Nat) : State :=
  if s.tal.tally = v then s
  else
    ({ s with tal := { s.tal with
        tally := v
        tallyStore := if s.mayStore then s.tal.tallyStore.put v else s.tal.tallyStore } }).note (.tally v)

/-- A tally result as it is taken: between the tally in force and 99 (R100; log 16). -/
def adoptedTally (inForce result : Nat) : Nat := max inForce (min result Config.tallyMax)

/-! ## Wiping and STRAP_FAULT at the guard controller -/

/-- Entry to WIPING (R16). -/
def State.enterWiping (s : State) : State :=
  let s := { s with
    cred := { s.cred with plainKey := none, genKey := none }
    grd := { s.grd with matched := none, mustChange := false, batteryTimer := none } }
  s.clearHold.setGuard .wiping

/-- Entry to STRAP_FAULT from a slot clash (R2, R135, R153, R127): keys, list, erase, timers, armed set and queue
go, the line is released for good, and the present round is dropped. -/
def State.enterStrapFault (s : State) : State :=
  let s := { s with
    cred := { s.cred with plainKey := none, genKey := none, roundEntry := none, roundChange := none }
    grd := { s.grd with
      matched := none, mustChange := false, batteryTimer := none, pulseTimer := none, holdDue := false }
    gate := { s.gate with
      outstanding := [], eraseWaiting := none, yieldCount := 0, portReady := false, staging := none }
    wipe := { s.wipe with erase := .absent, progressTimer := none }
    line := {}
    eng := { s.eng with round := none, queue := [] }
    stat := { s.stat with fit := none } }
  let s := s.setGuard .strapFault
  { s with
    key := { s.key with setAside := [] }
    pol := { s.pol with timers := Vector.replicate 4 none, armed := 0 }
    sup := { s.sup with inactivity := .stopped }
    eng := { s.eng with queue := [] } }

/-! ## Indicator lines -/

/-- The three indicator lines: true is pulled (00, section 4). -/
structure IndicatorPulls where
  red : Bool
  green : Bool
  blue : Bool
  deriving DecidableEq, Repr

/-- What the station pulls (R19, R20). -/
def State.indicators (s : State) : IndicatorPulls :=
  if s.sup.state = .off ∨ s.sup.activity ≠ .awake then ⟨false, false, false⟩
  else
    let collecting := s.key.mode ≠ .idle
    let pulse := s.grd.pulseTimer.isSome
    match s.grd.state with
    | .strapFault => ⟨false, false, false⟩
    | .starting => ⟨pulse, false, false⟩
    | .blank => ⟨pulse, true, true⟩
    | .locked | .held => ⟨true, false, collecting⟩
    | .opened | .admin => ⟨pulse, true, collecting⟩
    | .closing => ⟨pulse, true, false⟩
    | .wiping => ⟨pulse, false, true⟩

end Sys2Proof.Machine
end

