-- ==== Sys2Proof/Machine/Triggers.lean ====
section
/-! DEFINITION. The policy triggers: causes and actions of entries, firing, arming, the notices of an event
taken in the order they were handed on, and the end of an event. -/

namespace Sys2Proof.Machine

/-- A cause (R115). -/
inductive Cause where
  | none
  | tallyAtLeast (n : Nat)
  | timer (t : TimerNo)
  | stateEnter (g : GuardState)
  | peerLost
  | busRise
  | busFall
  deriving DecidableEq, Repr

/-- An action (R119). -/
inductive Action where
  | nop
  | hold (seconds : Nat)
  | lock
  | wipe
  | startTimer (t : TimerNo) (seconds : Nat)
  | stopTimer (t : TimerNo)
  | pulse (seconds : Nat)
  | snapshot
  deriving DecidableEq, Repr

/-- The cause fields read; none when the code or an argument the cause uses is out of range (R113, R115). -/
def causeOf (e : PolicyEntry) : Option Cause :=
  let n := e.causeArg.toNat
  match e.causeCode.toNat with
  | 0 => some .none
  | 1 => if 1 ≤ n ∧ n ≤ 99 then some (.tallyAtLeast n) else none
  | 2 => if h : n < 4 then some (.timer ⟨n, h⟩) else none
  | 3 => (guardOfCode n).map .stateEnter
  | 4 => some .peerLost
  | 5 => some .busRise
  | 6 => some .busFall
  | _ => none

/-- The action fields read; none when an argument the action uses is out of range (R113, R119). -/
def actionOf (e : PolicyEntry) : Option Action :=
  let n := e.seconds.toNat
  let t : TimerNo := e.timer.toFin
  match e.actionCode.toNat with
  | 0 => some .nop
  | 1 => if 1 ≤ n ∧ n ≤ 3600 then some (.hold n) else none
  | 2 => some .lock
  | 3 => some .wipe
  | 4 => if 1 ≤ n then some (.startTimer t n) else none
  | 5 => some (.stopTimer t)
  | 6 => if 1 ≤ n ∧ n ≤ 255 then some (.pulse n) else none
  | _ => some .snapshot

/-- An entry as it behaves: a malformed entry has cause NONE and action NOP (R113). -/
def entryBehaviour (e : PolicyEntry) : Cause × Action :=
  match causeOf e, actionOf e with
  | some c, some a => (c, a)
  | _, _ => (.none, .nop)

/-- The entry numbers in ascending order. -/
def entryNumbers : List EntryNo := [0, 1, 2, 3, 4, 5, 6, 7]

/-- A bit of a set of entries. -/
def entryBit (e : EntryNo) : BitVec 8 := 1#8 <<< e.val

/-- An entry is in a set. -/
def inEntries (set : BitVec 8) (e : EntryNo) : Bool := set.getLsbD e.val

/-- The entry as programmed. -/
def State.entry (s : State) (e : EntryNo) : PolicyEntry := s.pol.table.entries.get e

/-- Some absence count stands at LOST_ROUNDS (R54). -/
def State.peerLost (s : State) : Bool := s.eng.absence.toList.any (· == Config.lostRounds)

/-- A level cause's condition on a tally and the PEER_LOST condition (R116); false for the others. -/
def levelHolds (c : Cause) (tally : Nat) (lost : Bool) : Bool :=
  match c with
  | .tallyAtLeast n => n ≤ tally
  | .peerLost => lost
  | _ => false

/-- The last condition values of a table on the present state (R114, R116). -/
def lastValues (t : PolicyTable) (tally : Nat) (lost : Bool) : BitVec 8 :=
  entryNumbers.foldl
    (fun v e => if levelHolds (entryBehaviour (t.entries.get e)).1 tally lost then v ||| entryBit e else v) 0

/-- An input raises an entry's cause (R115): an event by itself, a level when it was false and becomes true. -/
def raises (n : Notice) (c : Cause) (last : Bool) : Bool :=
  match n, c with
  | .tally v, .tallyAtLeast k => !last && k ≤ v
  | .peerLost b, .peerLost => !last && b
  | .entered g, .stateEnter g' => g == g'
  | .timer t, .timer t' => t == t'
  | .busRise, .busRise => true
  | .busFall, .busFall => true
  | _, _ => false

/-- The last condition value after an input (R116). -/
def lastAfter (n : Notice) (c : Cause) (last : Bool) : Bool :=
  match n, c with
  | .tally v, .tallyAtLeast k => k ≤ v
  | .peerLost b, .peerLost => b
  | _, _ => last

/-- An action runs, for the entry whose action it is (R119, R120, R121). -/
def State.runAction (s : State) (e : EntryNo) : State :=
  match (entryBehaviour (s.entry e)).2 with
  | .nop => s
  | .hold n => s.holdRequest n
  | .lock => s.lockLocally.post .lock lockPolicy
  | .wipe => s.post .wipe wipePolicy
  | .startTimer t n =>
    { s with pol := { s.pol with timers := s.pol.timers.set t.val (some (s.now + 1000 * n)) } }
  | .stopTimer t => { s with pol := { s.pol with timers := s.pol.timers.set t.val none } }
  | .pulse n => s.pulse n
  | .snapshot => { s with pol := { s.pol with memos := s.pol.memos.set e.val s.tal.tally } }

/-- Entries are disarmed. -/
def State.disarm (s : State) (set : BitVec 8) : State :=
  { s with pol := { s.pol with armed := s.pol.armed &&& ~~~set } }

/-- The links of an entry that run: those armed, in ascending order, its own number ignored (R117, R113). -/
def linksRun (s : State) (e : EntryNo) : List EntryNo :=
  entryNumbers.filter fun l => l != e && inEntries (s.entry e).links l && inEntries s.pol.armed l

/-- The entries of a list that are marked ONCE, as a set. -/
def onceOf (s : State) (es : List EntryNo) : BitVec 8 :=
  es.foldl (fun v l => if (s.entry l).repeats then v else v ||| entryBit l) 0

/-- A firing (R117): the action, the armed links' actions, then the ONCE entries that ran are disarmed. -/
def State.fire (s : State) (e : EntryNo) : State :=
  if inEntries s.pol.armed e then
    let ran := linksRun (s.runAction e) e
    (ran.foldl State.runAction (s.runAction e)).disarm (onceOf s (e :: ran))
  else s

/-- The entries an input raises, in ascending order. -/
def raised (s : State) (n : Notice) : List EntryNo :=
  entryNumbers.filter fun e => raises n (entryBehaviour (s.entry e)).1 (inEntries s.pol.last e)

/-- The last condition values after an input. -/
def lastAfterNotice (s : State) (n : Notice) : BitVec 8 :=
  entryNumbers.foldl
    (fun v e =>
      if lastAfter n (entryBehaviour (s.entry e)).1 (inEntries s.pol.last e) then v ||| entryBit e else v) 0

/-- Every entry is disarmed and the latch set, with fault-disarm enabled (R125). -/
def State.faultDisarm (s : State) : State :=
  if s.pol.table.faultDisarm then { s with pol := { s.pol with armed := 0, latch := true } } else s

/-- The arm-at-start entries of a table. -/
def armAtStartSet (t : PolicyTable) : BitVec 8 :=
  entryNumbers.foldl (fun v e => if (t.entries.get e).armAtStart then v ||| entryBit e else v) 0

/-- The end of STARTING arms the arm-at-start entries, unless the latch is set (R123). -/
def State.armAtStart (s : State) : State :=
  if s.pol.latch then s
  else { s with pol := { s.pol with armed := s.pol.armed ||| armAtStartSet s.pol.table } }

/-- An arming request: every entry armed with the latch clear, refused with it set (R124). -/
def State.armAll (s : State) : State :=
  if s.pol.latch then s.pulse 1 else { s with pol := { s.pol with armed := 0xFF#8 } }

/-- The triggers take one input (R115 to R118, R123, R125); in STRAP_FAULT they take none (R127). -/
def State.takeNotice (s : State) (n : Notice) : State :=
  if s.grd.state = .strapFault then s
  else
    match n with
    | .fault => s.faultDisarm
    | .startingEnded => s.armAtStart
    | n =>
      let fired := raised s n
      let s := { s with pol := { s.pol with last := lastAfterNotice s n } }
      fired.foldl State.fire s

/-- The inputs handed on in an event are taken one after another; those that actions add come after the
others (R118). The count bounds them: actions alone change the guard state at most three times in an event,
OPEN or ADMIN to CLOSING to LOCKED to HELD. -/
def drainNotices : Nat → State → State
  | 0, s => { s with notices := [] }
  | n + 1, s =>
    match s.notices with
    | [] => s
    | x :: xs => drainNotices n (State.takeNotice { s with notices := xs } x)

/-- All inputs of the event are taken. -/
def State.drain (s : State) : State := drainNotices (s.notices.length + 8) s

/-! ## The end of an event -/

/-- No nonvolatile store of any block is in progress or waiting to be repeated (R162). -/
def State.storesQuiet (s : State) : Bool :=
  s.tal.tallyStore.quiet && s.tal.owedStore.quiet && s.pol.store.quiet && s.gate.markStore.quiet
    && s.stat.store.quiet && s.cred.busy.isNone && s.gate.pmBusy.isNone
    && s.wipe.busy.isNone && s.wipe.again.isNone

/-- Entry to DORMANT (R162, R37): the line is released and no longer followed, its timers stop; the key states
stay, their debounce timers stop. No line view is kept; until the end of warm-up the field holds SYNCING (log 51). -/
def State.enterDormant (s : State) : State :=
  { s with
    sup := { s.sup with activity := .dormant, inactivity := .stopped }
    line := {}
    key := { s.key with debounce := [] } }

/-- A dozing station whose timer has run out enters DORMANT in the event that makes R162's conditions hold. -/
def State.dormantIfQuiet (s : State) : State :=
  if s.sup.activity = .doze ∧ s.sup.inactivity = .expired ∧ s.eng.queue = [] ∧ s.storesQuiet
      ∧ s.line.view ≠ .round then
    s.enterDormant
  else s

/-- The end of an event: the triggers take their inputs, the presented request is decided on what the event
changed and the port is granted (R131, R137), and a quiet dozing station falls dormant (R162). -/
def State.settle (s : State) : State := s.drain.regate.grantPort.dormantIfQuiet

/-- One event: whole and indivisible. No input is left over from the event before. -/
def event (f : State → State) (s : State) : Host.Outcome State Fault Refusal :=
  .next (f { s with notices := [] }).settle

end Sys2Proof.Machine
end

