-- ==== Sys2Proof/Machine/Credentials.lean ====
section
/-! DEFINITION. The credential table's operations: matching, fingerprints, staging, promotion, discard,
destruction, and its stores (05). -/

namespace Sys2Proof.Machine

/-- The mark a table keeps of a code (R81). -/
def markOf (code : List Digit) : CodeMark := ⟨code.length, Config.verifierOf code⟩

/-- The mark of a non-empty slot. -/
def slotMark : SlotContents → Option CodeMark
  | .empty => none
  | .admin c _ => some c
  | .user c _ _ => some c
  | .duress c => some c

/-- The role of a slot. -/
def slotRole : SlotContents → Role
  | .empty => .empty
  | .admin _ _ => .admin
  | .user _ _ _ => .user
  | .duress _ => .duress

/-- The wrap of an ADMIN or USER slot. -/
def slotWrap : SlotContents → Option KeyWrap
  | .admin _ w => some w
  | .user _ w _ => some w
  | _ => none

/-- The MUST_CHANGE field of a USER slot. -/
def slotMustChange : SlotContents → Bool
  | .user _ _ m => m
  | _ => false

/-- An entry matches a non-empty slot: equal length and equal derived verifier; the empty entry matches none (R81). -/
def matchesSlot (entry : List Digit) (c : SlotContents) : Bool :=
  match slotMark c with
  | none => false
  | some m => !entry.isEmpty && entry.length == m.length && Config.verifierOf entry == m.verifier

/-- The slot numbers in ascending order. -/
def slotNumbers : List CodeSlotNo := [0, 1, 2, 3]

/-- The lowest slot an entry matches in a table (R87). -/
def lowestMatch (slots : Vector CodeSlot 4) (entry : List Digit) : Option CodeSlotNo :=
  slotNumbers.find? fun i => matchesSlot entry (slots.get i).contents

/-- The table is empty: no slot is non-empty (R79). -/
def tableEmpty (slots : Vector CodeSlot 4) : Bool :=
  slotNumbers.all fun i => (slots.get i).contents == .empty

/-- A wrap opened with an entry: the key when the entry matches the wrap's code (R81). -/
def openWrap (w : KeyWrap) (entry : List Digit) : Option BankKey :=
  if entry.length = w.under.length ∧ Config.verifierOf entry = w.under.verifier then some w.key else none

/-- The fold of an entry in a CHECK round (R82). -/
def entryFingerprint (entry : List Digit) (arg : Arg) : BitVec 32 :=
  Config.fingerprintOf (entry.map .digit) arg

/-- The fold of a confirmed change in a SETCODE round: the code with the must-change mark appended (R82, R91). -/
def changeFingerprint (c : RoundChange) (arg : Arg) : BitVec 32 :=
  Config.fingerprintOf (c.code.map .digit ++ [.mustChange c.mustChange]) arg

/-- A role is allowed for a slot (R79), and slot 0 is not cleared (R91). -/
def roleAllowed (target : CodeSlotNo) (role : Role) : Bool :=
  match role with
  | .admin => target == 0
  | .user => target == 1 || target == 2
  | .duress => target == 3
  | .empty => target != 0

/-- The change is first setup: slot 0, role ADMIN, stamp 1 (R91, R97). -/
def isFirstSetup (c : RoundChange) : Bool := c.target == 0 && c.role == .admin && c.stamp == 1

/-- The guard states that allow a station to agree to and stage a change (R91, R92). -/
def guardAllows (s : State) (c : RoundChange) : Bool :=
  s.grd.state == .opened || s.grd.state == .admin
    || (s.grd.state == .blank && isFirstSetup c && s.cred.liveStamp == 0)

/-- A station's own conditions for AGREE in SETCODE, beside the equal fingerprint (R91). -/
def changeAcceptable (s : State) (c : RoundChange) : Bool :=
  s.wipe.journal.phase == .none && roleAllowed c.target c.role
    && (c.stamp.toNat == s.cred.liveStamp.toNat + 1) && guardAllows s c

/-- The new slot contents of a change, with the key its wrap encloses (R92). -/
def newContents (c : RoundChange) (key : BankKey) : SlotContents :=
  let m := markOf c.code
  match c.role with
  | .empty => .empty
  | .admin => .admin m ⟨key, m⟩
  | .user => .user m ⟨key, m⟩ c.mustChange
  | .duress => .duress m

/-- A slot written. -/
def setSlot (slots : Vector CodeSlot 4) (i : CodeSlotNo) (v : CodeSlot) : Vector CodeSlot 4 :=
  slots.set i.val v

/-! ## Stores -/

/-- A table store is a staging. -/
def CredJob.isStage : CredJob → Bool
  | .stage _ => true
  | _ => false

/-- A table store begins: a staging store clears the stored mark as it begins (R92). -/
def State.beginCred (s : State) (j : CredJob) : State :=
  let s := { s with cred := { s.cred with busy := some j } }
  match j with
  | .stage p =>
    let begun := some { p with stored := false }
    { s with cred := { s.cred with pendingSlot := begun }, nv := { s.nv with pendingSlot := begun } }
  | _ => s

/-- The next waiting table store begins, if a store may begin (R80, R2). -/
def State.nextCred (s : State) : State :=
  let s := { s with cred := { s.cred with busy := none } }
  match s.cred.waiting with
  | [] => s
  | j :: js =>
    if s.mayStore then ({ s with cred := { s.cred with waiting := js } }).beginCred j
    else { s with cred := { s.cred with waiting := [] } }

/-- A table store is asked for: it begins, or waits behind the others (R80). -/
def State.askCred (s : State) (j : CredJob) : State :=
  if !s.mayStore then s
  else
    match s.cred.busy with
    | none => s.beginCred j
    | some _ => { s with cred := { s.cred with waiting := s.cred.waiting ++ [j] } }

/-- The destruction store is asked for: every store still waiting is dropped, and it begins when the store in
progress ends (R80, R98). That a waiting staging was dropped is kept: its station holds the line on to HOLD_MAX, and the
end of the older store in progress is not its staging's (log 52). -/
def State.askDestruction (s : State) : State :=
  match s.cred.busy with
  | some .destroy => s
  | some _ =>
    { s with cred := { s.cred with
        waiting := [.destroy]
        stagingDropped := s.cred.waiting.any CredJob.isStage || s.cred.stagingDropped } }
  | none => s.askCred .destroy

/-- The table in storage after a store is made. -/
def CredJob.stored (j : CredJob) (nv : Nonvolatile) : Nonvolatile :=
  match j with
  | .stage p => { nv with pendingSlot := some { p with stored := true } }
  | .promote p =>
    { nv with slots := setSlot nv.slots p.target ⟨p.contents, p.stamp⟩, liveStamp := p.stamp, pendingSlot := none }
  | .discard | .pendingBack => { nv with pendingSlot := none }
  | .destroy => { nv with slots := Vector.replicate 4 {}, liveStamp := 0, pendingSlot := none }
  | .slotBack i => { nv with slots := setSlot nv.slots i {} }
  | .headerBack v => { nv with liveStamp := v }

/-- The table in force after a destruction: empty, live stamp 0, no pending change, and what a round held is
dropped (R98). -/
def Credentials.destroyed (c : Credentials) : Credentials :=
  { c with
    slots := Vector.replicate 4 {}, liveStamp := 0, pendingSlot := none, roundEntry := none, roundChange := none }

/-- What a store that was made changes in force: a staged change gets its stored mark (R93), a destruction
empties the table (R98). The store of a promotion or discard leaves a change staged since in force (log 54). -/
def CredJob.inForce (j : CredJob) (c : Credentials) : Credentials :=
  match j with
  | .stage p => { c with pendingSlot := some { p with stored := true } }
  | .destroy => c.destroyed
  | _ => c

/-- The table store in progress was made. -/
def State.credMade (s : State) : State :=
  match s.cred.busy with
  | none => s
  | some j => ({ s with nv := j.stored s.nv, cred := j.inForce s.cred }).nextCred

/-- The table store in progress failed: STORE_FAIL is set. A staging is lost and not retried (R93); a promotion,
a destruction and a store-back are repeated (R95, R98, R166), at once (log 18), a promotion not once a destruction
waits (R80); a discard is not (log 19). -/
def State.credFailed (s : State) : State :=
  match s.cred.busy with
  | none => s
  | some j =>
    let s := s.setFlag .storeFail
    match j with
    | .stage _ => ({ s with cred := { s.cred with pendingSlot := none } }).nextCred
    | .discard => s.nextCred
    | .destroy => if s.mayStore then s else s.nextCred
    | _ => if s.mayStore && s.cred.waiting.head? != some .destroy then s else s.nextCred

/-! ## Promotion and discard -/

/-- The promoted table comes into force and its store is asked for (R95). -/
def State.promote (s : State) (p : PendingChange) : State :=
  ({ s with cred := { s.cred with
      slots := setSlot s.cred.slots p.target ⟨p.contents, p.stamp⟩
      liveStamp := p.stamp
      pendingSlot := none } }).askCred (.promote p)

/-- The pending change is emptied in one store (R96). -/
def State.discardPending (s : State) : State :=
  ({ s with cred := { s.cred with pendingSlot := none } }).askCred .discard

end Sys2Proof.Machine
end

