-- ==== Sys2Proof/Machine/WipeEngine.lean ====
section
/-! DEFINITION. The wipe engine's operations: the journal store, orders, the pass, DONE and the return to
BLANK (09); the gate's fixed-mark and pending-mark stores, which it shares (08). -/

namespace Sys2Proof.Machine

/-! ## Fixed marks and their stores -/

/-- A new mark set is put in force and stored; a promotion's store also empties the pending mark, and keeps doing
so when a later set replaces it while it waits (R129, R141). -/
def State.putMarks (s : State) (marks : Vector FixedMark 64) (empties : Bool) : State :=
  let carried := match s.gate.markStore.waiting with
    | some w => w.emptiesPending
    | none => false
  { s with gate := { s.gate with
      fixedMarks := marks
      markStore :=
        if s.mayStore then s.gate.markStore.put ⟨marks, empties || carried⟩ else s.gate.markStore } }

/-- The fixed-mark store in progress was made (R129, R141). A promotion's store empties the stored pending record, also
one that a later SETMARK round has staged meanwhile (log 46). -/
def State.marksMade (s : State) : State :=
  match s.gate.markStore.busy with
  | none => s
  | some w =>
    { s with
      nv := { s.nv with
        fixedMarks := w.marks
        pendingMark := if w.emptiesPending then none else s.nv.pendingMark }
      gate := { s.gate with markStore := s.gate.markStore.made s.mayStore } }

/-- The fixed-mark store in progress failed: STORE_FAIL, and a store of the marks in force begins (R129, R141). -/
def State.marksFailed (s : State) : State :=
  match s.gate.markStore.busy with
  | none => s
  | some w =>
    let carried := match s.gate.markStore.waiting with
      | some x => x.emptiesPending
      | none => false
    let st := s.gate.markStore.failed ⟨s.gate.fixedMarks, w.emptiesPending || carried⟩ s.mayStore true
    ({ s with gate := { s.gate with markStore := st } }).setFlag .storeFail

/-- A pending-mark store begins; a staging clears the stored mark as it begins (R139). -/
def State.beginPm (s : State) (j : PendingMarkJob) : State :=
  let s := { s with gate := { s.gate with pmBusy := some j } }
  match j with
  | .stage p _ =>
    let begun := some { p with stored := false }
    { s with gate := { s.gate with pendingMark := begun }, nv := { s.nv with pendingMark := begun } }
  | .empty => s

/-- A pending-mark store is asked for: it begins, or waits for the one in progress. -/
def State.askPm (s : State) (j : PendingMarkJob) : State :=
  if !s.mayStore then s
  else
    match s.gate.pmBusy with
    | none => s.beginPm j
    | some _ => { s with gate := { s.gate with pmWaiting := s.gate.pmWaiting ++ [j] } }

/-- The next waiting pending-mark store begins. -/
def State.nextPm (s : State) : State :=
  let s := { s with gate := { s.gate with pmBusy := none } }
  match s.gate.pmWaiting with
  | [] => s
  | j :: js =>
    if s.mayStore then ({ s with gate := { s.gate with pmWaiting := js } }).beginPm j
    else { s with gate := { s.gate with pmWaiting := [] } }

/-- The pending-mark store in progress was made: a staging sets the stored mark, or is emptied when its round
has discarded it (R140, R141). A discarded staging made late while a later round's staging waits gets no emptying store:
the waiting one begins in the same event and writes over the record (log 46). -/
def State.pmMade (s : State) : State :=
  match s.gate.pmBusy with
  | none => s
  | some (.stage p dropped) =>
    let kept := some { p with stored := true }
    let s := { s with nv := { s.nv with pendingMark := kept } }
    if dropped && s.gate.pmWaiting.isEmpty then
      ({ s with gate := { s.gate with pendingMark := none } }).nextPm.askPm .empty
    else if dropped then ({ s with gate := { s.gate with pendingMark := none } }).nextPm
    else ({ s with gate := { s.gate with pendingMark := kept } }).nextPm
  | some .empty => ({ s with nv := { s.nv with pendingMark := none } }).nextPm

/-- The pending-mark store in progress failed: STORE_FAIL; a staging is lost and not retried (R140); the store
that empties the record is repeated, unless a staging waits to write it (log 19). -/
def State.pmFailed (s : State) : State :=
  match s.gate.pmBusy with
  | none => s
  | some (.stage _ _) =>
    ({ s with gate := { s.gate with pendingMark := none } }).setFlag .storeFail |>.nextPm
  | some .empty =>
    let s := s.setFlag .storeFail
    if s.mayStore && s.gate.pmWaiting.isEmpty then s else s.nextPm

/-- A pending mark whose round takes effect nowhere: emptied by one store, or told to be emptied when its own
store finishes late (R141). -/
def State.discardMark (s : State) : State :=
  let kept := s.gate.pmWaiting.filter (· == .empty)
  match s.gate.pmBusy with
  | some (.stage p _) => { s with gate := { s.gate with pmBusy := some (.stage p true), pmWaiting := kept } }
  | _ =>
    if kept.length < s.gate.pmWaiting.length then { s with gate := { s.gate with pmWaiting := kept } }
    else if s.gate.pendingMark.isSome then
      ({ s with gate := { s.gate with pendingMark := none } }).askPm .empty
    else s

/-! ## The journal store -/

/-- A journal store is asked for: it begins, or is the next to begin after the one in progress or to be repeated
(R143). -/
def State.askJournal (s : State) (j : Journal) : State :=
  if !s.mayStore then s
  else if s.wipe.busy = none ∧ s.wipe.again = none then { s with wipe := { s.wipe with busy := some j } }
  else { s with wipe := { s.wipe with waiting := some j } }

/-- The journal of a fresh order (R144, R148). -/
def orderedJournal (cause : WipeCause) : Journal := { phase := .ordered, cause := cause }

/-- An order is taken: its ORDERED store begins, after a NONE store in progress and in place of one to be repeated
(R144, R148, R156), and the order is pending. -/
def State.takeOrder (s : State) (cause : WipeCause) : State :=
  ({ s with wipe := { s.wipe with orderPending := some cause, again := none } }).askJournal (orderedJournal cause)

/-- A journal store whose repeat waited for its round to end is begun again (R143, R145). -/
def State.repeatJournal (s : State) : State :=
  match s.wipe.again with
  | some j =>
    if s.wipe.busy.isNone && s.mayStore then { s with wipe := { s.wipe with busy := some j, again := none } } else s
  | none => s

/-! ## The pass -/

/-- The first extent from n on that is not PUBLIC, 64 at most (R151). -/
def skipPublic (marks : Vector FixedMark 64) : Nat → Nat → Nat
  | 0, n => n
  | fuel + 1, n =>
    if h : n < 64 then if marks.get ⟨n, h⟩ = .pub then skipPublic marks fuel (n + 1) else n else n

/-- One step of the pass (R151). -/
def State.passStep (s : State) : State :=
  let j := s.wipe.journal
  if j.nextExtent ≥ Config.extents then s.askJournal { j with phase := .done }
  else
    let n := skipPublic s.gate.fixedMarks Config.extents j.nextExtent
    if n = j.nextExtent then
      { s with
        wipe := { s.wipe with erase := .waiting }
        gate := { s.gate with eraseWaiting := some n, yieldCount := 0 } }
    else s.askJournal { j with nextExtent := n, attempts := 0 }

/-- The engine goes on where bus power, WIPING and an idle journal store allow it: KEY_GONE begins the pass, PASSING
takes its step (R150, R151, R153). -/
def State.engineStep (s : State) : State :=
  if s.grd.state = .wiping ∧ s.sup.state = .bus ∧ s.wipe.busy = none ∧ s.wipe.again = none then
    match s.wipe.journal.phase with
    | .keyGone => s.askJournal { s.wipe.journal with phase := .passing }
    | .passing => if s.wipe.erase = .absent then s.passStep else s
    | _ => s
  else s

/-- FROZEN marks released to NORMAL (R154). -/
def releaseFrozen (marks : Vector FixedMark 64) : Vector FixedMark 64 :=
  mapEntries (fun m => if m = .frozen then .normal else m) marks

/-- With DONE in force: FROZEN marks are released, PROGRESS is posted, its timer started (R154). -/
def State.reachDone (s : State) : State :=
  let marks := releaseFrozen s.gate.fixedMarks
  let s := if marks = s.gate.fixedMarks then s else s.putMarks marks false
  let s := s.post .progress 0
  { s with wipe := { s.wipe with progressTimer := some (s.now + Config.progressRetry) } }

/-- ORDERED comes into force: the guard controller enters WIPING, but for STARTING and STRAP_FAULT (R16, R145), and the
table's destruction is asked for (R149). -/
def State.orderInForce (s : State) : State :=
  let s := { s with wipe := { s.wipe with orderPending := none } }
  let s := if s.grd.state = .starting ∨ s.grd.state = .wiping then s else s.enterWiping
  s.askDestruction

/-- The journal store in progress was made: its record comes into force, the next store begins, and the engine takes
its next step (R143, R145, R149, R150, R151, R154). In STRAP_FAULT it takes none (R2), and order pending stays as it
stands (log 57). -/
def State.journalMade (s : State) : State :=
  match s.wipe.busy with
  | none => s
  | some j =>
    let before := s.wipe.journal.phase
    let s := { s with
      nv := { s.nv with journal := j }
      wipe := { s.wipe with
        journal := j, waiting := none, busy := if s.mayStore then s.wipe.waiting else none } }
    if !s.mayStore then s
    else
      match j.phase with
      | .ordered => if before = .ordered then s else s.orderInForce
      | .done => if before = .done then s else s.reachDone
      | .none => s
      | .keyGone | .passing => s.engineStep

/-- The journal store in progress failed: STORE_FAIL, and the same store is begun again, at once or after the round
(R143, R145; log 18), before one that waits; a NONE store that an order supersedes is dropped (R156). -/
def State.journalFailed (s : State) (now : Bool) : State :=
  match s.wipe.busy with
  | none => s
  | some j =>
    let s := s.setFlag .storeFail
    if !s.mayStore then { s with wipe := { s.wipe with busy := none, waiting := none } }
    else
      match s.wipe.waiting, j.phase with
      | some w, .none => { s with wipe := { s.wipe with busy := some w, waiting := none } }
      | _, _ => if now then s else { s with wipe := { s.wipe with busy := none, again := some j } }

/-- The table store in progress was made; a destruction is reported to the wipe engine, which begins the KEY_GONE
store (R149). -/
def State.credEndMade (s : State) : State :=
  let destroyed := s.cred.busy == some .destroy
  let s := s.credMade
  if destroyed && s.wipe.journal.phase == .ordered && s.mayStore then
    s.askJournal { s.wipe.journal with phase := .keyGone }
  else s

/-- An erase completion with an erase ISSUED (R152). The third failure sets ERASE_BAD at the completion, before the store
that lists the extent is made (log 55). -/
def State.eraseEnded (s : State) (success : Bool) : State :=
  let j := s.wipe.journal
  let s := { s with wipe := { s.wipe with erase := .absent } }
  if success then s.askJournal { j with nextExtent := j.nextExtent + 1, attempts := 0 }
  else if j.attempts < 2 then s.askJournal { j with attempts := j.attempts + 1 }
  else
    (s.askJournal { j with bad := j.bad ++ [j.nextExtent], nextExtent := j.nextExtent + 1, attempts := 0 }).setFlag
      .eraseBad

/-- The erase is abandoned at a bus-power fall (R153, R136). -/
def State.abandonErase (s : State) : State :=
  ({ s with wipe := { s.wipe with erase := .absent } }).dropErase

/-- The wipe is over: NONE is in force at once and stored afterwards, the tally and the hold are cleared, WIPING goes
to BLANK; a non-zero BAD_HI sets ERASE_BAD (R156, R105). -/
def State.returnToBlank (s : State) (badHi : Nat) : State :=
  let j := { s.wipe.journal with phase := .none }
  let s := ({ s with wipe := { s.wipe with journal := j, progressTimer := none } }).askJournal j
  let s := if badHi > 0 then s.setFlag .eraseBad else s
  let s := (s.setTally 0).clearHold
  if s.grd.state = .wiping then s.setGuard .blank else s

/-- The end of STARTING (R3, R110, R123, R148, R150, R154). adopted: an order was adopted in the ROLL that ends it and
is pending. -/
def State.endStarting (s : State) (adopted : Bool) : State :=
  if s.wipe.journal.phase ≠ .none ∨ adopted then
    let s := (s.note .startingEnded).enterWiping.engineStep
    if s.wipe.journal.phase = .done then s.reachDone else s
  else
    let s :=
      if s.tal.holdOwed ≠ 0 then
        { s with tal := { s.tal with deadline := some (s.now + 1000 * s.tal.holdOwed) } }
      else s
    let s := s.note .startingEnded
    s.setGuard
      (if tableEmpty s.cred.slots then .blank else if s.deadlineAhead then .held else .locked)

end Sys2Proof.Machine
end

