-- ==== Sys2Proof/Machine/KeypadOps.lean ====
section
/-! DEFINITION. The keypad sampler's rules: digits, submits, chords, commands, new codes, and which presses are
taken, discarded or set aside (04). -/

namespace Sys2Proof.Machine

/-! ## Entries -/

/-- A digit appended to the entry buffer, or OVERLONG marked, with the entry timer restarted (R67, R75). -/
def State.appendDigit (s : State) (d : Digit) : State :=
  let full := s.key.buffer.length ≥ Config.bufferMax
  { s with key := { s.key with
      buffer := if full then s.key.buffer else s.key.buffer ++ [d]
      overlong := s.key.overlong || full
      entryTimer := some (s.now + Config.entryIdle) } }

/-- The sampler returns to IDLE. -/
def State.keypadIdle (s : State) : State := { s with key := s.key.toIdle }

/-- A refusal: a 1 s PULSE, and back to IDLE (R68, R72, R73, R75). -/
def State.keypadRefuse (s : State) : State := s.keypadIdle.pulse 1

/-- A submit (R68): in LOCKED a valid entry draws a nonce, posts CHECK and becomes the held entry; anything else is
refused. -/
def State.submit (s : State) : State :=
  let entry := s.key.buffer
  if s.grd.state = .locked ∧ Config.codeMin ≤ entry.length ∧ s.key.overlong = false then
    let nonce := Config.freeNonce s.draws
    let s := ({ s with draws := s.draws + 1 }).keypadIdle
    let s := { s with key := { s.key with heldEntry := some ⟨entry, nonce, s.now + Config.entryIdle⟩ } }
    s.post .check nonce
  else s.keypadRefuse

/-! ## New codes and slot clearing -/

/-- Entry to NEW_FIRST (R75). -/
def State.newCode (s : State) (target : CodeSlotNo) (role : Role) : State :=
  let s := s.keypadIdle
  { s with key := { s.key with
      mode := .newFirst, target := some (target, role), entryTimer := some (s.now + Config.entryIdle) } }

/-- A confirmed change becomes the held change, and SETCODE is posted (R76). -/
def State.holdChange (s : State) (target : CodeSlotNo) (role : Role) (code : List Digit) : State :=
  let stamp := s.cred.liveStamp + 1
  let s := { s with key := { s.key with
      heldChange := some ⟨target, role, stamp, code, s.now + Config.entryIdle⟩ } }
  s.post .setcode (setcodeArg target role stamp)

/-- The new code equals the code of a non-empty slot other than the target (R76). -/
def duplicates (s : State) (target : CodeSlotNo) (code : List Digit) : Bool :=
  slotNumbers.any fun i => i != target && matchesSlot code (s.cred.slots.get i).contents

/-- Plain UNLOCK in NEW_FIRST (R75). -/
def State.firstCodeEntered (s : State) : State :=
  { s with key := { s.key with
      firstCode := some ⟨s.key.buffer, s.key.overlong⟩, buffer := [], overlong := false
      mode := .newSecond, entryTimer := some (s.now + Config.entryIdle) } }

/-- Plain UNLOCK in NEW_SECOND: the table of R75. -/
def State.secondCodeEntered (s : State) : State :=
  let code := s.key.buffer
  match s.key.firstCode, s.key.target with
  | some first, some (target, role) =>
    if code ≠ first.digits ∨ s.key.overlong ∨ first.overlong ∨ code.length < Config.codeMin
        ∨ Config.bufferMax < code.length then
      s.keypadRefuse
    else if duplicates s target code then s.keypadRefuse
    else if s.cred.liveStamp = 65535 then s.keypadRefuse
    else s.keypadIdle.holdChange target role code
  | _, _ => s.keypadRefuse

/-- The role a slot has now (R71). -/
def State.roleOf (s : State) (i : CodeSlotNo) : Role := slotRole (s.cred.slots.get i).contents

/-- A command chord awaiting digits: the entry timer runs, or for SHIFT+9 the wipe window (R71, R72, R73). -/
def State.openCommand (s : State) (mode : KeypadMode) (chord : Digit) : State :=
  let s := s.keypadIdle
  { s with key := { s.key with
      mode := mode, command := some ⟨chord, []⟩
      entryTimer := if chord = 9 then none else some (s.now + Config.entryIdle)
      wipeWindow := if chord = 9 then some (s.now + Config.wipeWindow) else none } }

/-- A plain digit in COMMAND (R72). -/
def State.commandDigit (s : State) (d : Digit) : State :=
  match s.key.command with
  | none => s.keypadRefuse
  | some c =>
    let target : Option CodeSlotNo := if d = 1 then some 1 else if d = 2 then some 2 else if d = 3 then some 3 else none
    if c.chord = 3 then
      match target with
      | some t =>
        if s.roleOf t = .empty ∨ s.cred.liveStamp = 65535 then s.keypadRefuse
        else s.keypadIdle.holdChange t .empty []
      | none => s.keypadRefuse
    else if c.chord = 5 then
      match target with
      | some t => if t = 3 then s.keypadRefuse else s.newCode t .user
      | none => s.keypadRefuse
    else s.keypadRefuse

/-- A plain digit in MARK_ENTRY: kept up to the fourth, the timer restarted (R73). -/
def State.markDigit (s : State) (d : Digit) : State :=
  { s with key := { s.key with
      command := s.key.command.map fun c =>
        { c with digits := if c.digits.length < 4 then c.digits ++ [d] else c.digits }
      entryTimer := some (s.now + Config.entryIdle) } }

/-- The extent and mark code that three digits spell, if they are in range (R73). -/
def markOperands (digits : List Digit) : Option (Nat × Nat) :=
  match digits with
  | [a, b, c] =>
    if 10 * a.val + b.val < 64 ∧ c.val ≤ 2 then some (10 * a.val + b.val, c.val) else none
  | _ => none

/-- Plain UNLOCK in MARK_ENTRY (R73). -/
def State.markEntered (s : State) : State :=
  match s.key.command.bind (fun c => markOperands c.digits) with
  | some (extent, mark) =>
    if s.gate.markLockOpen then s.keypadIdle.post .setmark (setmarkFixed extent mark) else s.keypadRefuse
  | none => s.keypadRefuse

/-! ## Chords -/

/-- SHIFT+0: the local lock, and LOCK with cause KEYPAD (R11, R71). -/
def State.keypadLock (s : State) : State := s.lockLocally.post .lock lockKeypad

/-- SHIFT+2: SETMARK SESSION ALL with the read-only state toggled (R74). -/
def State.sessionToggle (s : State) : State :=
  let anyReadOnly := s.gate.session.toList.any (· == .readOnly)
  s.post .setmark (setmarkSessionAll (if anyReadOnly then .writable else .readOnly))

/-- SHIFT+4: the mark lock toggled, in ADMIN only (R74, R130). -/
def State.toggleMarkLock (s : State) : State :=
  if s.grd.state = .admin then { s with gate := { s.gate with markLockOpen := !s.gate.markLockOpen } } else s

/-- A chord SHIFT+digit in IDLE in OPEN or ADMIN (R71). -/
def State.chordInIdle (s : State) (d : Digit) : State :=
  if d = 0 then s.keypadLock
  else if d = 1 then
    match s.grd.matched with
    | some m => s.newCode m (s.roleOf m)
    | none => s
  else if s.grd.mustChange ∧ s.grd.state = .opened then s
  else if d = 2 then s.sessionToggle
  else if s.grd.state ≠ .admin then s
  else if d = 3 then s.openCommand .command 3
  else if d = 4 then s.toggleMarkLock
  else if d = 5 then s.openCommand .command 5
  else if d = 6 then s.openCommand .markEntry 6
  else if d = 7 then s.newCode 3 .duress
  else if d = 8 then s.armAll
  else s.openCommand .command 9

/-- A chord SHIFT+digit (R71, R72). -/
def State.takeChord (s : State) (d : Digit) : State :=
  if s.grd.state = .opened ∨ s.grd.state = .admin then
    match s.key.mode with
    | .idle => s.chordInIdle d
    | .newFirst | .newSecond => if d = 0 then s.keypadLock else s
    | .command =>
      if d = 0 then s.keypadLock
      else if d = 9 ∧ s.key.command.map (·.chord) = some 9 then s.keypadIdle.post .wipe wipeAdmin
      else s.keypadRefuse
    | .markEntry => if d = 0 then s.keypadLock else s.keypadRefuse
    | .collecting | .resetHold => s
  else s

/-- The chord SHIFT+UNLOCK: the reset chord, first setup, or a chord that refuses a pending command (R70, R71). -/
def State.takeChordUnlock (s : State) : State :=
  match s.grd.state, s.key.mode with
  | .locked, .idle | .locked, .collecting | .held, .idle | .held, .collecting =>
    let s := s.keypadIdle
    { s with key := { s.key with mode := .resetHold, resetTimer := some (s.now + Config.resetHold) } }
  | .blank, .idle => s.newCode 0 .admin
  | _, .command | _, .markEntry => s.keypadRefuse
  | _, _ => s

/-- A plain digit (R67, R72, R73, R75). -/
def State.takeDigit (s : State) (d : Digit) : State :=
  match s.key.mode with
  | .idle | .collecting =>
    if s.grd.state = .locked ∨ s.grd.state = .held then
      let s := s.appendDigit d
      { s with key := { s.key with mode := .collecting } }
    else s
  | .newFirst | .newSecond => s.appendDigit d
  | .command => s.commandDigit d
  | .markEntry => s.markDigit d
  | .resetHold => s

/-- Plain UNLOCK (R68, R72, R73, R75). -/
def State.takeUnlock (s : State) : State :=
  match s.key.mode with
  | .idle | .collecting => if s.grd.state = .locked ∨ s.grd.state = .held then s.submit else s
  | .newFirst => s.firstCodeEntered
  | .newSecond => s.secondCodeEntered
  | .command => s.keypadRefuse
  | .markEntry => s.markEntered
  | .resetHold => s

/-- A digit pressed with SHIFT still held since the chord that opened COMMAND or MARK_ENTRY is the digit that follows
that chord (R65); with a pending SHIFT+9, which waits for the chord SHIFT+9, it is a chord (R72; log 49). -/
def Keypad.digitFollows (k : Keypad) : Bool :=
  (k.mode == .command || k.mode == .markEntry) && !k.shiftFreed && k.command.any (·.chord != 9)

/-- The guard states in which presses are taken (R66). -/
def GuardState.takesKeys : GuardState → Bool
  | .blank | .locked | .held | .opened | .admin => true
  | _ => false

/-- A press taken by the rules for the guard state and the mode (R65, R66). -/
def State.takePress (s : State) (k : Key) : State :=
  if s.grd.state.takesKeys then
    match classify k s.key.states with
    | .modifier | .ignored => s
    | .digit d => s.takeDigit d
    | .chord d => if s.key.digitFollows then s.takeDigit d else s.takeChord d
    | .chordUnlock => s.takeChordUnlock
    | .unlock => s.takeUnlock
  else s

/-- A CHECK or SETCODE round. -/
def RoundRec.keypadKind (r : RoundRec) : Bool := r.kind == some .check || r.kind == some .setcode

/-- A press recognized between the end of ARG and the end of ANSWER of a CHECK or SETCODE round (R66). -/
def setsAside (s : State) : Bool :=
  match s.eng.round, s.line.pos with
  | some r, .atMark .openers | some r, .inField .openers _ | some r, .atMark .answer
  | some r, .inField .answer _ => r.keypadKind
  | _, _ => false

/-- A press recognized while this station has a CHECK or SETCODE round in flight (R40, R66). -/
def discardsPress (s : State) : Bool :=
  match s.eng.round with
  | some r => r.keypadKind && r.answered
  | none => false

/-- A recognized press: set aside, discarded or taken (R66). It is set aside in every guard state, in CLOSING, STARTING and
WIPING too, where R66 discards presses: the guard state at the end of ANSWER says whether it is taken (log 24). -/
def State.press (s : State) (k : Key) : State :=
  if setsAside s then { s with key := { s.key with setAside := s.key.setAside ++ [k] } }
  else if discardsPress s then s
  else s.takePress k

/-- The presses set aside are taken in their order, as if recognized now: each is classified by the keys that are DOWN
now, the other presses' keys among them (R65, R66; log 24). -/
def State.takeSetAside (s : State) : State :=
  s.key.setAside.foldl State.takePress { s with key := { s.key with setAside := [] } }

/-- The presses set aside are discarded (R66). -/
def State.dropSetAside (s : State) : State := { s with key := { s.key with setAside := [] } }

end Sys2Proof.Machine
end

