-- ==== Sys2Proof/WellFormed.lean ====
section
/-! DEFINITION. Which commands can reach a station at all: checks on the operands alone. -/

namespace Sys2Proof

/-- The kinds whose requests are re-queued with a not-before time (R50). -/
def RoundKind.retryable : RoundKind → Bool
  | .lock | .wipe | .roll | .progress => true
  | _ => false

/-- A command's operands are ones the spec gives it: a power-on has a supply that appears (R160), and a
not-before time belongs to a kind that is retried (R50). -/
def Instr.wf : Instr → Bool
  | .powerOn _ _ busSense pfw batSense => (busSense && !pfw) || batSense
  | .retryDue kind => kind.retryable
  | _ => true

end Sys2Proof
end

