-- ==== Sys2Proof/Machine/Rounds.lean ====
section
/-! DEFINITION. The line interface and the round engine: opening and following a round, offers, what a field's end
and a hold field do, rejection (02, 03), and the stores made in hold fields. -/

namespace Sys2Proof.Machine

/-! ## Stores that a hold field can hold -/

/-- The tally store in progress was made (R101). -/
def State.tallyMade (s : State) : State :=
  match s.tal.tallyStore.busy with
  | none => s
  | some v =>
    { s with
      nv := { s.nv with tally := v }
      tal := { s.tal with tallyStore := s.tal.tallyStore.made s.mayStore } }

/-- The tally store in progress failed: STORE_FAIL, and it is repeated with the tally in force, at once or after the
hold field (R101). -/
def State.tallyFailed (s : State) (now : Bool) : State :=
  match s.tal.tallyStore.busy with
  | none => s
  | some _ =>
    ({ s with tal := { s.tal with
        tallyStore := s.tal.tallyStore.failed s.tal.tally s.mayStore now } }).setFlag .storeFail

/-- The tally and hold-owed stores whose repeat waited for a hold field to end are begun again (R101, R108). -/
def State.repeatTallyAndOwed (s : State) : State :=
  if s.mayStore then
    { s with tal := { s.tal with
        tallyStore := s.tal.tallyStore.repeatNow s.tal.tally
        owedStore := s.tal.owedStore.repeatNow s.tal.holdOwed } }
  else s

/-- The station is inside a hold field. -/
def State.inHold (s : State) : Bool :=
  match s.line.pos with
  | .inField .hold _ => true
  | _ => false

/-- A pending-mark store is a staging. -/
def PendingMarkJob.isStage : PendingMarkJob → Bool
  | .stage _ _ => true
  | .empty => false

/-- The store for which this station holds the line in a round of a kind is the one in progress; behind another it
still waits, and a waiting staging that a destruction dropped is none (R80, R102; log 52). -/
def ownStoreRuns (s : State) : RoundKind → Option HoldOwner
  | .check => if s.tal.tallyStore.busy.isSome && s.tal.tallyStore.waiting.isNone then some .tally else none
  | .setcode =>
    if s.cred.busy.any CredJob.isStage && !s.cred.waiting.any CredJob.isStage && !s.cred.stagingDropped then
      some .credential
    else none
  | .setmark =>
    if (s.gate.pmBusy.any PendingMarkJob.isStage) && !(s.gate.pmWaiting.any PendingMarkJob.isStage) then
      some .pendingMark
    else none
  | .wipe =>
    if s.wipe.orderPending.isSome && s.wipe.busy.any (·.phase == .ordered) then some .journal else none
  | _ => none

/-- The store in progress for which this station is holding the line (R30). -/
def heldStore (s : State) : Option HoldOwner :=
  if s.inHold && s.line.ownDrive then (s.eng.round.bind (·.kind)).bind (ownStoreRuns s) else none

/-! ## The line interface's views -/

/-- The line after a round's end or an idle pattern (R25, R33): its timers go on. -/
def LineIf.toGap (l : LineIf) : LineIf :=
  { view := .gap, idleTimer := l.idleTimer, stuckTimer := l.stuckTimer }

/-- The line of a station that watches from the start (R24). No command tells the line's level as SYNCING begins, at
LOADING_END as at warm-up's end: the model takes it as recessive, so that the idle timer starts at once (DESIGN CHOICE,
log 62). LATE_ROUND_SEEN stops it. -/
def LineIf.toSyncing (now : Nat) : LineIf := { view := .syncing, idleTimer := some (now + Config.idleGap) }

/-- The line of a station that has rejected a round (R36): its timers go on. -/
def LineIf.toRejecting (l : LineIf) : LineIf :=
  { view := .rejecting, idleTimer := l.idleTimer, stuckTimer := l.stuckTimer, tail := true }

/-! ## The line's timers (log 50) -/

/-- The line is dominant: the idle timer is stopped, and the line-stuck timer starts if it does not run (R23, R35). -/
def LineIf.turnDominant (l : LineIf) (now : Nat) : LineIf :=
  { l with idleTimer := none, stuckTimer := some (l.stuckTimer.getD (now + Config.lineStuckTime)) }

/-- The line is recessive: the line-stuck timer is stopped, and the idle timer starts if it does not run (R23, R35). -/
def LineIf.turnRecessive (l : LineIf) (now : Nat) : LineIf :=
  { l with stuckTimer := none, idleTimer := some (l.idleTimer.getD (now + Config.idleGap)) }

/-- The timers at a field's end, by what stood on the line in it. -/
def LineIf.sensed (l : LineIf) (f : Field) (line : LineBits) (now : Nat) : LineIf :=
  if dominantThroughout f line then l.turnDominant now
  else if endsDominant f line then { l with idleTimer := none, stuckTimer := some (now + Config.lineStuckTime) }
  else l.turnRecessive now

/-- No header of this station is on the line: in flight is cleared everywhere (R48). -/
def State.unsend (s : State) : State :=
  { s with
    line := { s.line with header := none, ownDrive := false }
    eng := { s.eng with queue := s.eng.queue.map Request.unsent } }

/-! ## Opening and starting a round -/

/-- The eligible request of lowest kind (R48): the queue stands in rising order of kind. -/
def offeredRequest (s : State) : Option Request := s.eng.queue.find? (·.eligible s.now)

/-- A header may be handed to the line interface: IDLE, tracking, and none handed over yet (R23, R48). -/
def State.mayOpen (s : State) : Bool := s.tracking && s.line.view == .idle && s.line.header.isNone

/-- The lowest eligible request is offered: its header is handed to the line interface and the request is in flight (R23,
R48). The drive stays released and the line's timers run on: the view is not ROUND, where alone a station drives (R22), and
START is on the line at ROUND_START (log 14). -/
def State.offerRound (s : State) : State :=
  if s.mayOpen then
    match offeredRequest s with
    | none => s
    | some r =>
      { s with
        line := { s.line with header := some (r.kind, r.arg) }
        eng := { s.eng with queue := queueModify r.kind (fun x => { x with inFlight := true }) s.eng.queue } }
  else s

/-- START (R23, R40, R161). A station to which a header was handed over has its own START on the line: it is a contender
and drives KIND. Another is a listener, and a request of its that was not sent waits (R48). START is a dominant edge, own
or a peer's: the idle timer stops and the line-stuck timer starts there (R23, R35). -/
def State.startRound (s : State) : State :=
  let s := s.activityEvent
  let own := s.line.header
  let sent := own.isSome
  { s with
    line := {
      view := .round
      role := if sent then .contender else .listener
      pos := .inField .kind 0
      stuckTimer := some (s.now + Config.lineStuckTime)
      offer := match own with
        | some (k, _) => .bits (asBits (kindCode k))
        | none => .nothing
      header := own }
    eng := { s.eng with
      round := some { part := if sent then .contender else .listener, sent := own.map (·.1) }
      queue := if sent then s.eng.queue else s.eng.queue.map Request.unsent } }

/-! ## Offers -/

/-- A slot of a data field that has one slot per station: own value in the own slot, recessive elsewhere. -/
def slotOffer (width slot : Nat) (v : LineBits) : LineBits :=
  (BitVec.allOnes 256) &&& ~~~(asBits (2 ^ width - 1) <<< (width * (7 - slot))) ||| (v <<< (width * (7 - slot)))

/-- The part of a reading that lies in a station's slot. -/
def slotRead (width slot : Nat) (read : LineBits) : LineBits :=
  (read >>> (width * (7 - slot))) &&& asBits (2 ^ width - 1)

/-- The slot is driven, when it is. -/
def driveSlot (drives : Bool) : Offer := if drives then .slot else .nothing

/-- The merged-high offer of a value, when there is one (R29). -/
def offerHigh (f : Field) (offers : Bool) (v : Nat) : Offer :=
  if offers then .bits (complementOf f v) else .nothing

/-- A station takes the verdict (R87). -/
def takesVerdict (s : State) (r : RoundRec) : Bool :=
  r.agreed && r.answer == rosterSet s.sup.roster && r.mapOf .stored == r.answer
    && !s.stat.flags.has .rollShort

/-- The verdict offered: the lowest slot the round entry matches, 7 for none (R87). -/
def verdictOf (s : State) : Nat :=
  match s.cred.roundEntry.bind (lowestMatch s.cred.slots) with
  | some i => i.val
  | none => 7

/-- AGREE is driven (R84, R91). -/
def drivesAgree (s : State) (r : RoundRec) : Bool :=
  r.equalIn .fingerprint &&
    match r.kind with
    | some .check => s.grd.state == .locked
    | some .setcode => s.cred.roundChange.any (changeAcceptable s)
    | _ => false

/-- The fingerprint offered (R84, R91). -/
def fingerprintOffer (s : State) (r : RoundRec) : Offer :=
  match r.kind with
  | some .check => match s.cred.roundEntry with
    | some e => .bits ((entryFingerprint e r.arg).setWidth 256)
    | none => .nothing
  | some .setcode => match s.cred.roundChange with
    | some c => .bits ((changeFingerprint c r.arg).setWidth 256)
    | none => .nothing
  | _ => .nothing

/-- What TALLY_HI carries: the tally in ROLL (R53), the tally raised by one in CHECK once AGREE equals ANSWER (R86). -/
def tallyOffer (s : State) (r : RoundRec) : Offer :=
  match r.kind with
  | some .roll => offerHigh .tallyHi true s.tal.tally
  | some .check => offerHigh .tallyHi r.agreed (min Config.tallyMax (s.tal.tally + 1))
  | _ => .nothing

/-- The offer of a station that answered, in a body field (R53, R83, R144, R155, R170, R171). -/
def bodyOffer (s : State) (r : RoundRec) (f : Field) : Offer :=
  let wiped := s.wipe.journal.phase != .none
  match f with
  | .serial => .bits (slotOffer 32 s.sup.stn.toNat (s.eng.serial.setWidth 256))
  | .tallyHi => tallyOffer s r
  | .stampHi => offerHigh .stampHi (!wiped) s.cred.liveStamp.toNat
  | .stampLo => if wiped then .nothing else .bits (s.cred.liveStamp.setWidth 256)
  | .wipeAny => driveSlot wiped
  | .policyLo => .bits (s.pol.table.check.setWidth 256)
  | .policyHi => offerHigh .policyHi true s.pol.table.check.toNat
  | .fingerprint => fingerprintOffer s r
  | .agree => driveSlot (drivesAgree s r)
  | .stored => driveSlot r.made
  | .verdict => if takesVerdict s r then .bits (asBits (verdictOf s)) else .nothing
  | .verdictAgree => driveSlot (r.tookVerdict && r.equalIn .verdict)
  | .done => driveSlot (s.wipe.journal.phase == .done && s.grd.state == .wiping)
  | .badHi => offerHigh .badHi wiped s.wipe.journal.bad.length
  | .summary => .bits (slotOffer 8 s.sup.stn.toNat ((summaryByte s).setWidth 256))
  | .detail => if r.arg.toNat = s.sup.stn.toNat then .bits ((detailReport s).setWidth 256) else .nothing
  | _ => .nothing

/-- What this station drives in a field whose mark has been read (R25, R38, R39). -/
def offerAt (s : State) (r : RoundRec) (f : Field) : Offer :=
  match f with
  | .kind => s.line.offer
  | .arg => if s.line.role = .contender then
      match s.line.header with
      | some (_, a) => .bits (a.setWidth 256)
      | none => .nothing
    else .nothing
  | .openers => driveSlot (s.line.role == .opener)
  | .answer => driveSlot (r.part != .refusing)
  | .accept => driveSlot r.answered
  | f => if r.answered then bodyOffer s r f else .nothing

/-! ## The hold field's mark -/

/-- This station begins a store for the hold field and holds the line (R30). -/
def State.holds (s : State) : State := { s with line := { s.line with ownDrive := true } }

/-- The record of the round in progress changed. -/
def State.mapRound (s : State) (f : RoundRec → RoundRec) : State :=
  { s with eng := { s.eng with round := s.eng.round.map f } }

/-- CHECK (R86, R102): the result becomes the tally in force, and its store is begun whether or not it is a change. -/
def State.holdMarkCheck (s : State) (r : RoundRec) : State :=
  if r.agreed then
    let v := adoptedTally s.tal.tally (r.numberOf .tallyHi)
    let changed := v ≠ s.tal.tally
    let s := ({ s with tal := { s.tal with tally := v, tallyStore := s.tal.tallyStore.put v } }).holds
    if changed then s.note (.tally v) else s
  else s

/-- The new slot contents a station can build: an ADMIN or USER slot needs the bank key (R92, R97; log 42). -/
def stagedContents (c : RoundChange) (key : Option BankKey) : Option SlotContents :=
  match c.role, key with
  | .empty, _ | .duress, _ => some (newContents c 0)
  | _, some k => some (newContents c k)
  | _, none => none

/-- SETCODE (R92, R97): a station that drove AGREE stages; in BLANK it generates a fresh bank key first. The staging is new,
so none of this round's is dropped (log 52). -/
def State.holdMarkSetcode (s : State) (r : RoundRec) : State :=
  match s.cred.roundChange with
  | none => s
  | some c =>
    if r.agreed && r.droveIn s.sup .agree && guardAllows s c && s.wipe.journal.phase == .none then
      let blank := s.grd.state == .blank
      let s :=
        if blank then
          { s with draws := s.draws + 1, cred := { s.cred with genKey := some (Config.freeBankKey s.draws) } }
        else s
      match stagedContents c (if blank then s.cred.genKey else s.cred.plainKey) with
      | none => s
      | some contents =>
        let s := { s with cred := { s.cred with stagingDropped := false } }
        ((s.askCred (.stage ⟨c.target, contents, c.stamp, false⟩)).holds).mapRound
          fun r => { r with staged := true }
    else s

/-- SETMARK (R139): a session change is staged at once and counts as made, a fixed change is stored. -/
def State.holdMarkSetmark (s : State) (r : RoundRec) : State :=
  match markChangeOf r.arg with
  | some (.session extent mark) =>
    if s.grd.state = .opened ∨ s.grd.state = .admin then
      ({ s with gate := { s.gate with staging := some ⟨extent, mark, r.arg⟩ } }).mapRound
        fun r => { r with staged := true, made := true }
    else s
  | some (.fixed extent mark) =>
    if s.grd.state = .admin ∧ s.gate.markLockOpen ∧ s.wipe.journal.phase = .none then
      ((s.askPm (.stage ⟨extent, mark, r.arg, false⟩ false)).holds).mapRound
        fun r => { r with staged := true }
    else s
  | none => s

/-- WIPE (R144, R147). An ORDERED store that must wait behind a NONE store in progress (R156) is a store begun in the
field: its order is pending and the station holds the line from the mark on (log 56). -/
def State.holdMarkWipe (s : State) (r : RoundRec) : State :=
  if s.wipe.journal.phase ≠ .none then s.mapRound fun r => { r with made := true }
  else if s.wipe.orderPending.isSome then s
  else (s.takeOrder (causeOfArg r.arg)).holds

/-- FIT (R173): the staging is complete at the mark. -/
def State.holdMarkFit (s : State) (r : RoundRec) : State :=
  let item := BitVec.ofNat 32 (r.numberOf .item)
  if s.grd.state = .blank ∧ s.pol.table.frozen = false ∧ (fitItemOf r.arg item).isSome then
    ({ s with stat := { s.stat with fit := some (r.arg, item) } }).mapRound
      fun r => { r with staged := true, made := true }
  else s

/-- The hold field's mark at a station that answered (R30). -/
def State.holdMark (s : State) (r : RoundRec) : State :=
  if r.answered then
    match r.kind with
    | some .check => s.holdMarkCheck r
    | some .setcode => s.holdMarkSetcode r
    | some .setmark => s.holdMarkSetmark r
    | some .wipe => s.holdMarkWipe r
    | some .fit => s.holdMarkFit r
    | _ => s
  else s

/-! ## Field marks -/

/-- What owners fix at a field's mark beside the offer: the must-change mark (R91), the verdict taken (R87), the carried set
(R169). -/
def State.fixAtMark (s : State) (r : RoundRec) (f : Field) : State :=
  if !r.answered then s
  else
    match f, r.kind with
    | .fingerprint, some .setcode =>
      { s with cred := { s.cred with
          roundChange := s.cred.roundChange.map fun c =>
            { c with mustChange := c.role == .user && s.grd.state == .admin } } }
    | .verdict, _ => s.mapRound fun x => { x with tookVerdict := takesVerdict s r }
    | .detail, _ =>
      if r.arg.toNat = s.sup.stn.toNat then s.mapRound fun x => { x with carried := some s.stat.flags } else s
    | _, _ => s

/-- A field begins at its dominant mark: its offer is fixed from the state at the mark (R25); a hold field starts the
hold timer and its owner's store, and the line-stuck timer does not run in it (R30). -/
def State.enterField (s : State) (r : RoundRec) (f : Field) : State :=
  let s := s.fixAtMark r f
  let hold := f == .hold
  let s := { s with line := { s.line with
      pos := .inField f 0
      offer := offerAt s r f
      ownDrive := false
      idleTimer := none
      stuckTimer := if hold then none else (s.line.turnDominant s.now).stuckTimer
      holdTimer := if hold then some (s.now + Config.holdMax) else none } }
  if hold then s.holdMark r else s

/-- The mark stands: it reads dominant, or this station drives it (R25, R22). -/
def State.markStands (s : State) (level : Level) : Bool :=
  level == .dominant || s.line.role == .opener || s.line.role == .contender

/-! ## Served requests and retries -/

/-- A request is served by the round (R49). CHECK is served at ANSWER. -/
def served (sup : Supply) (r : RoundRec) (x : Request) : Bool :=
  r.kind == some x.kind && r.cls == some .complete &&
    match x.kind with
    | .lock | .wipe | .roll => true
    | .progress => r.droveIn sup .done
    | .setcode | .setmark => x.arg == r.arg
    | _ => false

/-- What the round's end leaves of a request (R49, R50). -/
def endRequest (sup : Supply) (now : Nat) (r : RoundRec) (x : Request) : Option Request :=
  if served sup r x then none
  else if !x.inFlight then some x
  else if x.replaced then some { x with inFlight := false, replaced := false, retries := 0 }
  else if !x.kind.retryable then none
  else if x.retries < Config.maxRetries then
    some { x with inFlight := false, retries := x.retries + 1, notBefore := some (now + Config.roundRetry) }
  else none

/-- A request that ends its tenth retry unserved (R51). -/
def exhausted (sup : Supply) (r : RoundRec) (x : Request) : Bool :=
  !served sup r x && x.inFlight && !x.replaced && x.kind.retryable && x.retries ≥ Config.maxRetries

/-- A request of a kind was removed by R50 in a round this station did not answer. -/
def unanswered (sup : Supply) (r : RoundRec) (q : List Request) (k : RoundKind) : Bool :=
  !r.answered && q.any fun x => x.kind == k && x.inFlight && !x.replaced && !served sup r x

/-- The opening queue at the end of a round (R49, R50, R51), with the held entry or held change that goes with a removed
request (R69, R77). -/
def State.endQueue (s : State) (r : RoundRec) : State :=
  let q := s.eng.queue
  let spent := q.filter (exhausted s.sup r)
  let rest := q.filterMap (endRequest s.sup s.now r)
  let again := spent.any (·.kind == .roll) && s.grd.state == .starting
  let rest := if again then
      queueInsert { kind := .roll, arg := 0, notBefore := some (s.now + Config.roundRetry) } rest
    else rest
  let s := { s with
    eng := { s.eng with queue := rest }
    key := { s.key with
      heldEntry := if unanswered s.sup r q .check then none else s.key.heldEntry
      heldChange := if unanswered s.sup r q .setcode then none else s.key.heldChange } }
  if spent.isEmpty then s else s.setFlag .rollShort

/-! ## Rejection -/

/-- What the owners take from a round rejected at this station (R45, R85, R88, R97, R141, R174). -/
def State.ownersVoid (s : State) (r : RoundRec) : State :=
  match r.kind with
  | some .check =>
    let s :=
      if r.disagreed && r.answered then s.setFlag .splitEntry
      else if r.made && r.holdEnded then s.takeGap
      else s
    { s with cred := { s.cred with roundEntry := none } }
  | some .setcode => { s with cred := { s.cred with genKey := none, roundChange := none } }
  | some .setmark =>
    if r.staged then
      let fixed := r.arg.getLsbD 15
      if fixed then s.discardMark else { s with gate := { s.gate with staging := none } }
    else s
  | some .fit => { s with stat := { s.stat with fit := none } }
  | _ => s

/-- The class of a round that ends, by the first row that matches (R44): a station that refused the observer is ABSENT,
also from a round it rejects afterwards. -/
def classifyRound (sup : Supply) (r : RoundRec) : RoundClass :=
  if r.part ≠ .rejected ∧ !r.answered then .absent
  else if r.part = .rejected then .void
  else if r.accept = rosterSet sup.roster then .complete
  else .partial_

/-- The record of a round rejected at this station, with its class; a REFUSING station stays so (R40, R44). -/
def RoundRec.reject (r : RoundRec) (sup : Supply) : RoundRec :=
  let r := { r with part := if r.part = OwnPart.refusing then .refusing else .rejected }
  { r with cls := some (classifyRound sup r) }

/-- The owners' part in the end of a rejected round: a VOID round's effects, none of an ABSENT one (R45); then a deadline
moved during the round is taken (R5). -/
def State.ownersReject (s : State) (r : RoundRec) : State :=
  (if r.cls = some .void then s.ownersVoid r else s).takeDueDeadline

/-- A round is rejected: the station goes silent, the owners and the queue take the round, stores that waited for its end
begin, and an open station locks (R36, R44, R50, R14; log 23). The lock comes first, and then the set-aside presses are
taken, in the state after it: the manual gives no order (log 24). -/
def State.rejectTo (s : State) (line : LineIf) : State :=
  match s.eng.round with
  | none => s
  | some r =>
    let r := r.reject s.sup
    let s := { s with line := line, eng := { s.eng with round := none } }
    let s := (s.ownersReject r).endQueue r
    s.repeatTallyAndOwed.repeatJournal.lockForLine.takeSetAside

/-- A round is rejected into REJECTING. -/
def State.rejectRound (s : State) : State := s.rejectTo s.line.toRejecting

/-- A round is TRUNCATED, or its opener set is rejected (R34, R42). -/
def State.truncate (s : State) : State := (s.setFlag .badRound).rejectRound

/-- An expected mark reads recessive, and the round is TRUNCATED (R25, R34). -/
def State.markMissing (s : State) : State := ({ s with line := s.line.turnRecessive s.now }).truncate

/-- FIELD_MARK at a station that tracks a round (R25, R34). -/
def State.fieldMarked (s : State) (level : Level) : State :=
  match s.eng.round, s.line.pos with
  | some r, .atMark f => if s.markStands level then s.enterField r f else s.markMissing
  | some _, .inField f bit =>
    if bit + 64 < fieldWidth f then
      if s.markStands level then
        { s with line := { s.line.turnDominant s.now with pos := .inField f (bit + 64) } }
      else s.markMissing
    else s
  | _, _ => s

/-! ## Ends of the frame's fields -/

/-- The next field's mark is awaited. -/
def State.awaitField (s : State) (f : Field) : State :=
  { s with line := { s.line with pos := .atMark f, offer := .nothing, ownDrive := false } }

/-- A contender that lost the header is a listener, and its request waits (R26, R48). -/
def State.loseHeader (s : State) : State :=
  let s := s.unsend
  let s := s.mapRound fun r => { r with part := .listener }
  { s with line := { s.line with role := .listener } }

/-- A contender that does not read back what it drove has lost (R26). -/
def State.judgeContention (s : State) (line : LineBits) : State :=
  if s.line.role = .contender ∧ s.line.offer ≠ .bits line then s.loseHeader else s

/-- The end of KIND (R33). An idle pattern is no round: a store whose repeat waited for its end begins (R143). -/
def State.kindEnded (s : State) (read : LineBits) : State :=
  let line := lineValue s.line.offer (fieldBits .kind read)
  let s := s.judgeContention line
  match judgeKind line.toNat with
  | .stuck => (s.setFlag .lineStuck).rejectRound
  | .badKind => (s.setFlag .badRound).rejectRound
  | .idlePattern =>
    let s := s.unsend
    ({ s with line := s.line.toGap, eng := { s.eng with round := none } }).repeatTallyAndOwed.repeatJournal
  | .valid k => (s.mapRound fun r => { r with kind := some k }).awaitField .arg

/-- The end of ARG: every contender still in is an opener (R26, R40). -/
def State.argEnded (s : State) (read : LineBits) : State :=
  let line := lineValue s.line.offer (fieldBits .arg read)
  let s := s.judgeContention line
  let s := s.mapRound fun r =>
    { r with arg := line.setWidth 16, part := if s.line.role = .contender then .opener else r.part }
  let s := if s.line.role = .contender then
      { s with line := { s.line with role := .opener, header := none } }
    else s
  s.awaitField .openers

/-- A kind only the observer opens (R42). -/
def observerOnly : RoundKind → Bool
  | .status | .clear | .fit => true
  | _ => false

/-- The station accepts a round the observer opened (R43). -/
def acceptsObserver (s : State) : RoundKind → Bool
  | .lock | .status | .clear => true
  | .fit => s.grd.state == .blank && !s.pol.table.frozen
  | _ => false

/-- The end of OPENERS (R42, R43). -/
def State.openersEnded (s : State) (r : RoundRec) (read : LineBits) : State :=
  let set := takenOpeners s.sup (s.line.offer == .slot) (read.setWidth 9)
  let observer := set.getLsbD 8
  let s := s.mapRound fun r => { r with openers := set }
  match r.kind with
  | none => s
  | some k =>
    if set = 0 then s.truncate
    else if !observer && observerOnly k then s.truncate
    else if observer && !acceptsObserver s k then
      ((s.setFlag .obsRefused).mapRound fun r => { r with part := .refusing }).awaitField .answer
    else s.awaitField .answer

/-- The keypad at an ANSWER field of a CHECK round that this station answers (R69, R49). -/
def State.handEntry (s : State) : State :=
  let s := { s with cred := { s.cred with
      roundEntry := some (match s.key.heldEntry with
        | some h => h.digits
        | none => []) } }
  let k : Keypad := { s.key with heldEntry := none }
  let k := if k.mode = .resetHold then { k with buffer := [], overlong := false } else k.toIdle
  ({ s with key := k }).unqueue .check

/-- The keypad at an ANSWER field of a SETCODE round that this station answers (R77, R83). -/
def State.handChange (s : State) (arg : Arg) : State :=
  match s.key.heldChange with
  | some h =>
    if setcodeArg h.target h.role h.stamp = arg then
      { s with
        key := { s.key with heldChange := none }
        cred := { s.cred with roundChange := some ⟨h.target, h.role, h.stamp, h.code, false⟩ } }
    else { s with cred := { s.cred with roundChange := none } }
  | none => { s with cred := { s.cred with roundChange := none } }

/-- The field after f in the round, once the header is known (R38). -/
def RoundRec.nextField (r : RoundRec) (f : Field) : Option Field :=
  r.kind.bind fun k => nextAfter f (fieldsAfterArg k r.arg)

/-- The next field's mark is awaited, where there is a next field. -/
def State.awaitNext (s : State) (r : RoundRec) (f : Field) : State :=
  match r.nextField f with
  | some g => s.awaitField g
  | none => s

/-- The end of ANSWER (R39, R40, R66). -/
def State.answerEnded (s : State) (r : RoundRec) (read : LineBits) : State :=
  let drove := s.line.offer == .slot
  let set := takenMap s.sup drove (read.setWidth 8)
  let s := s.mapRound fun r => { r with answer := set, answered := drove }
  let s := s.awaitNext r .answer
  let s :=
    if drove then
      match r.kind with
      | some .check => s.handEntry
      | some .setcode => s.handChange r.arg
      | _ => s
    else s
  if drove then s.dropSetAside else s.takeSetAside

/-! ## Ends of the body fields -/

/-- The station reads dominant in its own slot where it drove recessive (R56). -/
def serialClash (s : State) (read : LineBits) : Bool :=
  let own := s.eng.serial.setWidth 256
  own &&& ~~~(slotRead 32 s.sup.stn.toNat read) != 0

/-- A body field's result is handed to its owner (R40). -/
def State.bodyEnded (s : State) (r : RoundRec) (f : Field) (read : LineBits) : State :=
  (s.mapRound fun x => { x with results := x.results ++ [fieldResult s.sup s.line.offer f read] }).awaitNext r f

/-- The end of SERIAL (R56): a clash is flagged, which disarms and sets the latch (R125), and the station goes to
STRAP_FAULT. -/
def State.serialEnded (s : State) (r : RoundRec) (read : LineBits) : State :=
  if r.answered && serialClash s read then (s.setFlag .slotClash).faultDisarm.enterStrapFault
  else s.bodyEnded r .serial read

/-- The named driver met a second driver (R32). -/
def metSecondDriver (offer : Offer) (f : Field) (read : LineBits) : Bool :=
  match offer with
  | .bits v => v &&& ~~~(fieldBits f read) != 0
  | _ => false

/-- The end of DETAIL (R32, R169). -/
def State.detailEnded (s : State) (r : RoundRec) (read : LineBits) : State :=
  let s :=
    if metSecondDriver s.line.offer .detail read then
      (s.setFlag .badRound).mapRound fun x => { x with secondDriver := true }
    else s
  s.bodyEnded r .detail read

/-- The line's timers at the end of a field (R23, R35). -/
def State.senseField (s : State) (f : Field) (read : LineBits) : State :=
  { s with line := s.line.sensed f (lineRead s.sup s.line.offer f read) s.now }

/-- A field's result is taken (R40). A station that reads dominant over a recessive bit of its own SUMMARY slot sets no flag
and goes on: R32 names DETAIL's station, the observer and SERIAL's slots, and no rule speaks of SUMMARY's (DESIGN
CHOICE, log 61). -/
def State.takeField (s : State) (r : RoundRec) (f : Field) (read : LineBits) : State :=
  match f with
  | .hold | .accept => s
  | .kind => s.kindEnded read
  | .arg => s.argEnded read
  | .openers => s.openersEnded r read
  | .answer => s.answerEnded r read
  | .serial => s.serialEnded r read
  | .detail => s.detailEnded r read
  | f => s.bodyEnded r f read

/-- FIELD_END at a station that tracks a round (R40). Hold fields and ACCEPT end by commands of their own. -/
def State.fieldEnded (s : State) (read : LineBits) : State :=
  match s.eng.round, s.line.pos with
  | some r, .inField f _ =>
    if f = .hold ∨ f = .accept then s else (s.senseField f read).takeField r f read
  | _, _ => s

/-! ## Hold fields -/

/-- The station releases the line in a hold field (R31). -/
def State.release (s : State) : State := { s with line := { s.line with ownDrive := false } }

/-- The hold field ends: the line reads recessive, every holder has released (R30). -/
def State.holdEnd (s : State) : State :=
  if s.inHold && !s.line.ownDrive then
    let s := s.mapRound fun r => { r with holdEnded := true }
    let s := { s with line := { s.line.turnRecessive s.now with
        pos := .atMark .stored, offer := .nothing, holdTimer := none } }
    s.repeatTallyAndOwed
  else s

/-- HOLD_MAX: the station releases, its store goes on, and the line-stuck timer starts (R31). -/
def State.holdMaxReached (s : State) : State :=
  match s.line.holdTimer with
  | some t =>
    if s.inHold then
      let s := s.reach t
      { s with line := { s.line with
          ownDrive := false, holdTimer := none, stuckTimer := some (s.now + Config.lineStuckTime) } }
    else s
  | none => s

/-- A store that ends is taken by its owner: made. -/
def State.ownerMade (s : State) : HoldOwner → State
  | .tally => s.tallyMade
  | .credential => s.credEndMade
  | .pendingMark => s.pmMade
  | .journal => s.journalMade

/-- A store of a hold field that failed: the tally's is repeated after the field, the journal's after the round, a
staging is lost (R93, R101, R140, R145). -/
def State.ownerFailed (s : State) : HoldOwner → State
  | .tally => s.tallyFailed false
  | .credential => s.credFailed
  | .pendingMark => s.pmFailed
  | .journal => s.journalFailed false

/-- A held store finishes within the field (R31). -/
def State.heldStoreMade (s : State) : State :=
  match heldStore s with
  | some owner => ((s.release).mapRound fun r => { r with made := true }).ownerMade owner
  | none => s

/-- A held store fails (R31). -/
def State.heldStoreFailed (s : State) : State :=
  match heldStore s with
  | some owner => s.release.ownerFailed owner
  | none => s

/-- A store begun in a hold field finishes after it (R31). -/
def State.lateStoreMade (s : State) (owner : HoldOwner) : State :=
  if heldStore s = some owner then s
  else
    match owner with
    | .tally => s.tallyMade
    | .credential => if s.cred.busy.any CredJob.isStage then s.credEndMade else s
    | .pendingMark => if s.gate.pmBusy.any PendingMarkJob.isStage then s.pmMade else s
    | .journal => if s.wipe.busy.any (·.phase == .ordered) then s.journalMade else s

end Sys2Proof.Machine
end

