-- ==== Sys2Proof/Machine/RoundEnds.lean ====
section
/-! DEFINITION. The end of a round: its class, what each owner does with it (03, 05 to 09, 11), the opening queue
and the roster view. -/

namespace Sys2Proof.Machine

/-! ## Class and roster view -/

/-- The owners apply a round of this class (R45). -/
def RoundClass.applies : RoundClass → Bool
  | .complete | .partial_ => true
  | _ => false

/-- The station numbers, as places of the absence counts. -/
def stationNumbers : Vector Nat 8 := ⟨#[0, 1, 2, 3, 4, 5, 6, 7], rfl⟩

/-- One absence count after a recorded round (R54). -/
def countAfter (sup : Supply) (answer : Slots) (counts : Vector Nat 8) (i : Nat) : Nat :=
  let old := counts.toList.getD i 0
  if i ≥ sup.roster ∨ i = sup.stn.toNat then old
  else if answer.getLsbD i then 0
  else min Config.lostRounds (old + 1)

/-- The absence counts after a recorded round (R54). -/
def countsAfter (sup : Supply) (answer : Slots) (counts : Vector Nat 8) : Vector Nat 8 :=
  mapEntries (countAfter sup answer counts) stationNumbers

/-- Some count reaches LOST_ROUNDS from below (R55). -/
def reachesLost (before after : Vector Nat 8) : Bool :=
  (before.toList.zip after.toList).any fun p => p.1 < Config.lostRounds && p.2 == Config.lostRounds

/-- The round is recorded in the roster view (R54, R55). -/
def State.recordRound (s : State) (r : RoundRec) : State :=
  if r.answered && r.cls.any RoundClass.applies then
    let counts := countsAfter s.sup r.answer s.eng.absence
    let reached := reachesLost s.eng.absence counts
    let before := s.peerLost
    let s := { s with eng := { s.eng with absence := counts } }
    let s := if reached then s.setFlag .peerLost else s
    if s.peerLost = before then s else s.note (.peerLost s.peerLost)
  else s

/-! ## ROLL -/

/-- The stamp effects of ROLL (R59): step 1. -/
def State.discardAbove (s : State) (high : Nat) : State :=
  match s.cred.pendingSlot with
  | some p => if p.stored ∧ p.stamp.toNat > high then s.discardPending else s
  | none => s

/-- A change of the matched slot came into force: must-change is cleared (R9, R95). -/
def State.clearMustChange (s : State) (target : CodeSlotNo) : State :=
  if s.grd.matched = some target then { s with grd := { s.grd with mustChange := false } } else s

/-- The stamp effects of ROLL: step 2, promotion as in a SETCODE round; a BLANK station goes to LOCKED (R59, R95, R4;
log 28). -/
def State.promoteAt (s : State) (high low : Nat) : State :=
  match s.cred.pendingSlot with
  | some p =>
    if low < high ∧ s.cred.liveStamp.toNat = low ∧ p.stored ∧ p.stamp.toNat = high then
      let s := (s.promote p).clearMustChange p.target
      if s.grd.state = .blank then s.setGuard .locked else s
    else s
  | none => s

/-- The stamp effects of ROLL: step 3. -/
def State.flagBehind (s : State) (high : Nat) : State :=
  if s.cred.liveStamp.toNat < high then s.setFlag .tableSplit else s

/-- The stamp effects of ROLL, in their order (R59). -/
def State.stampEffects (s : State) (high low : Nat) : State :=
  ((s.discardAbove high).promoteAt high low).flagBehind high

/-- A wipe order is adopted at this ROLL (R58, R148). -/
def adoptsOrder (s : State) (r : RoundRec) : Bool :=
  r.mapOf .wipeAny != 0 && s.wipe.journal.phase == .none && s.wipe.orderPending.isNone

/-- The PARTIAL ROLL count after a ROLL (R62). -/
def rollCountAfter (cls : RoundClass) (count : Nat) : Nat :=
  match cls with
  | .complete => 0
  | .partial_ => min Config.rollLimit (count + 1)
  | _ => count

/-- A PARTIAL ROLL raises the count to ROLL_LIMIT (R62). -/
def reachesRollLimit (cls : RoundClass) (count : Nat) : Bool :=
  cls == .partial_ && count + 1 == Config.rollLimit

/-- The end of a ROLL round (R57 to R62): tally, order, stamps, policy, count, and then the guard controller's end of
STARTING (R61, R3). -/
def State.endRoll (s : State) (r : RoundRec) (cls : RoundClass) : State :=
  let s := s.setTally (adoptedTally s.tal.tally (r.numberOf .tallyHi))
  let adopts := adoptsOrder s r
  let stamps := r.mapOf .wipeAny == 0 && s.wipe.journal.phase == .none
  let s := if adopts then s.takeOrder .adopted else s
  let s := if stamps then s.stampEffects (r.numberOf .stampHi) (r.numberOf .stampLo) else s
  let s := if r.numberOf .policyLo ≠ r.numberOf .policyHi then s.setFlag .policySplit else s
  let limit := reachesRollLimit cls s.eng.rollCount
  let s := { s with eng := { s.eng with rollCount := rollCountAfter cls s.eng.rollCount } }
  let s := if limit then s.setFlag .rollShort else s
  if s.grd.state = .starting ∧ (cls = .complete ∨ limit) then s.endStarting adopts else s

/-! ## CHECK -/

/-- The outcomes of a CHECK round (R88). -/
inductive CheckOutcome where
  | splitEntry | incomplete | verdictSplit | noMatch
  | matched (slot : CodeSlotNo)
  deriving DecidableEq, Repr

/-- A verdict read as an outcome in a COMPLETE round (R88). A verdict of 4 to 6 is offered by nobody and agreed by
nobody (log 47). -/
def verdictOutcome (verdict : Nat) : CheckOutcome :=
  if h : verdict < 4 then .matched ⟨verdict, h⟩ else .noMatch

/-- The outcome at a station that answered and did not reject the round (R88). -/
def checkOutcome (r : RoundRec) (cls : RoundClass) : CheckOutcome :=
  if r.disagreed then .splitEntry
  else if !r.tookVerdict then .incomplete
  else if r.mapOf .verdictAgree ≠ r.answer then .verdictSplit
  else if cls = .partial_ then .incomplete
  else verdictOutcome (r.numberOf .verdict)

/-- The station was in LOCKED when it drove AGREE and is in LOCKED still (R5). -/
def State.takesMatch (s : State) (r : RoundRec) : Bool := r.droveIn s.sup .agree && s.grd.state == .locked

/-- The effects of MATCH (R89, R5, R7, R105). A deferred hold move is not taken after it: the hold has no effect on an open
station, and a DURESS match leaves the station in LOCKED (R5, log 27). -/
def State.matchEffects (s : State) (r : RoundRec) (slot : CodeSlotNo) : State :=
  let s := s.setTally 0
  let s := { s with grd := { s.grd with holdDue := false } }
  if slot = 3 then s.post .wipe wipeDuress
  else if s.takesMatch r then
    let contents := (s.cred.slots.get slot).contents
    let key := (slotWrap contents).bind fun w => openWrap w (s.cred.roundEntry.getD [])
    s.openStation slot (slotMustChange contents && slot != 0) key
  else s

/-- The end of a CHECK round at a station that answered (R85, R88 to R90, R107). -/
def State.endCheck (s : State) (r : RoundRec) (cls : RoundClass) : State :=
  let s :=
    match checkOutcome r cls with
    | .splitEntry => s.setFlag .splitEntry
    | .incomplete | .noMatch => s.takeGap
    | .verdictSplit => (s.setFlag .tableSplit).takeGap
    | .matched slot => s.matchEffects r slot
  { s with cred := { s.cred with roundEntry := none } }

/-! ## SETCODE -/

/-- The pending change is the one of the round's ARG (R94, R175). -/
def PendingChange.ofArg (p : PendingChange) (arg : Arg) : Bool :=
  p.stored && setcodeArg p.target (slotRole p.contents) p.stamp == arg

/-- The change a SETCODE round promotes at this station (R94). -/
def promotedChange (s : State) (r : RoundRec) (cls : RoundClass) : Option PendingChange :=
  if cls = .complete ∧ r.mapOf .stored = rosterSet s.sup.roster ∧ s.wipe.journal.phase = .none then
    s.cred.pendingSlot.filter (·.ofArg r.arg)
  else none

/-- What the guard controller does with a promotion at the end of a SETCODE round (R95, R9, R4, R97). -/
def State.takePromotion (s : State) (p : PendingChange) : State :=
  if s.grd.state = .blank ∧ p.target = 0 then s.openStation 0 false s.cred.genKey
  else s.clearMustChange p.target

/-- The end of a SETCODE round (R94 to R97). -/
def State.endSetcode (s : State) (r : RoundRec) (cls : RoundClass) : State :=
  let s :=
    match promotedChange s r cls with
    | some p => (s.promote p).takePromotion p
    | none => s
  { s with cred := { s.cred with genKey := none, roundChange := none } }

/-! ## SETMARK -/

/-- Session marks set by a change (R141). -/
def withSession (marks : Vector SessionMark 64) (c : SessionChange) : Vector SessionMark 64 :=
  match c.extent with
  | some e => marks.set e.val c.mark
  | none => Vector.replicate 64 c.mark

/-- A staged session change at the end of its round (R141). -/
def State.endSession (s : State) (applies : Bool) : State :=
  match s.gate.staging with
  | some c =>
    { s with gate := { s.gate with
        session := if applies then withSession s.gate.session c else s.gate.session
        staging := none } }
  | none => s

/-- The pending mark of a round's ARG, stored (R141). -/
def pendingOf (s : State) (arg : Arg) : Option PendingMark :=
  s.gate.pendingMark.filter fun p => p.stored && p.arg == arg

/-- A staged fixed change at the end of its round: promoted in one store, or discarded (R141). -/
def State.endFixed (s : State) (r : RoundRec) (applies : Bool) : State :=
  match pendingOf s r.arg with
  | some p =>
    if applies ∧ s.wipe.journal.phase = .none then
      ({ s with gate := { s.gate with pendingMark := none } }).putMarks
        (s.gate.fixedMarks.set p.extent.val p.mark) true
    else s.discardMark
  | none => s.discardMark

/-- The end of a SETMARK round at a station that staged (R141). -/
def State.endSetmark (s : State) (r : RoundRec) (cls : RoundClass) : State :=
  if r.staged then
    let applies := cls == .complete && r.mapOf .stored == rosterSet s.sup.roster
    if r.arg.getLsbD 15 then s.endFixed r applies else s.endSession applies
  else s

/-! ## FIT -/

/-- A table with an entry rewritten and its check value recomputed (R113, R174). -/
def PolicyTable.withItem (t : PolicyTable) : FitItem → PolicyTable
  | .header fd fr => { t with faultDisarm := fd, frozen := fr, check := Config.policyCheckOf fd fr t.entries }
  | .partA e cc ca ac l rp arm =>
    let entries := t.entries.set e.val { t.entries.get e with
      causeCode := cc, causeArg := ca, actionCode := ac, links := l, repeats := rp, armAtStart := arm }
    { t with entries := entries, check := Config.policyCheckOf t.faultDisarm t.frozen entries }
  | .partB e tm sec =>
    let entries := t.entries.set e.val { t.entries.get e with timer := tm, seconds := sec }
    { t with entries := entries, check := Config.policyCheckOf t.faultDisarm t.frozen entries }
  | .marks _ _ => t

/-- The entries whose fields differ, as a set (R127). -/
def changedEntries (a b : PolicyTable) : BitVec 8 :=
  entryNumbers.foldl (fun v e => if a.entries.get e = b.entries.get e then v else v ||| entryBit e) 0

/-- The fault-disarm latch derived from the flags (R125). -/
def latchOf (t : PolicyTable) (flags : FlagSet) : Bool := t.faultDisarm && FlagSet.any flags disarmingFlags

/-- A policy item is written (R127, R174). -/
def State.writePolicy (s : State) (t : PolicyTable) : State :=
  let changed := changedEntries s.pol.table t
  let fresh := lastValues t s.tal.tally s.peerLost
  { s with pol := { s.pol with
      table := t
      store := s.pol.store.put t
      armed := s.pol.armed &&& ~~~changed
      last := (s.pol.last &&& ~~~changed) ||| (fresh &&& changed)
      latch := if t.faultDisarm = s.pol.table.faultDisarm then s.pol.latch else latchOf t s.stat.flags } }

/-- An item is applied (R174). -/
def State.applyItem (s : State) (item : FitItem) : State :=
  match item with
  | .marks group codes => s.putMarks (withMarks s.gate.fixedMarks group codes) false
  | item => s.writePolicy (s.pol.table.withItem item)

/-- The end of a FIT round (R174). -/
def State.endFit (s : State) (r : RoundRec) (cls : RoundClass) : State :=
  let item := s.stat.fit.bind fun p => fitItemOf p.1 p.2
  let s := { s with stat := { s.stat with fit := none } }
  if r.staged ∧ cls = .complete ∧ r.mapOf .stored = rosterSet s.sup.roster then
    match item with
    | some i => s.applyItem i
    | none => s
  else s

/-! ## The observer's other kinds, PROGRESS -/

/-- The reported marks of a STATUS round (R169). -/
def State.endStatus (s : State) (r : RoundRec) : State :=
  match r.carried with
  | some set =>
    if r.secondDriver then s else { s with stat := { s.stat with reported := s.stat.reported ||| set } }
  | none => s

/-- The end of a CLEAR round (R172). -/
def State.endClear (s : State) (r : RoundRec) : State :=
  if clearTarget r.arg = s.sup.stn.toNat ∨ clearTarget r.arg = 15 then s.clearFlags (clearSet r.arg) else s

/-- The end of a PROGRESS round (R156, R157). -/
def State.endProgress (s : State) (r : RoundRec) (cls : RoundClass) : State :=
  if cls = .complete ∧ r.mapOf .done = rosterSet s.sup.roster then s.returnToBlank (r.numberOf .badHi) else s

/-! ## ROUND_END -/

/-- The owners of a round's kind take its class (R45); an ABSENT round has no effect. -/
def State.ownersEnd (s : State) (r : RoundRec) (cls : RoundClass) : State :=
  if cls.applies then
    match r.kind with
    | some .lock => s.lockLocally
    | some .roll => s.endRoll r cls
    | some .check => s.endCheck r cls
    | some .setcode => s.endSetcode r cls
    | some .setmark => s.endSetmark r cls
    | some .progress => s.endProgress r cls
    | some .status => s.endStatus r
    | some .clear => s.endClear r
    | some .fit => s.endFit r cls
    | _ => s
  else s

/-- ROUND_END at a station that tracks a round to the end of ACCEPT (R25, R44 to R51, R54, R161). The owners first, then
the queue, then the roster view (R61). -/
def State.roundEnded (s : State) (accept : Slots) : State :=
  match s.eng.round, s.line.pos with
  | some r, .inField .accept _ =>
    let r := { r with accept := takenMap s.sup (s.line.offer == .slot) accept }
    let cls := classifyRound s.sup r
    let r := { r with cls := some cls }
    let s := s.senseField .accept (accept.setWidth 256)
    let s := { s with line := s.line.toGap, eng := { s.eng with round := none } }
    let s := s.activityEvent.ownersEnd r cls
    let s := s.takeDueDeadline
    ((s.endQueue r).recordRound r).repeatTallyAndOwed.repeatJournal
  | _, _ => s

end Sys2Proof.Machine
end

