-- ==== Sys2Proof/Machine/GateCommands.lean ====
section
/-! DEFINITION. The commands of the bank gate: bridge requests, the bank's ready signal and its completions (08). The
decision and the grant are taken as the event ends (R131, R137). -/

namespace Sys2Proof.Machine

/-- The bridge presents a request; a second one is not taken while one is presented (R131). -/
def State.present (s : State) (r : BridgeRequest) : State :=
  if s.sup.state ≠ .off ∧ s.gate.presented = none then
    { s with gate := { s.gate with presented := some r } }
  else s

/-- READ (R132). -/
def execRead (extent : Extent) (block : Nat) : State → Host.Outcome State Fault Refusal :=
  event (State.present · ⟨.read, extent, block⟩)

/-- WRITE (R132). -/
def execWrite (extent : Extent) (block : Nat) : State → Host.Outcome State Fault Refusal :=
  event (State.present · ⟨.write, extent, block⟩)

/-- TRIM (R132). -/
def execTrim (extent : Extent) (block : Nat) : State → Host.Outcome State Fault Refusal :=
  event (State.present · ⟨.trim, extent, block⟩)

/-- PORT_READY (R137): with bus power, and not in STRAP_FAULT. -/
def execPortReady : State → Host.Outcome State Fault Refusal :=
  event fun s =>
    if s.sup.state = .bus ∧ s.grd.state ≠ .strapFault then
      { s with gate := { s.gate with portReady := true } }
    else s

/-- An access completion (R134): to the oldest outstanding request, or dropped. -/
def State.completeAccess (s : State) (status : Nat) : State :=
  match s.gate.outstanding with
  | [] => s
  | r :: rest =>
    let s := { s with
      toBridge := s.toBridge ++ [.completion r status]
      gate := { s.gate with outstanding := rest } }
    if rest = [] then s.drained else s

/-- ACCESS_COMPLETION (R134). -/
def execAccessCompletion (status : Nat) : State → Host.Outcome State Fault Refusal :=
  event (State.completeAccess · status)

/-- ERASE_COMPLETION (R152): dropped with no erase ISSUED. -/
def execEraseCompletion (success : Bool) : State → Host.Outcome State Fault Refusal :=
  event fun s => if s.wipe.erase = .issued then s.eraseEnded success else s

end Sys2Proof.Machine
end

