-- ==== Sys2Proof/Machine/KeypadCommands.lean ====
section
/-! DEFINITION. The keypad's commands: key lines, presses, releases and the sampler's timers (04). -/

namespace Sys2Proof.Machine

/-- The sampler runs: power-on is done, and the station is not DORMANT without a warm-up (R64, R162, 10.5). -/
def State.samples (s : State) : Bool :=
  s.sup.state != .off && s.sup.step == .done && (s.sup.activity != .dormant || s.sup.warmup.isSome)

/-- The key is DOWN by its key state. -/
def Keypad.isDown (k : Keypad) (key : Key) : Bool := k.states &&& keyMask key != 0

/-- The debounce timer of a key, while it runs. -/
def Keypad.debounceOf (k : Keypad) (key : Key) : Option Nat :=
  (k.debounce.find? (·.1 == keyNumber key)).map (·.2)

/-- The debounce timers without a key's. -/
def Keypad.stopDebounce (k : Keypad) (key : Key) : Keypad :=
  { k with debounce := k.debounce.filter (·.1 != keyNumber key) }

/-- A line level against its key state: a difference starts the timer, agreement stops it (R64). -/
def Keypad.sense (k : Keypad) (key : Key) (down : Bool) (now : Nat) : Keypad :=
  if k.isDown key = down then k.stopDebounce key
  else if (k.debounceOf key).isSome then k
  else { k with debounce := k.debounce ++ [(keyNumber key, now + Config.debounce)] }

/-- A key line takes a level. -/
def Pins.withKey (p : Pins) (key : Key) (down : Bool) : Pins :=
  { p with keyLines := if down then p.keyLines ||| keyMask key else p.keyLines &&& ~~~keyMask key }

/-- KEY_LINE_CHANGE (R64). -/
def execKeyLineChange (k : Key) (down : Bool) : State → Host.Outcome State Fault Refusal :=
  event fun s =>
    let s := { s with pins := s.pins.withKey k down }
    if s.samples then { s with key := s.key.sense k down s.now } else s

/-- A press is recognized: the key is DOWN, activity is handed on, and the press is set aside, discarded or taken; in
warm-up it is discarded (R64, R66, R163). -/
def State.recognizePress (s : State) (k : Key) : State :=
  let s := { s with key := { s.key.stopDebounce k with states := s.key.states ||| keyMask k } }
  let s := s.activityEvent
  if s.sup.activity = .dormant then s else s.press k

/-- KEY_PRESS (R65): the debounce timer of a key expires with its line DOWN. -/
def execKeyPress (k : Key) : State → Host.Outcome State Fault Refusal :=
  event fun s =>
    match s.key.debounceOf k with
    | some t =>
      if s.pins.keyLines &&& keyMask k != 0 && !s.key.isDown k then (s.reach t).recognizePress k else s
    | none => s

/-- A release is recognized: only in RESET_HOLD is it more than a key state (R65, R70). SHIFT released with a command
pending is remembered for the digit that follows (log 49). -/
def State.recognizeRelease (s : State) (k : Key) : State :=
  let s := { s with key := { s.key.stopDebounce k with
    states := s.key.states &&& ~~~keyMask k
    shiftFreed := s.key.shiftFreed || (k == .shift && s.key.command.isSome) } }
  if s.key.mode = .resetHold ∧ (k = .shift ∨ k = .unlock) then s.keypadIdle else s

/-- KEY_RELEASE (R70): the debounce timer of a key expires with its line UP. -/
def execKeyRelease (k : Key) : State → Host.Outcome State Fault Refusal :=
  event fun s =>
    match s.key.debounceOf k with
    | some t =>
      if s.pins.keyLines &&& keyMask k == 0 && s.key.isDown k then (s.reach t).recognizeRelease k else s
    | none => s

/-- ENTRY_TIMER_EXPIRY (R67, R72, R73, R75): back to IDLE without a PULSE. -/
def execEntryTimerExpiry : State → Host.Outcome State Fault Refusal :=
  event fun s =>
    match s.key.entryTimer with
    | some t => (s.reach t).keypadIdle
    | none => s

/-- RESET_TIMER_EXPIRY (R70): WIPE with cause USER_RESET is posted. -/
def execResetTimerExpiry : State → Host.Outcome State Fault Refusal :=
  event fun s =>
    match s.key.resetTimer with
    | some t => (s.reach t).keypadIdle.post .wipe wipeUserReset
    | none => s

/-- WIPE_WINDOW_EXPIRY (R72): back to IDLE without a PULSE. -/
def execWipeWindowExpiry : State → Host.Outcome State Fault Refusal :=
  event fun s =>
    match s.key.wipeWindow with
    | some t => (s.reach t).keypadIdle
    | none => s

/-- HELD_ENTRY_TIMER_EXPIRY (R69): the held entry goes, with its request if that is not in flight. -/
def execHeldEntryTimerExpiry : State → Host.Outcome State Fault Refusal :=
  event fun s =>
    match s.key.heldEntry with
    | some h =>
      let s := s.reach h.until_
      ({ s with key := { s.key with heldEntry := none } }).withdraw .check
    | none => s

/-- HELD_CHANGE_TIMER_EXPIRY (R77). -/
def execHeldChangeTimerExpiry : State → Host.Outcome State Fault Refusal :=
  event fun s =>
    match s.key.heldChange with
    | some h =>
      let s := s.reach h.until_
      ({ s with key := { s.key with heldChange := none } }).withdraw .setcode
    | none => s

end Sys2Proof.Machine
end

