-- ==== Sys2Proof/Machine/LineCommands.lean ====
section
/-! DEFINITION. The commands of the Quorum Line: idle line, openings, fields, hold fields, round ends, stuck line (02,
03). -/

namespace Sys2Proof.Machine

/-- The view waits for an idle line (R23, R24, R36). -/
def LineView.waitsIdle : LineView → Bool
  | .gap | .syncing | .rejecting => true
  | _ => false

/-- The line has been recessive for IDLE_GAP; a round rejected or not joined has ended, which is activity (R161). -/
def State.idleReached (s : State) : State :=
  let s := { s with line := { s.line with view := .idle, idleTimer := none, stuckTimer := none } }
  if s.line.tail then ({ s with line := { s.line with tail := false } }).activityEvent else s

/-- IDLE_GAP_REACHED (R23, R36). The idle timer may stand stopped: no command tells that the line turned recessive
(log 50). -/
def execIdleGapReached : State → Host.Outcome State Fault Refusal :=
  event fun s =>
    if s.tracking && s.line.view.waitsIdle then (s.reach (s.line.idleTimer.getD s.now)).idleReached else s

/-- OPEN_ROUND (R48). -/
def execOpenRound : State → Host.Outcome State Fault Refusal := event State.offerRound

/-- RETRY_DUE (R48): a not-before time passes; on an idle line the request is offered then. -/
def execRetryDue (kind : RoundKind) : State → Host.Outcome State Fault Refusal :=
  event fun s =>
    match (queueFind kind s.eng.queue).bind (·.notBefore) with
    | some t =>
      let s := s.reach t
      ({ s with eng := { s.eng with
          queue := queueModify kind (fun r => { r with notBefore := none }) s.eng.queue } }).offerRound
    | none => s

/-- ROUND_START (R23): a dominant edge in IDLE or GAP. -/
def execRoundStart : State → Host.Outcome State Fault Refusal :=
  event fun s =>
    if s.tracking && (s.line.view == .idle || s.line.view == .gap) then s.startRound else s

/-- LATE_ROUND_SEEN (R24, R14): a dominant level in SYNCING, so a round is under way; the station is ABSENT from it, and
locks if open. -/
def execLateRoundSeen : State → Host.Outcome State Fault Refusal :=
  event fun s =>
    if s.tracking && s.line.view == .syncing then
      ({ s with line := { s.line.turnDominant s.now with tail := true } }).lockForLine
    else s

/-- FIELD_MARK (R25, R34). -/
def execFieldMark (level : Level) : State → Host.Outcome State Fault Refusal := event (State.fieldMarked · level)

/-- FIELD_END (R40). -/
def execFieldEnd (read : LineBits) : State → Host.Outcome State Fault Refusal := event (State.fieldEnded · read)

/-- HOLD_FIELD_END (R30). -/
def execHoldFieldEnd : State → Host.Outcome State Fault Refusal := event State.holdEnd

/-- HOLD_MAX_EXPIRY (R31). -/
def execHoldMaxExpiry : State → Host.Outcome State Fault Refusal := event State.holdMaxReached

/-- The views in which R35 and R36 name a stuck line outside a round in progress. No command need have told there that
the line turned dominant (log 50). -/
def LineView.outsideRound : LineView → Bool
  | .idle | .gap | .syncing | .rejecting => true
  | _ => false

/-- A dominant stretch may reach LINE_STUCK_TIME: not on a line already stuck, not inside a hold field up to HOLD_MAX, and
inside a round with the line-stuck timer running (R35, R36). -/
def State.maySeeStuck (s : State) : Bool :=
  s.tracking && s.line.view != .stuck && !(s.inHold && s.line.holdTimer.isSome)
    && (s.line.stuckTimer.isSome || s.line.view.outsideRound)

/-- A stuck line (R35, R14): LINE_STUCK, and a round in progress is TRUNCATED. -/
def State.lineStuck (s : State) : State :=
  let s := s.setFlag .lineStuck
  if s.eng.round.isSome then (s.setFlag .badRound).rejectTo { view := .stuck, tail := true }
  else
    let s := s.unsend
    ({ s with line := { view := .stuck, tail := s.line.tail } }).lockForLine

/-- LINE_STUCK_EXPIRY (R35). -/
def execLineStuckExpiry : State → Host.Outcome State Fault Refusal :=
  event fun s =>
    if s.maySeeStuck then (s.reach (s.line.stuckTimer.getD s.now)).lineStuck else s

/-- LINE_RELEASED (R35): the view becomes SYNCING. -/
def execLineReleased : State → Host.Outcome State Fault Refusal :=
  event fun s =>
    if s.line.view = .stuck then
      { s with line := { LineIf.toSyncing s.now with tail := s.line.tail } }
    else s

/-- ROUND_END (R44). -/
def execRoundEnd (accept : Slots) : State → Host.Outcome State Fault Refusal := event (State.roundEnded · accept)

/-- HOLD_STORE_FINISHED (R31). -/
def execHoldStoreFinished : State → Host.Outcome State Fault Refusal := event State.heldStoreMade

/-- HOLD_STORE_FAILED (R31). -/
def execHoldStoreFailed : State → Host.Outcome State Fault Refusal := event State.heldStoreFailed

/-- LATE_STORE_FINISHED (R31). -/
def execLateStoreFinished (owner : HoldOwner) : State → Host.Outcome State Fault Refusal :=
  event (State.lateStoreMade · owner)

end Sys2Proof.Machine
end

