-- ==== Sys2Proof/Machine/StoreCommands.lean ====
section
/-! DEFINITION. The ends of nonvolatile stores outside a hold field (05, 06, 08, 09, 11). A store for which the station
holds the line ends by HOLD_STORE_FINISHED or HOLD_STORE_FAILED. -/

namespace Sys2Proof.Machine

/-- JOURNAL_STORE_MADE (R143). -/
def execJournalStoreMade : State → Host.Outcome State Fault Refusal :=
  event fun s => if heldStore s = some .journal then s else s.journalMade

/-- An ORDERED store that failed is not repeated inside a round (R145). -/
def repeatsNow (s : State) : Bool := s.eng.round.isNone || !(s.wipe.busy.any (·.phase == .ordered))

/-- JOURNAL_STORE_FAILED (R143, R145). -/
def execJournalStoreFailed : State → Host.Outcome State Fault Refusal :=
  event fun s => if heldStore s = some .journal then s else s.journalFailed (repeatsNow s)

/-- TABLE_DESTRUCTION_MADE (R98, R149). -/
def execTableDestructionMade : State → Host.Outcome State Fault Refusal :=
  event fun s => if s.cred.busy = some .destroy then s.credEndMade else s

/-- CREDENTIAL_STORE_ENDED (R80, R93, R95, R96, R98). -/
def execCredentialStoreEnded (made : Bool) : State → Host.Outcome State Fault Refusal :=
  event fun s =>
    if heldStore s = some .credential then s else if made then s.credEndMade else s.credFailed

/-- TALLY_STORE_ENDED (R101). -/
def execTallyStoreEnded (made : Bool) : State → Host.Outcome State Fault Refusal :=
  event fun s =>
    if heldStore s = some .tally then s else if made then s.tallyMade else s.tallyFailed (!s.inHold)

/-- The hold-owed store in progress ends. One that failed is repeated under the tally store's rule: outside any hold
field (R101, R108). -/
def State.owedEnded (s : State) (made : Bool) : State :=
  match s.tal.owedStore.busy with
  | none => s
  | some v =>
    if made then
      { s with
        nv := { s.nv with holdOwed := v }
        tal := { s.tal with owedStore := s.tal.owedStore.made s.mayStore } }
    else
      ({ s with tal := { s.tal with
          owedStore := s.tal.owedStore.failed s.tal.holdOwed s.mayStore (!s.inHold) } }).setFlag .storeFail

/-- HOLD_OWED_STORE_ENDED (R108). -/
def execHoldOwedStoreEnded (made : Bool) : State → Host.Outcome State Fault Refusal :=
  event (State.owedEnded · made)

/-- The flag store in progress ends. It is repeated with the flags in force, in STRAP_FAULT too (R168, R2). -/
def State.flagsEnded (s : State) (made : Bool) : State :=
  match s.stat.store.busy with
  | none => s
  | some v =>
    if made then
      { s with nv := { s.nv with flags := v }, stat := { s.stat with store := s.stat.store.made true } }
    else
      let s := s.setFlag .storeFail
      { s with stat := { s.stat with store := s.stat.store.failed s.stat.flags true true } }

/-- FLAG_STORE_ENDED (R168). -/
def execFlagStoreEnded (made : Bool) : State → Host.Outcome State Fault Refusal :=
  event (State.flagsEnded · made)

/-- FIXED_MARK_STORE_ENDED (R129, R141). -/
def execFixedMarkStoreEnded (made : Bool) : State → Host.Outcome State Fault Refusal :=
  event fun s => if made then s.marksMade else s.marksFailed

/-- The policy table's store in progress ends (R174). -/
def State.policyEnded (s : State) (made : Bool) : State :=
  match s.pol.store.busy with
  | none => s
  | some v =>
    if made then
      { s with nv := { s.nv with policy := v }, pol := { s.pol with store := s.pol.store.made s.mayStore } }
    else
      ({ s with pol := { s.pol with
          store := s.pol.store.failed s.pol.table s.mayStore true } }).setFlag .storeFail

/-- POLICY_STORE_ENDED (R174). -/
def execPolicyStoreEnded (made : Bool) : State → Host.Outcome State Fault Refusal :=
  event (State.policyEnded · made)

/-- PENDING_MARK_STORE_ENDED (R140, R141). -/
def execPendingMarkStoreEnded (made : Bool) : State → Host.Outcome State Fault Refusal :=
  event fun s =>
    if heldStore s = some .pendingMark then s else if made then s.pmMade else s.pmFailed

end Sys2Proof.Machine
end

