-- ==== Sys2Proof/Machine/SupplyCommands.lean ====
section
/-! DEFINITION. The supply controller's commands: power-on, loading, bus power, battery, inactivity and waking (10). -/

namespace Sys2Proof.Machine

/-! ## Power-on -/

/-- Bus power is present (R159). -/
def Pins.busPresent (p : Pins) : Bool := p.busSense && !p.pfw

/-- The supply state that the senses give while a supply holds up (R159). -/
def Pins.supply (p : Pins) : SupplyState := if p.busPresent then .bus else .battery

/-- The straps fail their check: roster size code 0, or a station number not below the roster size (R165). -/
def strapsBad (stn rsz : BitVec 3) : Bool := rsz == 0 || stn.toNat ≥ rsz.toNat + 1

/-- OFF: every volatile item is lost (R160). -/
def State.powerOff (s : State) (pins : Pins) : State :=
  State.atPowerOn s.pending s.now s.draws s.toBridge s.toBank s.nv pins { state := .off }

/-- READING (R158, R165): the straps are read, and the station goes to LOADING or to STRAP_FAULT (R2). -/
def State.powerOn (s : State) (stn rsz : BitVec 3) (pins : Pins) : State :=
  let bad := strapsBad stn rsz
  let s := State.atPowerOn s.pending s.now s.draws s.toBridge s.toBank s.nv pins
    { state := pins.supply, stn := stn, roster := rsz.toNat + 1, step := if bad then .reading else .loading }
  if bad then { s with grd := { s.grd with state := .strapFault } } else s

/-- POWER_ON (R165): in OFF, when a supply appears. -/
def execPowerOn (stn rsz : BitVec 3) (busSense pfw batSense : Bool) : State → Host.Outcome State Fault Refusal :=
  event fun s =>
    let pins : Pins := { s.pins with busSense := busSense, pfw := pfw, batSense := batSense }
    if s.sup.state = .off then
      if pins.busPresent || pins.batSense then s.powerOn stn rsz pins else { s with pins := pins }
    else s

/-! ## Loading -/

/-- Some record failed its integrity check (R166). -/
def LoadReport.anyFailed (r : LoadReport) : Bool :=
  r.slot0 || r.slot1 || r.slot2 || r.slot3 || r.header || r.pendingSlot || r.tally || r.holdOwed || r.policy
    || r.fixedMarks || r.pendingMark || r.journal || r.flags || r.serial.isSome

/-- The flags as loaded, with one STORE_FAIL however many records fail (R166). -/
def loadedFlags (stored : FlagSet) (r : LoadReport) : FlagSet :=
  (if r.flags then 0 else stored) ||| (if LoadReport.anyFailed r then Flag.storeFail.mask else 0)

/-- The status flags are loaded first (R166). -/
def State.loadFlags (s : State) (r : LoadReport) : State :=
  let flags := loadedFlags s.nv.flags r
  { s with stat := { s.stat with
      flags := flags, store := if LoadReport.anyFailed r then { busy := some flags } else {} } }

/-- The credential slots that failed, in ascending number (the order of their store-backs: log 63). -/
def failedSlots (r : LoadReport) : List CodeSlotNo :=
  (if r.slot0 then [0] else []) ++ (if r.slot1 then [1] else []) ++ (if r.slot2 then [2] else [])
    ++ (if r.slot3 then [3] else [])

/-- The greatest change stamp among the slots (R80). -/
def greatestStamp (slots : Vector CodeSlot 4) : BitVec 16 :=
  slotNumbers.foldl (fun m i => if m < (slots.get i).stamp then (slots.get i).stamp else m) 0

/-- The credential table is loaded: the header is tested after the slots (R79, R80, R166). DESIGN CHOICE, unsafe
(log 63): the store-backs are asked for in the order failed slots by ascending number, header, pending slot, so the first
of them is the one begun, also before a destruction (R80); the spec gives no order of the requests. -/
def State.loadCredentials (s : State) (r : LoadReport) : State :=
  let slots := (failedSlots r).foldl (fun v i => setSlot v i {}) s.cred.slots
  let s := { s with cred := { s.cred with slots := slots } }
  let s := (failedSlots r).foldl (fun s i => s.askCred (.slotBack i)) s
  let s :=
    if r.header then
      let stamp := greatestStamp slots
      ({ s with cred := { s.cred with liveStamp := stamp } }).askCred (.headerBack stamp)
    else s
  if r.pendingSlot then
    ({ s with cred := { s.cred with pendingSlot := none } }).askCred .pendingBack
  else s

/-- The tally and hold-owed are loaded (R110). -/
def State.loadTally (s : State) (r : LoadReport) : State :=
  let t := s.tal
  let t := if r.tally then
      { t with tally := Config.tallyMax, tallyStore := t.tallyStore.put Config.tallyMax } else t
  let t := if r.holdOwed then
      { t with holdOwed := Config.holdMaxSeconds, owedStore := t.owedStore.put Config.holdMaxSeconds } else t
  { s with tal := t }

/-- The policy table is loaded; the latch and the last condition values are derived (R113, R116, R125). -/
def State.loadPolicy (s : State) (r : LoadReport) : State :=
  let table := if r.policy then PolicyTable.idle else s.pol.table
  { s with pol := { s.pol with
      table := table
      store := if r.policy then s.pol.store.put table else s.pol.store
      last := lastValues table s.tal.tally false
      latch := latchOf table s.stat.flags } }

/-- The marks are loaded: a pending mark is taken as empty and emptied (R129, R141). -/
def State.loadMarks (s : State) (r : LoadReport) : State :=
  let s := if r.fixedMarks then s.putMarks (Vector.replicate 64 .normal) false else s
  if r.pendingMark || s.nv.pendingMark.isSome then s.askPm .empty else s

/-- The wipe journal is loaded; a journal at ORDERED asks for the table's destruction (R142, R149). -/
def State.loadJournal (s : State) (r : LoadReport) : State :=
  let s :=
    if r.journal then
      let j := orderedJournal .adopted
      ({ s with wipe := { s.wipe with journal := j } }).askJournal j
    else s
  if s.wipe.journal.phase = .ordered then s.askDestruction else s

/-- A serial that fails its check is in force as read; its record, written only at manufacture, stays (R166). -/
def State.loadSerial (s : State) (r : LoadReport) : State :=
  match r.serial with
  | some v => { s with eng := { s.eng with serial := v } }
  | none => s

/-- The end of LOADING (R167). Every store-back of R166 begins here, so a LOADING cut short has stored back nothing
(R160; log 60). -/
def State.loaded (s : State) (r : LoadReport) : State :=
  let s := (((((s.loadFlags r).loadCredentials r).loadTally r).loadPolicy r).loadMarks r).loadJournal r
  let s := s.loadSerial r
  let s := { s with
    sup := { s.sup with state := s.pins.supply, step := .done }
    line := LineIf.toSyncing s.now
    key := { s.key with states := s.pins.keyLines } }
  s.post .roll 0

/-- LOADING_END (R167). -/
def execLoadingEnd (report : LoadReport) : State → Host.Outcome State Fault Refusal :=
  event fun s => if s.sup.state ≠ .off ∧ s.sup.step = .loading then s.loaded report else s

/-! ## Bus power and battery -/

/-- The controller takes supply events in every state but OFF, while the records are loading too (R159; log 31). -/
def State.takesSupply (s : State) : Bool := s.sup.state != .off

/-- A bus-power fall that leaves the station in BATTERY (R159, R12, R136, R153, R161). -/
def State.busFall (s : State) : State :=
  let s := { s with sup := { s.sup with state := .battery } }
  let lost := s.gate.outstanding ≠ []
  let s := ({ s with gate := { s.gate with outstanding := [], portReady := false } }).abandonErase
  let s := if lost then s.setFlag .abandoned else s
  let s := s.regate.drained.lockLocally
  (s.note .busFall).activityEvent

/-- A bus-power rise (R159, R13, R136, R150, R153, R161, R163). -/
def State.busRise (s : State) : State :=
  let s := { s with
    sup := { s.sup with state := .bus }
    grd := { s.grd with batteryTimer := none } }
  let s := s.regate.engineStep.stayAwake
  let s :=
    if s.sup.activity = .dormant ∧ s.sup.warmup = none then
      { s with sup := { s.sup with warmup := some (s.now + Config.warmup) } }
    else s
  s.note .busRise

/-- BUS_POWER_FALL (R159): by BUS_SENSE going absent or PFW_N asserted, whichever comes first. -/
def execBusPowerFall (cause : FallCause) : State → Host.Outcome State Fault Refusal :=
  event fun s =>
    let pins := match cause with
      | .senseLost => { s.pins with busSense := false }
      | .warning => { s.pins with pfw := true }
    let s := { s with pins := pins }
    if s.takesSupply && s.sup.state == .bus && !pins.busPresent then s.busFall else s

/-- BUS_POWER_RISE (R159). -/
def execBusPowerRise (cause : RiseCause) : State → Host.Outcome State Fault Refusal :=
  event fun s =>
    let pins := match cause with
      | .senseAppeared => { s.pins with busSense := true }
      | .warningReleased => { s.pins with pfw := false }
    let s := { s with pins := pins }
    if s.takesSupply && s.sup.state == .battery && pins.busPresent then s.busRise else s

/-- BATTERY_REMOVED (R159): without bus power the station goes to OFF (R160). -/
def execBatteryRemoved : State → Host.Outcome State Fault Refusal :=
  event fun s =>
    if s.sup.state ≠ .off ∧ s.pins.batSense ∧ s.pins.busPresent = false then
      s.powerOff { s.pins with batSense := false }
    else s

/-- BATTERY_CHANGE_IN_BUS (R159): the supply state stays BUS. For a battery fitted in BATTERY the spec lists no event: the
level is dropped (log 59). -/
def execBatteryChangeInBus (fitted : Bool) : State → Host.Outcome State Fault Refusal :=
  event fun s =>
    if s.sup.state = .bus then { s with pins := { s.pins with batSense := fitted } } else s

/-- SUPPLY_FAIL (R160): with no battery the station goes to OFF. -/
def execSupplyFail : State → Host.Outcome State Fault Refusal :=
  event fun s =>
    if s.sup.state ≠ .off ∧ s.pins.batSense = false then s.powerOff { s.pins with busSense := false } else s

/-! ## Inactivity and waking -/

/-- INACTIVITY_TIMER_EXPIRY (R161, R162). -/
def execInactivityTimerExpiry : State → Host.Outcome State Fault Refusal :=
  event fun s =>
    match s.sup.inactivity with
    | .running t =>
      let s := s.reach t
      if s.sup.activity = .doze then { s with sup := { s.sup with inactivity := .expired } }
      else { s with sup := { s.sup with
          activity := .doze, inactivity := .running (s.now + Config.dormantAfter) } }
    | _ => s

/-- The source is there: a key needs its line DOWN (R163; log 36). -/
def State.wakes (s : State) : WakeSource → Bool
  | .key k => s.pins.keyLines &&& keyMask k != 0
  | .lineEdge => true

/-- WAKE (R163): the warm-up begins; later sources find it running. The sender commands it when a key has been held for
DEBOUNCE: no timer of the model times that in DORMANT, and the clock stays where it stands (log 36). -/
def execWake (source : WakeSource) : State → Host.Outcome State Fault Refusal :=
  event fun s =>
    if s.sup.state ≠ .off ∧ s.sup.activity = .dormant ∧ s.sup.warmup = none ∧ s.wakes source then
      { s with sup := { s.sup with warmup := some (s.now + Config.warmup) } }
    else s

/-- The end of warm-up (R164). -/
def State.warmedUp (s : State) : State :=
  let s := { s with
    sup := { s.sup with
      activity := .awake, warmup := none
      inactivity := if s.mayDoze then .running (s.now + Config.dozeAfter) else .stopped }
    line := LineIf.toSyncing s.now
    key := { s.key with states := s.pins.keyLines, debounce := [] }
    eng := { s.eng with rollCount := 0 } }
  s.post .roll 0

/-- WARMUP_END (R164). -/
def execWarmupEnd : State → Host.Outcome State Fault Refusal :=
  event fun s =>
    match s.sup.warmup with
    | some t => (s.reach t).warmedUp
    | none => s

end Sys2Proof.Machine
end

