-- ==== Sys2Proof/Machine/TimerCommands.lean ====
section
/-! DEFINITION. The expiries of the guard controller's, the tally and hold block's, the policy triggers' and the wipe
engine's timers (01, 06, 07, 09). -/

namespace Sys2Proof.Machine

/-- BATTERY_OPEN_EXPIRY (R13): the station locks and posts LOCK with cause BATTERY. -/
def execBatteryOpenExpiry : State → Host.Outcome State Fault Refusal :=
  event fun s =>
    match s.grd.batteryTimer with
    | some t =>
      let s := s.reach t
      (({ s with grd := { s.grd with batteryTimer := none } }).lockLocally).post .lock lockBattery
    | none => s

/-- PULSE_TIMER_EXPIRY (R20). -/
def execPulseTimerExpiry : State → Host.Outcome State Fault Refusal :=
  event fun s =>
    match s.grd.pulseTimer with
    | some t =>
      let s := s.reach t
      { s with grd := { s.grd with pulseTimer := none } }
    | none => s

/-- HOLD_DEADLINE_REACHED (R109, R6): the hold is cleared and stored, and HELD returns to LOCKED. -/
def execHoldDeadlineReached : State → Host.Outcome State Fault Refusal :=
  event fun s =>
    match s.tal.deadline with
    | some t =>
      let s := (s.reach t).clearHold
      if s.grd.state = .held then s.setGuard .locked else s
    | none => s

/-- POLICY_TIMER_EXPIRY (R122): the timer stops and the entries that name it fire. -/
def execPolicyTimerExpiry (t : TimerNo) : State → Host.Outcome State Fault Refusal :=
  event fun s =>
    match s.pol.timers.get t with
    | some moment =>
      let s := s.reach moment
      ({ s with pol := { s.pol with timers := s.pol.timers.set t.val none } }).note (.timer t)
    | none => s

/-- PROGRESS_TIMER_EXPIRY (R154): in DONE and WIPING, PROGRESS is posted and the timer restarted. -/
def execProgressTimerExpiry : State → Host.Outcome State Fault Refusal :=
  event fun s =>
    match s.wipe.progressTimer with
    | some t =>
      let s := s.reach t
      if s.wipe.journal.phase = .done ∧ s.grd.state = .wiping then
        let s := s.post .progress 0
        { s with wipe := { s.wipe with progressTimer := some (s.now + Config.progressRetry) } }
      else { s with wipe := { s.wipe with progressTimer := none } }
    | none => s

end Sys2Proof.Machine
end

