-- ==== Sys2Proof/Machine/Dispatch.lean ====
section
/-! DEFINITION. The meaning of each command, one arm per command. -/

namespace Sys2Proof.Machine

/-- What a command does to everything but the queue of commands. -/
def exec (i : Instr) (s : State) : Host.Outcome State Fault Refusal :=
  match i with
  | .powerOn stn rsz busSense pfw batSense => Sys2Proof.Machine.execPowerOn stn rsz busSense pfw batSense s
  | .loadingEnd report => Sys2Proof.Machine.execLoadingEnd report s
  | .busPowerFall cause => Sys2Proof.Machine.execBusPowerFall cause s
  | .busPowerRise cause => Sys2Proof.Machine.execBusPowerRise cause s
  | .batteryRemoved => Sys2Proof.Machine.execBatteryRemoved s
  | .batteryChangeInBus fitted => Sys2Proof.Machine.execBatteryChangeInBus fitted s
  | .supplyFail => Sys2Proof.Machine.execSupplyFail s
  | .keyLineChange k down => Sys2Proof.Machine.execKeyLineChange k down s
  | .keyPress k => Sys2Proof.Machine.execKeyPress k s
  | .keyRelease k => Sys2Proof.Machine.execKeyRelease k s
  | .entryTimerExpiry => Sys2Proof.Machine.execEntryTimerExpiry s
  | .resetTimerExpiry => Sys2Proof.Machine.execResetTimerExpiry s
  | .wipeWindowExpiry => Sys2Proof.Machine.execWipeWindowExpiry s
  | .heldEntryTimerExpiry => Sys2Proof.Machine.execHeldEntryTimerExpiry s
  | .heldChangeTimerExpiry => Sys2Proof.Machine.execHeldChangeTimerExpiry s
  | .batteryOpenExpiry => Sys2Proof.Machine.execBatteryOpenExpiry s
  | .pulseTimerExpiry => Sys2Proof.Machine.execPulseTimerExpiry s
  | .holdDeadlineReached => Sys2Proof.Machine.execHoldDeadlineReached s
  | .policyTimerExpiry t => Sys2Proof.Machine.execPolicyTimerExpiry t s
  | .progressTimerExpiry => Sys2Proof.Machine.execProgressTimerExpiry s
  | .inactivityTimerExpiry => Sys2Proof.Machine.execInactivityTimerExpiry s
  | .wake source => Sys2Proof.Machine.execWake source s
  | .warmupEnd => Sys2Proof.Machine.execWarmupEnd s
  | .idleGapReached => Sys2Proof.Machine.execIdleGapReached s
  | .openRound => Sys2Proof.Machine.execOpenRound s
  | .retryDue kind => Sys2Proof.Machine.execRetryDue kind s
  | .roundStart => Sys2Proof.Machine.execRoundStart s
  | .lateRoundSeen => Sys2Proof.Machine.execLateRoundSeen s
  | .fieldMark level => Sys2Proof.Machine.execFieldMark level s
  | .fieldEnd read => Sys2Proof.Machine.execFieldEnd read s
  | .holdFieldEnd => Sys2Proof.Machine.execHoldFieldEnd s
  | .holdMaxExpiry => Sys2Proof.Machine.execHoldMaxExpiry s
  | .lineStuckExpiry => Sys2Proof.Machine.execLineStuckExpiry s
  | .lineReleased => Sys2Proof.Machine.execLineReleased s
  | .roundEnd accept => Sys2Proof.Machine.execRoundEnd accept s
  | .holdStoreFinished => Sys2Proof.Machine.execHoldStoreFinished s
  | .holdStoreFailed => Sys2Proof.Machine.execHoldStoreFailed s
  | .lateStoreFinished owner => Sys2Proof.Machine.execLateStoreFinished owner s
  | .journalStoreMade => Sys2Proof.Machine.execJournalStoreMade s
  | .journalStoreFailed => Sys2Proof.Machine.execJournalStoreFailed s
  | .tableDestructionMade => Sys2Proof.Machine.execTableDestructionMade s
  | .credentialStoreEnded made => Sys2Proof.Machine.execCredentialStoreEnded made s
  | .tallyStoreEnded made => Sys2Proof.Machine.execTallyStoreEnded made s
  | .holdOwedStoreEnded made => Sys2Proof.Machine.execHoldOwedStoreEnded made s
  | .flagStoreEnded made => Sys2Proof.Machine.execFlagStoreEnded made s
  | .fixedMarkStoreEnded made => Sys2Proof.Machine.execFixedMarkStoreEnded made s
  | .policyStoreEnded made => Sys2Proof.Machine.execPolicyStoreEnded made s
  | .read extent block => Sys2Proof.Machine.execRead extent block s
  | .write extent block => Sys2Proof.Machine.execWrite extent block s
  | .trim extent block => Sys2Proof.Machine.execTrim extent block s
  | .portReady => Sys2Proof.Machine.execPortReady s
  | .accessCompletion status => Sys2Proof.Machine.execAccessCompletion status s
  | .eraseCompletion success => Sys2Proof.Machine.execEraseCompletion success s
  | .pendingMarkStoreEnded made => Sys2Proof.Machine.execPendingMarkStoreEnded made s

end Sys2Proof.Machine
end

