-- ==== Sys2Proof/Safety.lean ====
section
/-! DEFINITION. What a station keeps in every step: the predicates that the statements about all states are made of. -/

namespace Sys2Proof.Machine

/-- No request waits that the decision table refuses (R131). -/
def DecisionsTaken (s : State) : Prop := ∀ r, s.gate.presented = some r → gateDecision s r = .forward

/-- No candidate waits on a READY port (R137). -/
def PortGranted (s : State) : Prop :=
  (s.gate.portReady && s.grd.state != .strapFault && s.sup.step != .loading) = true →
    bridgeCandidate s = none ∧ s.gate.eraseWaiting = none

/-- A dozing station whose timer has run out has a reason not to be DORMANT (R162). -/
def AwakeForCause (s : State) : Prop :=
  ¬(s.sup.activity = .doze ∧ s.sup.inactivity = .expired ∧ s.eng.queue = [] ∧ s.storesQuiet
      ∧ s.line.view ≠ .round)

/-- Nothing is left over between events: every trigger input is taken, every decision and grant is made. -/
structure Settled (s : State) : Prop where
  notices : s.notices = []
  decided : DecisionsTaken s
  granted : PortGranted s
  awake : AwakeForCause s

/-- The answer of a command that ends in u, but for a station in DOZE whose timer has run out, which falls DORMANT in the
event when u has left it nothing to wait for (R162). -/
def EndsIn (c : Instr) (s u : State) : Prop :=
  ∃ t, exec c s = .next t ∧ (t = u ∨ (s.sup.activity = .doze ∧ s.sup.inactivity = .expired ∧ t = u.enterDormant))

/-! ## What the statements name -/

/-- The opening queue after a post (R46, R47); in STRAP_FAULT it stays as it is (R2). -/
def State.queueWith (s : State) (k : RoundKind) (arg : Arg) : List Request :=
  if s.grd.state = .strapFault then s.eng.queue else queuePost k arg s.eng.queue

/-- The supply controller after an activity event at a moment (R161). -/
def State.supplyAfterActivity (s : State) (now : Nat) : Supply :=
  if s.sup.state = .battery ∧ s.grd.state.holding = false ∧ s.grd.state ≠ .strapFault ∧ s.sup.activity ≠ .dormant then
    { s.sup with inactivity := .running (now + 30000), activity := .awake }
  else s.sup

/-- Where trigger actions may take the guard state within an event: a LOCK out of OPEN or ADMIN, a HOLD out of LOCKED
(R118). -/
def GuardState.triggersMay (a b : GuardState) : Prop :=
  b = a ∨ ((a = .opened ∨ a = .admin) ∧ (b = .closing ∨ b = .locked ∨ b = .held)) ∨ (a = .locked ∧ b = .held)

/-- The debounce timer of a key runs out at t with its line DOWN, at a station that is awake or dozing: a press is
recognized (R64, R65). -/
structure PressDue (s : State) (k : Key) (t : Nat) : Prop where
  timer : s.key.debounceOf k = some t
  line : s.pins.keyLines &&& keyMask k ≠ 0
  up : s.key.states &&& keyMask k = 0
  awake : s.sup.activity ≠ .dormant

/-- The state once a press is recognized: the key is DOWN, and the press is activity (R64, R161). -/
def State.withPress (s : State) (k : Key) (t : Nat) : State :=
  { s with
    now := max s.now t
    sup := s.supplyAfterActivity (max s.now t)
    key := { s.key with
      states := s.key.states ||| keyMask k
      debounce := s.key.debounce.filter fun p => p.1 != keyNumber k } }

/-- The sampler back in IDLE (R67, R72, R75). -/
def Keypad.idleAgain (k : Keypad) : Keypad :=
  { k with
    mode := .idle, buffer := [], overlong := false, firstCode := none, target := none, command := none
    shiftFreed := false, entryTimer := none, resetTimer := none, wipeWindow := none }

/-- The state in which the press of a key is about to be recognized: its line is DOWN, its key state UP, and its debounce
timer runs out now (R64, R65). -/
def State.aboutToPress (s : State) (k : Key) : State :=
  { s with
    pins := { s.pins with keyLines := s.pins.keyLines ||| keyMask k }
    key := { s.key with states := s.key.states &&& ~~~keyMask k, debounce := [(keyNumber k, s.now)] } }

/-- From s to t the press of a key is taken as if recognized now: t is what KEY_PRESS makes of s, but for the key's line,
state and debounce timer, and for the inactivity timer, which the press itself restarted when it was recognized (R66,
R161). -/
def PressTakenNow (s : State) (k : Key) (t : State) : Prop :=
  ∃ u, exec (.keyPress k) (s.aboutToPress k) = .next u
    ∧ t = { u with
        pins := s.pins, sup := t.sup, key := { u.key with states := s.key.states, debounce := s.key.debounce } }

/-- A press is neither set aside nor discarded for a CHECK or SETCODE round (R66). -/
def PressFree (s : State) : Prop := setsAside s = false ∧ discardsPress s = false

/-- The station tracks a round with this record, at this place in the frame. -/
structure InRound (s : State) (r : RoundRec) (p : FieldPos) : Prop where
  record : s.eng.round = some r
  pos : s.line.pos = p
  view : s.line.view = .round

/-- A LOCK request of this cause stands in the opening queue (R10, R46). -/
def LockPosted (t : State) (cause : Arg) : Prop := ∃ x, queueFind .lock t.eng.queue = some x ∧ x.arg = cause

/-- The erase asked for is extent n's: it waits for the port, or it has been given to the bank (R138, R151). -/
def EraseAsked (s t : State) (n : Nat) : Prop :=
  (t.wipe.erase = .waiting ∧ t.gate.eraseWaiting = some n)
    ∨ (t.wipe.erase = .issued ∧ t.gate.eraseWaiting = none ∧ t.toBank = s.toBank ++ [.erase n])

/-- A step of the pass from s with the journal j in force (R151): past extent 63 the store of DONE begins; an extent that is
not PUBLIC, and that one, is asked to be erased; for a PUBLIC extent a store begins whose next extent is the first after
it that is not PUBLIC, 64 where none is. -/
structure PassStepTaken (j : Journal) (s t : State) : Prop where
  past : 64 ≤ j.nextExtent → t.wipe.busy = some { j with phase := .done } ∧ t.wipe.erase = .absent
  erases : ∀ e : Extent, j.nextExtent = e.val → s.gate.fixedMarks.get e ≠ .pub →
    t.wipe.busy = none ∧ EraseAsked s t e.val
  skips : ∀ e : Extent, j.nextExtent = e.val → s.gate.fixedMarks.get e = .pub →
    ∃ n, t.wipe.busy = some { j with nextExtent := n, attempts := 0 } ∧ t.wipe.erase = .absent ∧ e.val < n ∧ n ≤ 64
      ∧ (∀ x : Extent, e.val ≤ x.val → x.val < n → s.gate.fixedMarks.get x = .pub)
      ∧ ∀ x : Extent, x.val = n → s.gate.fixedMarks.get x ≠ .pub

/-- No store of tally, hold-owed, policy table, marks, pending mark, journal or credential table is in progress, waits or
is to be repeated, as after power-on (R79, R101, R108, R113, R128, R142). -/
structure NoStoreUnderWay (s : State) : Prop where
  tally : s.tal.tallyStore = {}
  owed : s.tal.owedStore = {}
  policy : s.pol.store = {}
  marks : s.gate.markStore = {}
  pendingMark : s.gate.pmBusy = none ∧ s.gate.pmWaiting = []
  journal : s.wipe.busy = none ∧ s.wipe.again = none
  credentials : s.cred.busy = none ∧ s.cred.waiting = []

/-- Every value a store has or waits to write is at most n. -/
def Store.atMost (st : Store Nat) (n : Nat) : Prop :=
  (∀ v, st.busy = some v → v ≤ n) ∧ ∀ v, st.waiting = some v → v ≤ n

/-- The tally lies between 0 and 99, in force, stored and on its way to storage (R100). -/
structure TallyInRange (s : State) : Prop where
  inForce : s.tal.tally ≤ Config.tallyMax
  stored : s.nv.tally ≤ Config.tallyMax
  store : s.tal.tallyStore.atMost Config.tallyMax

/-- Hold-owed lies between 0 and 3600 seconds, and no deadline lies more than 3600 s ahead (R99, R106). -/
structure HoldInRange (s : State) : Prop where
  owed : s.tal.holdOwed ≤ Config.holdMaxSeconds
  stored : s.nv.holdOwed ≤ Config.holdMaxSeconds
  store : s.tal.owedStore.atMost Config.holdMaxSeconds
  ahead : ∀ d, s.tal.deadline = some d → d ≤ s.now + 1000 * Config.holdMaxSeconds

/-- The outstanding list and the arbiter keep their bounds, and the gate's erase waiting is the wipe engine's (R128,
R133, R137, R138). -/
structure GateInRange (s : State) : Prop where
  outstanding : s.gate.outstanding.length ≤ Config.outstandingMax
  yielded : s.gate.yieldCount ≤ Config.wipeYield
  noneWaiting : s.gate.eraseWaiting = none → s.gate.yieldCount = 0
  sameErase : s.gate.eraseWaiting.isSome = true ↔ s.wipe.erase = .waiting

/-- The opening queue holds at most one request of each kind a station opens, in rising order of kind (R46, R48). -/
structure QueueInOrder (s : State) : Prop where
  rising : s.eng.queue.Pairwise fun a b => kindCode a.kind < kindCode b.kind
  openable : ∀ r ∈ s.eng.queue, kindCode r.kind ≤ 7

/-- The counts of the round engine keep their bounds: absence counts, PARTIAL ROLL count, retries (R46, R54, R62). -/
structure CountsInRange (s : State) : Prop where
  absence : ∀ i : Fin 8, s.eng.absence.get i ≤ Config.lostRounds
  rolls : s.eng.rollCount ≤ Config.rollLimit
  retries : ∀ r ∈ s.eng.queue, r.retries ≤ Config.maxRetries

/-- A request in flight is the one whose header was handed over, or has the kind of the round in progress once the header
has ended (R46, R48, R49). What this rests on: a header handed over waits on an idle line for its START, then is the value
the station drives as a contender; a round in progress has the view ROUND, and no kind before the end of KIND; in every
other view the drive is released and nothing is offered (R22); a station that does not track the line has neither round nor
header; warm-up is a dormant station's, whose inactivity timer is stopped. -/
structure FlightIsTheRounds (s : State) : Prop where
  flight : ∀ x ∈ s.eng.queue, x.inFlight = true →
    (∃ a, s.line.header = some (x.kind, a)) ∨ ∃ r, s.eng.round = some r ∧ r.kind = some x.kind
  header : ∀ k a, s.line.header = some (k, a) →
    (s.line.view = .idle ∧ s.eng.round = none)
      ∨ (s.line.view = .round ∧ s.line.role = .contender ∧ ∃ r, s.eng.round = some r
        ∧ (((∃ b, s.line.pos = .inField .kind b) ∧ s.line.offer = .bits (asBits (kindCode k)))
          ∨ ((s.line.pos = .atMark .arg ∨ ∃ b, s.line.pos = .inField .arg b) ∧ r.kind = some k)))
  inRound : s.eng.round ≠ none → s.line.view = .round
  released : s.line.view ≠ .round → s.line.ownDrive = false ∧ s.line.offer = .nothing
  noKindYet : ∀ r b, s.eng.round = some r → s.line.pos = .inField .kind b → r.kind = none
  untracked : s.tracking = false → s.line.header = none ∧ s.eng.round = none
  warming : s.sup.warmup ≠ none → s.sup.activity = .dormant
  asleep : s.sup.activity = .dormant → ∀ t, s.sup.inactivity ≠ .running t

/-- What an event leaves of the action of entry e that ran in it at a moment, no other entry being armed (R119 to R121). -/
def ActionTaken (a : Action) (e : EntryNo) (s : State) (moment : Nat) (t : State) : Prop :=
  match a with
  | .nop => t.grd.pulseTimer = s.grd.pulseTimer ∧ t.pol.timers = s.pol.timers ∧ t.pol.memos = s.pol.memos
  | .hold n => ∃ d, t.tal.deadline = some d ∧ moment + 1000 * n ≤ d
  | .lock => t.grd.state ≠ .opened ∧ t.grd.state ≠ .admin ∧ (queueFind .lock t.eng.queue).isSome = true
  | .wipe => (queueFind .wipe t.eng.queue).isSome = true
  | .startTimer k n => t.pol.timers.get k = some (moment + 1000 * n)
  | .stopTimer k => t.pol.timers.get k = none
  | .pulse n => t.grd.pulseTimer = some (moment + 1000 * n)
  | .snapshot => t.pol.memos.get e = s.tal.tally

/-- A station in STRAP_FAULT holds nothing back and drives nothing: no key, no request, no round, no operation of the bank,
no armed entry, and its line is released (R2, R127, R135, R153). -/
structure InertInStrapFault (s : State) : Prop where
  inert : s.grd.state = .strapFault → s.sup.state ≠ .off →
    s.eng.queue = [] ∧ s.eng.round = none ∧ s.line.ownDrive = false ∧ s.line.offer = .nothing ∧ s.line.header = none
      ∧ s.wipe.erase = .absent ∧ s.gate.eraseWaiting = none ∧ s.gate.outstanding = [] ∧ s.gate.portReady = false
      ∧ s.cred.plainKey = none ∧ s.cred.genKey = none ∧ s.pol.armed = 0

/-- The states in which a code has opened the station, CLOSING included. -/
def GuardState.open_ : GuardState → Bool
  | .opened | .admin | .closing => true
  | _ => false

/-- The plain key, the matched slot, must-change, the battery-open timer and the open mark lock belong to the open states
(R7, R8, R9, R13, R130). -/
structure KeyInCustody (s : State) : Prop where
  key : s.cred.plainKey.isSome → s.grd.state.open_
  matched : s.grd.matched.isSome → s.grd.state.open_
  admin : s.grd.state = .admin → s.grd.matched = some 0
  user : s.grd.state = .opened → s.grd.matched = some 1 ∨ s.grd.matched = some 2
  mustChange : s.grd.mustChange = true → s.grd.state = .opened ∨ s.grd.state = .closing
  battery : s.grd.batteryTimer.isSome → s.grd.state = .opened ∨ s.grd.state = .admin
  markLock : s.gate.markLockOpen = true → s.grd.state = .admin

end Sys2Proof.Machine
end

