-- ==== Sys2Proof/Certificates/Slice0/Obligations.lean ====
section
/-! DEFINITION. The statements for the provers. exec's answers are told for every state that meets the hypotheses; Settled
(Safety.lean) is what every event leaves behind. -/

open Sys2Proof Sys2Proof.Machine

/-! ## The machine -/

/-- A step takes the command at the front of the queue and runs it on the state with the queue's rest. On an empty
queue one millisecond passes and nothing else changes (the model's choice, log 1). -/
def Obligations.StepTakesTheFrontCommandOrATick : Prop :=
  (∀ (s : State) (c : Instr) (rest : List Instr), s.pending = c :: rest → step s = exec c { s with pending := rest })
    ∧ (∀ s : State, s.pending = [] → step s = .next { s with now := s.now + 1 })

/-- The part as it leaves manufacture, in OFF (R160, R166; the serial, the pins and the straps shown are the model's
choice, logs 4 to 7). -/
def Obligations.ResetIsTheManufacturedPart : Prop :=
  State.reset.sup.state = .off
    ∧ (∀ i : Fin 4, State.reset.nv.slots.get i = { contents := .empty, stamp := 0 })
    ∧ State.reset.nv.liveStamp = 0 ∧ State.reset.nv.pendingSlot = none
    ∧ State.reset.nv.tally = 0 ∧ State.reset.nv.holdOwed = 0
    ∧ (∀ e : Fin 8, entryBehaviour (State.reset.nv.policy.entries.get e) = (.none, .nop)
        ∧ (State.reset.nv.policy.entries.get e).links = 0 ∧ (State.reset.nv.policy.entries.get e).repeats = false
        ∧ (State.reset.nv.policy.entries.get e).armAtStart = false)
    ∧ State.reset.nv.policy.faultDisarm = false ∧ State.reset.nv.policy.frozen = false
    ∧ State.reset.nv.policy.check
        = Config.policyCheckOf false false State.reset.nv.policy.entries
    ∧ (∀ e : Fin 64, State.reset.nv.fixedMarks.get e = .normal) ∧ State.reset.nv.pendingMark = none
    ∧ State.reset.nv.journal = { phase := .none, cause := .none, nextExtent := 0, bad := [], attempts := 0 }
    ∧ State.reset.nv.flags = 0 ∧ State.reset.pending = [] ∧ State.reset.grd.state = .starting

/-- What every step keeps holds at reset. -/
def Obligations.TheKeptPropertiesHoldAtReset : Prop :=
  Settled State.reset ∧ TallyInRange State.reset ∧ HoldInRange State.reset ∧ GateInRange State.reset
    ∧ QueueInOrder State.reset ∧ CountsInRange State.reset ∧ KeyInCustody State.reset
    ∧ InertInStrapFault State.reset ∧ FlightIsTheRounds State.reset

/-- Every command answers a next state, which keeps the queue of commands and leaves nothing over: no trigger input
untaken, no refused request presented, no candidate on a READY port, no dozing station that could sleep (R115, R131,
R137, R162). -/
def Obligations.EveryCommandAnswersASettledNext : Prop :=
  ∀ (c : Instr) (s : State), ∃ t, exec c s = .next t ∧ t.pending = s.pending ∧ Settled t

/-- The tally stays between 0 and 99, in force, stored and on its way to storage (R100). Hold-owed stays within 3600 s
and no deadline lies further ahead (R99, R106). The opening queue keeps one request of a kind, in rising order, and
none only the observer opens (R46, R48). Absence counts, the PARTIAL ROLL count and retries keep their bounds (R46,
R54, R62). A request in flight stays that of the header handed over or of the round in progress (R46, R48, R49), and a
station drives the line only while its view is ROUND (R22). -/
def Obligations.TallyHoldQueueAndCountsStayInRange : Prop :=
  (∀ s t : State, TallyInRange s → step s = .next t → TallyInRange t)
    ∧ (∀ s t : State, HoldInRange s → step s = .next t → HoldInRange t)
    ∧ (∀ s t : State, QueueInOrder s → step s = .next t → QueueInOrder t)
    ∧ (∀ s t : State, CountsInRange s → step s = .next t → CountsInRange t)
    ∧ (∀ s t : State, FlightIsTheRounds s → step s = .next t → FlightIsTheRounds t)

/-- At most four requests are outstanding, an erase is passed over at most eight times, and the gate's waiting erase is
the wipe engine's (R128, R133, R138). -/
def Obligations.TheGateStaysInRange : Prop :=
  ∀ s t : State, GateInRange s → step s = .next t → GateInRange t

/-- The plain key, the matched slot, must-change, the battery-open timer and the open mark lock are held in the open
states alone (R7, R8, R9, R13, R130). -/
def Obligations.TheKeyIsHeldOnlyWhileOpen : Prop :=
  ∀ s t : State, KeyInCustody s → step s = .next t → KeyInCustody t

/-- Every access sent to the bank in an event is one the decision table forwards in the state the event ends in: with
bus power, and in OPEN without must-change, in ADMIN, or as a READ of a PUBLIC extent (R131, R133). -/
def Obligations.AccessesReachTheBankOnlyWhenForwarded : Prop :=
  ∀ (c : Instr) (s t : State) (l : List BankOp) (r : BridgeRequest), exec c s = .next t → t.toBank = s.toBank ++ l →
    .access r ∈ l →
      gateDecision t r = .forward ∧ t.sup.state = .bus
        ∧ ((t.grd.state = .opened ∧ t.grd.mustChange = false) ∨ t.grd.state = .admin
            ∨ (r.kind = .read ∧ t.gate.fixedMarks.get r.extent = .pub))

/-- What the station has sent to the bridge and to the bank stands: a command only adds to it. The clock does not run
back. Both are the model's own fields: the two records are log 33's, the clock is that of logs 1 and 2. No command writes
the serial stored at manufacture; the serial in force changes only as LOADING reads it, the straps only at power-on or in
OFF, where the serial in force is the stored one (R158, R165, R166). -/
def Obligations.WhatNoCommandTakesBack : Prop :=
  (∀ (c : Instr) (s t : State), exec c s = .next t →
      (∃ l, t.toBridge = s.toBridge ++ l) ∧ ∃ l, t.toBank = s.toBank ++ l)
    ∧ (∀ (c : Instr) (s t : State), exec c s = .next t →
        s.now ≤ t.now
          ∧ t.nv.serial = s.nv.serial
          ∧ (s.sup.state ≠ .off → t.sup.state = .off → t.eng.serial = s.nv.serial)
          ∧ (s.sup.state = .off → t.sup.state ≠ .off → t.eng.serial = s.nv.serial)
          ∧ ((∀ r, c ≠ .loadingEnd r) → (s.sup.state = .off ↔ t.sup.state = .off) → t.eng.serial = s.eng.serial)
          ∧ (s.sup.state ≠ .off → t.sup.state ≠ .off → t.sup.stn = s.sup.stn ∧ t.sup.roster = s.sup.roster))

/-- STRAP_FAULT lasts until power is removed, and in it the station stays inert (R2). -/
def Obligations.StrapFaultLastsAndIsInert : Prop :=
  ∀ s t : State, InertInStrapFault s → step s = .next t →
    InertInStrapFault t
      ∧ (s.grd.state = .strapFault → s.sup.state ≠ .off → t.grd.state = .strapFault ∨ t.sup.state = .off)

/-- A change of guard state is handed to the sampler, which returns to IDLE and drops what it held, to the gate, which
sets the session marks WRITABLE on entry to OPEN or ADMIN and closes the mark lock on leaving ADMIN, and to the
triggers; no record is stored by it (R18, R78, R130). That a CHECK or SETCODE request whose held entry or held change is
gone already stays queued is the model's choice (log 53). -/
def Obligations.GuardChangesAreHandedOn : Prop :=
  ∀ (s : State) (g : GuardState), s.grd.state ≠ g →
    (s.setGuard g).grd = { s.grd with state := g }
      ∧ (s.setGuard g).key = { s.key.idleAgain with heldEntry := none, heldChange := none }
      ∧ (s.setGuard g).eng.queue = s.eng.queue.filter (fun r =>
          r.inFlight || !((r.kind == .check && s.key.heldEntry.isSome) || (r.kind == .setcode && s.key.heldChange.isSome)))
      ∧ (s.setGuard g).gate.session
          = (if g = .opened ∨ g = .admin then Vector.replicate 64 .writable else s.gate.session)
      ∧ (s.setGuard g).gate.markLockOpen = (s.gate.markLockOpen && decide (s.grd.state ≠ .admin))
      ∧ (s.setGuard g).notices = s.notices ++ [.entered g]
      ∧ (s.setGuard g).nv = s.nv ∧ (s.setGuard g).cred = s.cred ∧ (s.setGuard g).tal = s.tal
      ∧ (s.setGuard g).wipe = s.wipe ∧ (s.setGuard g).pol = s.pol ∧ (s.setGuard g).stat = s.stat

/-- The indicator lines by the table of R19: an awake station pulls them by its guard state and by whether it is
collecting, a running PULSE adds IND_R; a station in STRAP_FAULT, in DOZE, in DORMANT or in OFF releases all three
(R19). -/
def Obligations.TheIndicatorsFollowTheGuardState : Prop :=
  ∀ s : State,
    (s.indicators.red = true ↔ s.sup.state ≠ .off ∧ s.sup.activity = .awake
      ∧ (s.grd.state = .locked ∨ s.grd.state = .held ∨ (s.grd.pulseTimer ≠ none ∧ s.grd.state ≠ .strapFault)))
    ∧ (s.indicators.green = true ↔ s.sup.state ≠ .off ∧ s.sup.activity = .awake
      ∧ (s.grd.state = .blank ∨ s.grd.state = .opened ∨ s.grd.state = .admin ∨ s.grd.state = .closing))
    ∧ (s.indicators.blue = true ↔ s.sup.state ≠ .off ∧ s.sup.activity = .awake
      ∧ (s.grd.state = .blank ∨ s.grd.state = .wiping
        ∨ ((s.grd.state = .locked ∨ s.grd.state = .held ∨ s.grd.state = .opened ∨ s.grd.state = .admin)
          ∧ s.key.mode ≠ .idle)))

/-! ## Supply -/

/-- POWER_ON in OFF, when a supply appears: every volatile item takes its power-on value, and the straps send the
station to LOADING, or to STRAP_FAULT when the size code is 0 or the number is not below the size (R158, R160, R165).
OFF: with the battery removed and no bus power, or with the supply gone and no battery, every volatile item is lost and
storage stands; a battery change on bus power changes nothing but its sense (R159, R160). The model's readings, not the
manual's words: that OFF shows the power-on values (log 5), that SUPPLY_FAIL leaves BUS_SENSE absent (log 32), and the
roster size shown after straps that fail (log 30). -/
def Obligations.PowerComesAndGoes : Prop :=
  ((∀ stn rsz : BitVec 3, strapsBad stn rsz = true ↔ rsz = 0 ∨ rsz.toNat + 1 ≤ stn.toNat)
      ∧ ∀ (s : State) (stn rsz : BitVec 3) (bus pfw bat : Bool), s.sup.state = .off → ((bus && !pfw) || bat) = true →
        exec (.powerOn stn rsz bus pfw bat) s = .next
          { State.atPowerOn s.pending s.now s.draws s.toBridge s.toBank s.nv
              { s.pins with busSense := bus, pfw := pfw, batSense := bat }
              { state := if bus && !pfw then .bus else .battery
                stn := stn
                roster := rsz.toNat + 1
                step := if strapsBad stn rsz then .reading else .loading } with
            grd := { state := if strapsBad stn rsz then .strapFault else .starting } })
    ∧ ((∀ s : State, s.sup.state ≠ .off → s.pins.batSense = true → (s.pins.busSense && !s.pins.pfw) = false →
          exec .batteryRemoved s = .next (State.atPowerOn s.pending s.now s.draws s.toBridge s.toBank s.nv
            { s.pins with batSense := false } { state := .off }))
        ∧ (∀ s : State, s.sup.state ≠ .off → s.pins.batSense = false →
          exec .supplyFail s = .next (State.atPowerOn s.pending s.now s.draws s.toBridge s.toBank s.nv
            { s.pins with busSense := false } { state := .off }))
        ∧ ∀ (fitted : Bool) (s : State), Settled s → s.sup.state = .bus →
          exec (.batteryChangeInBus fitted) s = .next { s with pins := { s.pins with batSense := fitted } })

/-- LOADING_END: the records come into force with the substitutes of those that failed, STARTING goes on in SYNCING
with a ROLL posted; storage does not change, and a serial that failed is in force as read, its record left as it is (R110,
R113, R116, R129, R142, R166, R167). With no store under way before it, the owner of each other record that failed begins
the store of its substitute, the pending mark is emptied where one is stored, and a journal in force at ORDERED asks for the
table's destruction, which begins at once or after the one store-back begun (R79, R80, R98, R141, R149, R166). The model's
choices, not the spec's: that store-backs begin at LOADING_END is log 60; the order of the credential table's store-backs,
slots ascending, header, pending slot, and with it which is begun first, is log 63; that the idle timer starts there, the
line taken as recessive, is log 62. -/
def Obligations.LoadingEndBringsTheRecordsIntoForce : Prop :=
  ∀ (r : LoadReport) (s : State), s.sup.state ≠ .off → s.sup.step = .loading → s.grd.state = .starting →
    ∃ t, exec (.loadingEnd r) s = .next t
      ∧ t.sup.step = .done ∧ t.sup.state = s.pins.supply ∧ t.grd = s.grd
      ∧ t.line = { view := .syncing, idleTimer := some (s.now + 2) }
      ∧ t.key = { s.key with states := s.pins.keyLines }
      ∧ t.eng = { s.eng with queue := queuePost .roll 0 s.eng.queue, serial := r.serial.getD s.eng.serial }
      ∧ t.stat.flags = (if r.flags then 0 else s.nv.flags)
          ||| (if LoadReport.anyFailed r then Flag.storeFail.mask else 0)
      ∧ t.tal.tally = (if r.tally then 99 else s.tal.tally)
      ∧ t.tal.holdOwed = (if r.holdOwed then 3600 else s.tal.holdOwed)
      ∧ t.pol.table = (if r.policy then PolicyTable.idle else s.pol.table)
      ∧ t.pol.last = lastValues t.pol.table t.tal.tally false
      ∧ t.pol.latch = (t.pol.table.faultDisarm && FlagSet.any t.stat.flags disarmingFlags)
      ∧ (∀ i, t.cred.slots.get i = if i ∈ failedSlots r then {} else s.cred.slots.get i)
      ∧ t.cred.liveStamp = (if r.header then greatestStamp t.cred.slots else s.cred.liveStamp)
      ∧ t.cred.pendingSlot = (if r.pendingSlot then none else s.cred.pendingSlot)
      ∧ t.gate.fixedMarks = (if r.fixedMarks then Vector.replicate 64 .normal else s.gate.fixedMarks)
      ∧ t.wipe.journal = (if r.journal then { phase := .ordered, cause := .adopted } else s.wipe.journal)
      ∧ t.nv = s.nv
      ∧ t.stat.store = (if LoadReport.anyFailed r then { busy := some t.stat.flags } else {})
      ∧ (NoStoreUnderWay s →
          t.tal.tallyStore = (if r.tally then { busy := some 99 } else {})
          ∧ t.tal.owedStore = (if r.holdOwed then { busy := some 3600 } else {})
          ∧ t.pol.store = (if r.policy then { busy := some PolicyTable.idle } else {})
          ∧ t.gate.markStore = (if r.fixedMarks then { busy := some ⟨Vector.replicate 64 .normal, false⟩ } else {})
          ∧ t.gate.pmBusy = (if r.pendingMark = true ∨ s.nv.pendingMark ≠ none then some .empty else none)
          ∧ t.wipe.busy = (if r.journal then some { phase := .ordered, cause := .adopted } else none)
          ∧ ∀ jobs : List CredJob,
            jobs = (failedSlots r).map CredJob.slotBack
              ++ (if r.header then [.headerBack t.cred.liveStamp] else [])
              ++ (if r.pendingSlot then [.pendingBack] else []) →
            (t.wipe.journal.phase ≠ .ordered → t.cred.busy = jobs.head? ∧ t.cred.waiting = jobs.tail)
            ∧ (t.wipe.journal.phase = .ordered →
                t.cred.busy = some (jobs.head?.getD .destroy)
                  ∧ t.cred.waiting = (if jobs = [] then [] else [.destroy])))

/-- BUS_POWER_FALL, in LOADING too (log 31): the gate abandons its list and refuses the presented request NO_POWER,
the wipe engine abandons its erase, an open station ends LOCKED or HELD without its key, and where it may doze the
inactivity timer starts again (R12, R136, R153, R159, R161). -/
def Obligations.BusPowerFallLocksAndAbandons : Prop :=
  ∀ (cause : FallCause) (s : State), s.sup.state = .bus →
    ∃ t, exec (.busPowerFall cause) s = .next t
      ∧ t.sup.state = .battery
      ∧ t.pins = (match cause with
          | .senseLost => { s.pins with busSense := false }
          | .warning => { s.pins with pfw := true })
      ∧ t.gate.presented = none ∧ t.gate.outstanding = [] ∧ t.gate.portReady = false
      ∧ t.gate.eraseWaiting = none ∧ t.gate.yieldCount = 0
      ∧ t.wipe.erase = .absent ∧ t.wipe.journal = s.wipe.journal ∧ t.nv = s.nv ∧ t.toBank = s.toBank
      ∧ t.toBridge = s.toBridge ++ (match s.gate.presented with | some r => [.refusal r .noPower] | none => [])
      ∧ t.stat.flags = s.stat.flags ||| (if s.gate.outstanding = [] then 0 else Flag.abandoned.mask)
      ∧ (s.grd.state = .opened ∨ s.grd.state = .admin ∨ s.grd.state = .closing →
          (t.grd.state = .locked ∨ t.grd.state = .held) ∧ t.cred.plainKey = none ∧ t.grd.matched = none
            ∧ t.grd.mustChange = false)
      ∧ (¬(s.grd.state = .opened ∨ s.grd.state = .admin ∨ s.grd.state = .closing) →
          s.grd.state.triggersMay t.grd.state ∧ t.cred.plainKey = s.cred.plainKey)
      ∧ (t.grd.state.holding = false → t.grd.state ≠ .strapFault → s.sup.activity ≠ .dormant →
          t.sup.inactivity = .running (s.now + 30000) ∧ t.sup.activity = .awake)

/-- BUS_POWER_RISE, in LOADING too (log 31): the battery-open and inactivity timers stop, DOZE ends, a dormant station
begins its warm-up, and a pass begins or resumes with the step it stands at: KEY_GONE begins the store of PASSING, and
PASSING asks for the erase of its next extent, skips PUBLIC extents or ends (R13, R150, R151, R153, R159, R161, R163).
That DOZE ends in STRAP_FAULT
too is the model's choice (log 30). -/
def Obligations.BusPowerRiseWakesAndResumes : Prop :=
  ∀ (cause : RiseCause) (s : State), s.sup.state = .battery →
    (match cause with
      | .senseAppeared => s.pins.pfw = false
      | .warningReleased => s.pins.busSense = true) →
    ∃ t, exec (.busPowerRise cause) s = .next t
      ∧ t.sup.state = .bus
      ∧ t.pins = { s.pins with busSense := true, pfw := false }
      ∧ t.grd.batteryTimer = none ∧ s.grd.state.triggersMay t.grd.state
      ∧ t.sup.inactivity = .stopped
      ∧ t.sup.activity = (if s.sup.activity = .doze then .awake else s.sup.activity)
      ∧ t.sup.warmup = (if s.sup.activity = .dormant ∧ s.sup.warmup = none then some (s.now + 20) else s.sup.warmup)
      ∧ t.nv = s.nv ∧ t.wipe.journal = s.wipe.journal ∧ t.tal.tally = s.tal.tally ∧ t.cred.slots = s.cred.slots
      ∧ (s.grd.state = .wiping → s.wipe.busy = none → s.wipe.again = none →
          (s.wipe.journal.phase = .keyGone → t.wipe.busy = some { s.wipe.journal with phase := .passing })
          ∧ (s.wipe.journal.phase = .passing → s.wipe.erase = .absent → s.gate.eraseWaiting = none →
              PassStepTaken s.wipe.journal s t))

/-- INACTIVITY_TIMER_EXPIRY: AWAKE goes to DOZE for DORMANT_AFTER; DOZE goes to DORMANT when its three conditions hold,
and waits with the timer expired when one does not (R161, R162). WAKE begins the warm-up, and WARMUP_END ends it:
AWAKE, SYNCING, key states as the lines are, the PARTIAL ROLL count 0 and a ROLL posted (R163, R164). That the line
interface shows SYNCING in DORMANT, where no view is kept, and that warm-up ends on a line taken as recessive, are the
model's choices (logs 51 and 62). -/
def Obligations.InactivityDozesAndWakingRolls : Prop :=
  (∀ (s : State) (t : Nat), Settled s → s.sup.inactivity = .running t →
      (s.sup.activity = .awake →
        exec .inactivityTimerExpiry s = .next { s with
          now := max s.now t
          sup := { s.sup with activity := .doze, inactivity := .running (max s.now t + 300000) } })
      ∧ (s.sup.activity = .doze →
        exec .inactivityTimerExpiry s = .next
          (if s.eng.queue = [] ∧ s.storesQuiet = true ∧ s.line.view ≠ .round then
            { s with
              now := max s.now t
              sup := { s.sup with activity := .dormant, inactivity := .stopped }
              line := {}
              key := { s.key with debounce := [] } }
          else { s with now := max s.now t, sup := { s.sup with inactivity := .expired } })))
    ∧ ((∀ (source : WakeSource) (s : State), Settled s → s.sup.state ≠ .off → s.sup.activity = .dormant →
          s.sup.warmup = none → (∀ k, source = .key k → s.pins.keyLines &&& keyMask k ≠ 0) →
          exec (.wake source) s = .next { s with sup := { s.sup with warmup := some (s.now + 20) } })
        ∧ ∀ (s : State) (t : Nat), Settled s → s.sup.warmup = some t →
          exec .warmupEnd s = .next { s with
            now := max s.now t
            sup := { s.sup with
              activity := .awake
              warmup := none
              inactivity := if s.sup.state = .battery ∧ s.grd.state.holding = false ∧ s.grd.state ≠ .strapFault then
                .running (max s.now t + 30000) else .stopped }
            line := { view := .syncing, idleTimer := some (max s.now t + 2) }
            key := { s.key with states := s.pins.keyLines, debounce := [] }
            eng := { s.eng with rollCount := 0, queue := s.queueWith .roll 0 } })

/-! ## Keypad -/

/-- KEY_LINE_CHANGE: a level that differs from the key state starts the debounce timer at 20 ms, or leaves it running;
a level that agrees stops it. A sampler that does not run takes the level alone (R64). KEY_RELEASE changes the key
state; in RESET_HOLD the release of SHIFT or UNLOCK also abandons the chord (R64, R65, R70), and with a command
pending the release of SHIFT is remembered (log 49). -/
def Obligations.KeyLinesAndReleasesRunTheSampler : Prop :=
  (∀ (k : Key) (down : Bool) (s : State), Settled s →
      exec (.keyLineChange k down) s = .next
        (if s.sup.state ≠ .off ∧ s.sup.step = .done ∧ (s.sup.activity = .dormant → s.sup.warmup ≠ none) then
          { s with
            pins := s.pins.withKey k down
            key := { s.key with debounce :=
              if (s.key.states &&& keyMask k ≠ 0) = (down = true) then
                s.key.debounce.filter fun p => p.1 != keyNumber k
              else if s.key.debounceOf k = none then s.key.debounce ++ [(keyNumber k, s.now + 20)]
              else s.key.debounce } }
        else { s with pins := s.pins.withKey k down }))
    ∧ (∀ (k : Key) (s : State) (t : Nat), Settled s → s.key.debounceOf k = some t → s.pins.keyLines &&& keyMask k = 0 →
        s.key.states &&& keyMask k ≠ 0 →
        exec (.keyRelease k) s = .next
          { s with
            now := max s.now t
            key := (fun key : Keypad =>
                if s.key.mode = .resetHold ∧ (k = .shift ∨ k = .unlock) then key.idleAgain else key)
              { s.key with
                states := s.key.states &&& ~~~keyMask k
                shiftFreed := s.key.shiftFreed || decide (k = .shift ∧ s.key.command ≠ none)
                debounce := s.key.debounce.filter fun p => p.1 != keyNumber k } })

/-- A press is classified by the keys already DOWN: SHIFT is a modifier, a digit with another digit is ignored, with
SHIFT it is a chord, UNLOCK with SHIFT is the chord SHIFT+UNLOCK (R65). KEY_PRESS that no rule takes: a modifier or an
ignored press, or a press in STRAP_FAULT, STARTING, CLOSING or WIPING, or during a CHECK or SETCODE round in flight, is
activity and a key state alone; between ARG and ANSWER of such a round it is set aside (R65, R66), which the model does in
every guard state, those four included (log 24). -/
def Obligations.PressesAreClassifiedAndTaken : Prop :=
  (∀ down : BitVec 12,
      classify .shift down = .modifier
      ∧ (∀ d : Digit,
          classify (.digit d) down =
            if ∃ e : Digit, e ≠ d ∧ down.getLsbD e.val = true then .ignored
            else if down.getLsbD 11 = true then .chord d else .digit d)
      ∧ classify .unlock down = if down.getLsbD 11 = true then .chordUnlock else .unlock)
    ∧ (∀ (k : Key) (s : State) (t : Nat), Settled s → PressDue s k t →
        (PressFree s →
          (s.grd.state = .strapFault ∨ s.grd.state = .starting ∨ s.grd.state = .closing ∨ s.grd.state = .wiping
            ∨ classify k s.key.states = .modifier ∨ classify k s.key.states = .ignored) →
          exec (.keyPress k) s = .next (s.withPress k t))
        ∧ (setsAside s = false → discardsPress s = true → exec (.keyPress k) s = .next (s.withPress k t))
        ∧ (setsAside s = true →
          exec (.keyPress k) s = .next
            { s.withPress k t with key := { (s.withPress k t).key with setAside := s.key.setAside ++ [k] } }))

/-- A plain digit in LOCKED or HELD joins the entry buffer, up to 15, with the entry timer restarted; past 15 it marks
the buffer OVERLONG (R67). A submit: in LOCKED an entry of 7 to 15 digits is held under a fresh nonce and CHECK is
posted; a short or OVERLONG entry, or any entry in HELD, costs a 1 s PULSE. The buffer is cleared in every case (R68).
-/
def Obligations.EntriesFillAndAreSubmitted : Prop :=
  (∀ (d : Digit) (s : State) (t : Nat), Settled s → PressDue s (.digit d) t → PressFree s →
      classify (.digit d) s.key.states = .digit d → (s.grd.state = .locked ∨ s.grd.state = .held) →
      (s.key.mode = .idle ∨ s.key.mode = .collecting) →
      exec (.keyPress (.digit d)) s = .next
        { s.withPress (.digit d) t with
          key := { (s.withPress (.digit d) t).key with
            mode := .collecting
            buffer := if s.key.buffer.length < 15 then s.key.buffer ++ [d] else s.key.buffer
            overlong := s.key.overlong || decide (15 ≤ s.key.buffer.length)
            entryTimer := some (max s.now t + 10000) } })
    ∧ (∀ (s : State) (t : Nat), Settled s → PressDue s .unlock t → PressFree s →
        classify .unlock s.key.states = .unlock → (s.grd.state = .locked ∨ s.grd.state = .held) →
        (s.key.mode = .idle ∨ s.key.mode = .collecting) →
        exec (.keyPress .unlock) s = .next
          (if s.grd.state = .locked ∧ 7 ≤ s.key.buffer.length ∧ s.key.overlong = false then
            { s.withPress .unlock t with
              draws := s.draws + 1
              key := { (s.withPress .unlock t).key.idleAgain with
                heldEntry := some ⟨s.key.buffer, Config.freeNonce s.draws, max s.now t + 10000⟩ }
              eng := { s.eng with queue := queuePost .check (Config.freeNonce s.draws) s.eng.queue } }
          else
            { s.withPress .unlock t with
              key := (s.withPress .unlock t).key.idleAgain
              grd := { s.grd with pulseTimer := some (max s.now t + 1000) } }))

/-- The chords that open an entry, in mode IDLE: SHIFT+1 in OPEN and ADMIN a new code for the matched slot, SHIFT+7 in
ADMIN one for slot 3, SHIFT+3, SHIFT+5 and SHIFT+9 in ADMIN a command, SHIFT+6 MARK_ENTRY, SHIFT+UNLOCK in BLANK first
setup and in LOCKED or HELD the reset chord; in OPEN with must-change every chord but SHIFT+0 and SHIFT+1 is ignored
(R70, R71). -/
def Obligations.ChordsOpenTheirEntries : Prop :=
  (∀ (s : State) (t : Nat) (d : Digit), Settled s → PressDue s (.digit d) t → PressFree s →
      classify (.digit d) s.key.states = .chord d → s.key.mode = .idle →
      (∀ m : CodeSlotNo, d = 1 → (s.grd.state = .opened ∨ s.grd.state = .admin) → s.grd.matched = some m →
        exec (.keyPress (.digit d)) s = .next { s.withPress (.digit d) t with
          key := { (s.withPress (.digit d) t).key.idleAgain with
            mode := .newFirst
            target := some (m, slotRole (s.cred.slots.get m).contents)
            entryTimer := some (max s.now t + 10000) } })
      ∧ (s.grd.state = .admin → d = 7 →
        exec (.keyPress (.digit d)) s = .next { s.withPress (.digit d) t with
          key := { (s.withPress (.digit d) t).key.idleAgain with
            mode := .newFirst, target := some (3, .duress), entryTimer := some (max s.now t + 10000) } })
      ∧ (s.grd.state = .admin → d = 3 ∨ d = 5 ∨ d = 6 ∨ d = 9 →
        exec (.keyPress (.digit d)) s = .next { s.withPress (.digit d) t with
          key := { (s.withPress (.digit d) t).key.idleAgain with
            mode := if d = 6 then .markEntry else .command
            command := some ⟨d, []⟩
            entryTimer := if d = 9 then none else some (max s.now t + 10000)
            wipeWindow := if d = 9 then some (max s.now t + 5000) else none } })
      ∧ (s.grd.state = .opened → s.grd.mustChange = true → d ≠ 0 → d ≠ 1 →
        exec (.keyPress (.digit d)) s = .next (s.withPress (.digit d) t)))
    ∧ ∀ (s : State) (t : Nat), Settled s → PressDue s .unlock t → PressFree s →
      classify .unlock s.key.states = .chordUnlock →
      (s.grd.state = .blank → s.key.mode = .idle →
        exec (.keyPress .unlock) s = .next { s.withPress .unlock t with
          key := { (s.withPress .unlock t).key.idleAgain with
            mode := .newFirst, target := some (0, .admin), entryTimer := some (max s.now t + 10000) } })
      ∧ ((s.grd.state = .locked ∨ s.grd.state = .held) → (s.key.mode = .idle ∨ s.key.mode = .collecting) →
        exec (.keyPress .unlock) s = .next { s.withPress .unlock t with
          key := { (s.withPress .unlock t).key.idleAgain with
            mode := .resetHold, resetTimer := some (max s.now t + 10000) } })

/-- A digit in COMMAND or MARK_ENTRY, plain or with SHIFT still held since the chord that opened it: SHIFT+3 clears
the non-empty slot 1, 2 or 3 that it names, with a stamp left, through a held change of role EMPTY and SETCODE;
SHIFT+5 opens a new USER code for slot 1 or 2; any other digit in COMMAND is refused with a 1 s PULSE, an EMPTY slot
and the live stamp 65535 included; in MARK_ENTRY it is kept up to the fourth (R65, R72, R73; that a pending SHIFT+9
takes the digit as a chord is log 49). UNLOCK in MARK_ENTRY posts SETMARK FIXED when three digits spell an extent
below 64 and a mark and the mark lock is OPEN, and is refused else; UNLOCK in COMMAND is refused (R72, R73). A chord
in COMMAND or MARK_ENTRY refuses the command, but for SHIFT+0, which locks, and the second SHIFT+9, which posts WIPE
with cause ADMIN_COMMAND (R71, R72). The typing of a new code: a digit joins the buffer, up to 15, with the entry
timer restarted; the first UNLOCK keeps it as the first code and asks for the second; chords but SHIFT+0 are ignored,
SHIFT+UNLOCK among them (R71, R75). -/
def Obligations.CommandsTakeTheirDigits : Prop :=
  (∀ k : Keypad, k.digitFollows = true ↔
      (k.mode = .command ∨ k.mode = .markEntry) ∧ k.shiftFreed = false ∧ ∃ c, k.command = some c ∧ c.chord ≠ 9)
    ∧ (∀ (s : State) (t : Nat) (d : Digit) (c : PendingCommand), Settled s → PressDue s (.digit d) t → PressFree s →
      (classify (.digit d) s.key.states = .digit d
        ∨ (classify (.digit d) s.key.states = .chord d ∧ s.key.digitFollows = true)) →
      s.grd.state = .admin → s.key.command = some c →
      (∀ m : CodeSlotNo, s.key.mode = .command → m ≠ 0 → m.val = d.val →
        (c.chord = 3 → (s.cred.slots.get m).contents ≠ .empty → s.cred.liveStamp ≠ 65535 →
          exec (.keyPress (.digit d)) s = .next { s.withPress (.digit d) t with
            key := { (s.withPress (.digit d) t).key.idleAgain with
              heldChange := some ⟨m, .empty, s.cred.liveStamp + 1, [], max s.now t + 10000⟩ }
            eng := { s.eng with
              queue := queuePost .setcode (setcodeArg m .empty (s.cred.liveStamp + 1)) s.eng.queue } })
        ∧ (c.chord = 5 → m ≠ 3 →
          exec (.keyPress (.digit d)) s = .next { s.withPress (.digit d) t with
            key := { (s.withPress (.digit d) t).key.idleAgain with
              mode := .newFirst, target := some (m, .user), entryTimer := some (max s.now t + 10000) } }))
      ∧ (s.key.mode = .command →
          (c.chord = 9 ∨ d = 0 ∨ 3 < d.val ∨ (c.chord = 5 ∧ d = 3)
            ∨ (c.chord = 3 ∧ ∃ m : CodeSlotNo, m.val = d.val
                ∧ ((s.cred.slots.get m).contents = .empty ∨ s.cred.liveStamp = 65535))) →
        exec (.keyPress (.digit d)) s = .next { s.withPress (.digit d) t with
          key := (s.withPress (.digit d) t).key.idleAgain
          grd := { s.grd with pulseTimer := some (max s.now t + 1000) } })
      ∧ (s.key.mode = .markEntry →
        exec (.keyPress (.digit d)) s = .next { s.withPress (.digit d) t with
          key := { (s.withPress (.digit d) t).key with
            command := some { c with digits := if c.digits.length < 4 then c.digits ++ [d] else c.digits }
            entryTimer := some (max s.now t + 10000) } }))
    ∧ (∀ (s : State) (t : Nat) (c : PendingCommand), Settled s → PressDue s .unlock t → PressFree s →
      classify .unlock s.key.states = .unlock → s.grd.state = .admin → s.key.mode = .markEntry →
      s.key.command = some c →
      (∀ x y z : Digit, c.digits = [x, y, z] → 10 * x.val + y.val < 64 → z.val ≤ 2 → s.gate.markLockOpen = true →
        exec (.keyPress .unlock) s = .next { s.withPress .unlock t with
          key := (s.withPress .unlock t).key.idleAgain
          eng := { s.eng with
            queue := queuePost .setmark (setmarkFixed (10 * x.val + y.val) z.val) s.eng.queue } })
      ∧ (c.digits.length ≠ 3 ∨ s.gate.markLockOpen = false
          ∨ (∃ x y z : Digit, c.digits = [x, y, z] ∧ (64 ≤ 10 * x.val + y.val ∨ 2 < z.val)) →
        exec (.keyPress .unlock) s = .next { s.withPress .unlock t with
          key := (s.withPress .unlock t).key.idleAgain
          grd := { s.grd with pulseTimer := some (max s.now t + 1000) } }))
    ∧ (∀ (s : State) (t : Nat), Settled s → PressDue s .unlock t → PressFree s → s.grd.state = .admin →
      (s.key.mode = .command
        ∨ (s.key.mode = .markEntry ∧ classify .unlock s.key.states = .chordUnlock)) →
      exec (.keyPress .unlock) s = .next { s.withPress .unlock t with
        key := (s.withPress .unlock t).key.idleAgain
        grd := { s.grd with pulseTimer := some (max s.now t + 1000) } })
    ∧ (∀ (s : State) (t : Nat) (d : Digit), Settled s → PressDue s (.digit d) t → PressFree s →
      classify (.digit d) s.key.states = .chord d → s.grd.state = .admin →
      (s.key.mode = .command ∨ s.key.mode = .markEntry) → s.key.digitFollows = false →
      (d = 0 →
        ∃ u, exec (.keyPress (.digit d)) s = .next u ∧ (queueFind .lock u.eng.queue).isSome = true
          ∧ (s.pol.armed = 0 → LockPosted u 1) ∧ u.grd.state ≠ .admin ∧ u.grd.state ≠ .opened
          ∧ u.key.mode = .idle ∧ u.key.command = none)
      ∧ (∀ c, s.key.mode = .command → s.key.command = some c → c.chord = 9 → d = 9 →
        exec (.keyPress (.digit d)) s = .next { s.withPress (.digit d) t with
          key := (s.withPress (.digit d) t).key.idleAgain
          eng := { s.eng with queue := queuePost .wipe 3 s.eng.queue } })
      ∧ (d ≠ 0 → (d = 9 → s.key.mode = .markEntry ∨ ∀ c, s.key.command = some c → c.chord ≠ 9) →
        exec (.keyPress (.digit d)) s = .next { s.withPress (.digit d) t with
          key := (s.withPress (.digit d) t).key.idleAgain
          grd := { s.grd with pulseTimer := some (max s.now t + 1000) } }))
    ∧ ∀ (s : State) (t : Nat), Settled s → PressFree s →
      (s.grd.state = .blank ∨ s.grd.state = .opened ∨ s.grd.state = .admin) →
      (s.key.mode = .newFirst ∨ s.key.mode = .newSecond) →
      (∀ d : Digit, PressDue s (.digit d) t → classify (.digit d) s.key.states = .digit d →
        exec (.keyPress (.digit d)) s = .next { s.withPress (.digit d) t with
          key := { (s.withPress (.digit d) t).key with
            buffer := if s.key.buffer.length < 15 then s.key.buffer ++ [d] else s.key.buffer
            overlong := s.key.overlong || decide (15 ≤ s.key.buffer.length)
            entryTimer := some (max s.now t + 10000) } })
      ∧ (PressDue s .unlock t → classify .unlock s.key.states = .unlock → s.key.mode = .newFirst →
        exec (.keyPress .unlock) s = .next { s.withPress .unlock t with
          key := { (s.withPress .unlock t).key with
            mode := .newSecond
            firstCode := some ⟨s.key.buffer, s.key.overlong⟩
            buffer := []
            overlong := false
            entryTimer := some (max s.now t + 10000) } })
      ∧ (∀ d : Digit, PressDue s (.digit d) t → classify (.digit d) s.key.states = .chord d → d ≠ 0 →
        exec (.keyPress (.digit d)) s = .next (s.withPress (.digit d) t))
      ∧ (PressDue s .unlock t → classify .unlock s.key.states = .chordUnlock →
        exec (.keyPress .unlock) s = .next (s.withPress .unlock t))

/-- The second typing of a new code: equal, of legal length, no duplicate of another slot and with a stamp left, it
becomes the held change and SETCODE is posted; otherwise a 1 s PULSE. A duplicate has the length and the verifier of
the code in some non-empty slot other than the target (R75, R76, R79, R81). The ARG of the SETCODE is slot, role and the
low twelve bits of the stamp (R175). -/
def Obligations.TheSecondTypingHoldsTheChangeOrPulses : Prop :=
  (∀ (s : State) (t : Nat) (first : TypedCode) (target : CodeSlotNo) (role : Role) (duplicate : Bool), Settled s →
    PressDue s .unlock t → PressFree s →
    (duplicate = true ↔ ∃ i : CodeSlotNo, i ≠ target ∧ ∃ code, slotMark (s.cred.slots.get i).contents = some code
      ∧ s.key.buffer.length = code.length ∧ Config.verifierOf s.key.buffer = code.verifier) →
    classify .unlock s.key.states = .unlock →
    (s.grd.state = .blank ∨ s.grd.state = .opened ∨ s.grd.state = .admin) → s.key.mode = .newSecond →
    s.key.firstCode = some first → s.key.target = some (target, role) →
    exec (.keyPress .unlock) s = .next
      (if s.key.buffer = first.digits ∧ s.key.overlong = false ∧ first.overlong = false ∧ 7 ≤ s.key.buffer.length
          ∧ s.key.buffer.length ≤ 15 ∧ duplicate = false ∧ s.cred.liveStamp ≠ 65535 then
        { s.withPress .unlock t with
          key := { (s.withPress .unlock t).key.idleAgain with
            heldChange := some ⟨target, role, s.cred.liveStamp + 1, s.key.buffer, max s.now t + 10000⟩ }
          eng := { s.eng with
            queue := queuePost .setcode (setcodeArg target role (s.cred.liveStamp + 1)) s.eng.queue } }
      else
        { s.withPress .unlock t with
          key := (s.withPress .unlock t).key.idleAgain
          grd := { s.grd with pulseTimer := some (max s.now t + 1000) } }))
    ∧ (∀ (c : CodeMark) (w : KeyWrap) (m : Bool), slotMark .empty = none ∧ slotMark (.admin c w) = some c
      ∧ slotMark (.user c w m) = some c ∧ slotMark (.duress c) = some c)
    ∧ ∀ (target : CodeSlotNo) (role : Role) (stamp : BitVec 16),
      (setcodeArg target role stamp).extractLsb' 14 2 = BitVec.ofNat 2 target.val
        ∧ (setcodeArg target role stamp).extractLsb' 12 2 = (match role with
          | .empty => 0#2
          | .admin => 1#2
          | .user => 2#2
          | .duress => 3#2)
        ∧ (setcodeArg target role stamp).extractLsb' 0 12 = stamp.extractLsb' 0 12

/-- SHIFT+2 posts SETMARK SESSION ALL, READ_ONLY when no session mark is READ_ONLY and WRITABLE else; SHIFT+8 in ADMIN
arms every entry with the latch clear and costs a 1 s PULSE with the latch set; SHIFT+4 toggles the mark lock, and a
presented request is decided again. The mode stays IDLE (R74). -/
def Obligations.AdminChordsArmAndToggleTheMarkLock : Prop :=
  ∀ (s : State) (t : Nat), Settled s → PressFree s → s.grd.state = .admin → s.key.mode = .idle →
    (PressDue s (.digit 8) t → classify (.digit 8) s.key.states = .chord 8 →
      exec (.keyPress (.digit 8)) s = .next
        (if s.pol.latch then
          { s.withPress (.digit 8) t with grd := { s.grd with pulseTimer := some (max s.now t + 1000) } }
        else { s.withPress (.digit 8) t with pol := { s.pol with armed := 0xFF#8 } }))
    ∧ (PressDue s (.digit 4) t → classify (.digit 4) s.key.states = .chord 4 →
      exec (.keyPress (.digit 4)) s = .next
        (State.regate { s.withPress (.digit 4) t with gate := { s.gate with markLockOpen := !s.gate.markLockOpen } }))
    ∧ ∀ (s : State) (t : Nat), Settled s → PressFree s →
      (s.grd.state = .admin ∨ (s.grd.state = .opened ∧ s.grd.mustChange = false)) → s.key.mode = .idle →
      PressDue s (.digit 2) t → classify (.digit 2) s.key.states = .chord 2 →
      exec (.keyPress (.digit 2)) s = .next { s.withPress (.digit 2) t with
        eng := { s.eng with
          queue := queuePost .setmark
            (if ∃ e : Extent, s.gate.session.get e = .readOnly then 0b0000000001111111#16 else 0b0000000101111111#16)
            s.eng.queue } }

/-- ENTRY_TIMER_EXPIRY and WIPE_WINDOW_EXPIRY return the sampler to IDLE without a PULSE; RESET_TIMER_EXPIRY does so
and posts WIPE with cause USER_RESET (R67, R70, R72, R73, R75). HELD_ENTRY_TIMER_EXPIRY and HELD_CHANGE_TIMER_EXPIRY
drop what was held and withdraw its request unless that is in flight (R69, R77). -/
def Obligations.GestureTimersAndHeldItemsExpire : Prop :=
  (∀ (s : State) (t : Nat), Settled s →
      (s.key.entryTimer = some t →
        exec .entryTimerExpiry s = .next { s with now := max s.now t, key := s.key.idleAgain })
      ∧ (s.key.wipeWindow = some t →
        exec .wipeWindowExpiry s = .next { s with now := max s.now t, key := s.key.idleAgain })
      ∧ (s.key.resetTimer = some t →
        exec .resetTimerExpiry s = .next { s with
          now := max s.now t
          key := s.key.idleAgain
          eng := { s.eng with queue := s.queueWith .wipe 2 } }))
    ∧ ((∀ (s : State) (h : HeldEntry), Settled s → s.key.heldEntry = some h →
          EndsIn .heldEntryTimerExpiry s { s with
            now := max s.now h.until_
            key := { s.key with heldEntry := none }
            eng := { s.eng with queue := s.eng.queue.filter fun r => r.kind != .check || r.inFlight } })
        ∧ ∀ (s : State) (h : HeldChange), Settled s → s.key.heldChange = some h →
          EndsIn .heldChangeTimerExpiry s { s with
            now := max s.now h.until_
            key := { s.key with heldChange := none }
            eng := { s.eng with queue := s.eng.queue.filter fun r => r.kind != .setcode || r.inFlight } })

/-! ## Locks, timers and triggers -/

/-- SHIFT+0, where it is not the digit that follows a command chord (R65; log 49), locks an OPEN or ADMIN station at
once and posts LOCK with cause KEYPAD: with its list empty it ends LOCKED or HELD without its key, else it waits in
CLOSING (R11, R15, R71). BATTERY_OPEN_EXPIRY locks an OPEN or ADMIN station and posts LOCK with cause BATTERY (R10, R13).
Where an armed entry could post a LOCK of its own in the same event, the cause is left open. The end of a LOCK round,
COMPLETE or PARTIAL: an OPEN or ADMIN station enters CLOSING, and leaves it at once with its list empty; a LOCK in any
other state changes the guard state in no way of its own (R10, R15). -/
def Obligations.LockCausesLockTheStation : Prop :=
  (∀ (s : State) (t : Nat), PressDue s (.digit 0) t → PressFree s → classify (.digit 0) s.key.states = .chord 0 →
      (s.grd.state = .opened ∨ s.grd.state = .admin) → s.key.mode ≠ .collecting → s.key.mode ≠ .resetHold →
      s.key.digitFollows = false →
      ∃ u, exec (.keyPress (.digit 0)) s = .next u
        ∧ (queueFind .lock u.eng.queue).isSome = true ∧ (s.pol.armed = 0 → LockPosted u 1) ∧ u.grd.batteryTimer = none
        ∧ u.gate.outstanding = s.gate.outstanding ∧ u.nv = s.nv
        ∧ (s.gate.outstanding = [] →
            (u.grd.state = .locked ∨ u.grd.state = .held) ∧ u.cred.plainKey = none ∧ u.grd.matched = none
              ∧ u.grd.mustChange = false)
        ∧ (s.gate.outstanding ≠ [] → u.grd.state = .closing ∧ u.cred.plainKey = s.cred.plainKey
              ∧ u.grd.matched = s.grd.matched))
    ∧ (∀ (s : State) (t : Nat), s.grd.batteryTimer = some t → (s.grd.state = .opened ∨ s.grd.state = .admin) →
        ∃ u, exec .batteryOpenExpiry s = .next u
          ∧ u.now = max s.now t ∧ u.grd.batteryTimer = none ∧ (queueFind .lock u.eng.queue).isSome = true
          ∧ (s.pol.armed = 0 → LockPosted u 3)
          ∧ (s.gate.outstanding = [] →
              (u.grd.state = .locked ∨ u.grd.state = .held) ∧ u.cred.plainKey = none ∧ u.grd.matched = none
                ∧ u.grd.mustChange = false)
          ∧ (s.gate.outstanding ≠ [] → u.grd.state = .closing ∧ u.cred.plainKey = s.cred.plainKey
                ∧ u.grd.matched = s.grd.matched))
    ∧ (∀ (s : State) (r : RoundRec) (b : Nat) (m : Slots), InRound s r (.inField .accept b) → r.part ≠ .rejected →
        r.answered = true → r.kind = some .lock →
        ∃ t, exec (.roundEnd m) s = .next t ∧ t.nv = s.nv ∧ t.tal.tally = s.tal.tally
          ∧ (s.grd.state = .opened ∨ s.grd.state = .admin → t.grd.batteryTimer = none
              ∧ (s.gate.outstanding = [] → (t.grd.state = .locked ∨ t.grd.state = .held) ∧ t.cred.plainKey = none
                  ∧ t.grd.matched = none ∧ t.grd.mustChange = false)
              ∧ (s.gate.outstanding ≠ [] → t.grd.state = .closing ∧ t.cred.plainKey = s.cred.plainKey))
          ∧ (s.grd.state ≠ .opened → s.grd.state ≠ .admin →
              s.grd.state.triggersMay t.grd.state ∧ t.cred.plainKey = s.cred.plainKey))

/-- PULSE_TIMER_EXPIRY stops the pulse (R20). HOLD_DEADLINE_REACHED clears the deadline and hold-owed and stores it;
HELD returns to LOCKED, every other state stays (R6, R109). POLICY_TIMER_EXPIRY stops the timer; with no entry armed
nothing else changes (R122). PROGRESS_TIMER_EXPIRY in DONE and WIPING posts PROGRESS and restarts the timer; elsewhere
it only stops (R154). -/
def Obligations.TheBlocksTimersRunOut : Prop :=
  (∀ (s : State) (t : Nat), Settled s → s.grd.pulseTimer = some t →
      exec .pulseTimerExpiry s = .next { s with now := max s.now t, grd := { s.grd with pulseTimer := none } })
    ∧ (∀ (s : State) (d : Nat), Settled s → s.tal.deadline = some d →
        (s.grd.state ≠ .held →
          exec .holdDeadlineReached s = .next { s with
            now := max s.now d
            tal := { s.tal with
              deadline := none
              holdOwed := 0
              owedStore := if s.grd.state = .strapFault then s.tal.owedStore else s.tal.owedStore.put 0 } })
        ∧ (s.grd.state = .held →
          ∃ t, exec .holdDeadlineReached s = .next t ∧ t.now = max s.now d ∧ t.key.mode = .idle ∧ t.key.buffer = []
            ∧ (t.grd.state = .locked ∨ t.grd.state = .held) ∧ t.nv = s.nv ∧ t.tal.tally = s.tal.tally
            ∧ (s.pol.armed = 0 → t.grd.state = .locked ∧ t.tal.deadline = none ∧ t.tal.holdOwed = 0
                ∧ t.tal.owedStore = s.tal.owedStore.put 0)))
    ∧ (∀ (n : TimerNo) (s : State) (t : Nat), Settled s → s.pol.timers.get n = some t →
        (∃ u, exec (.policyTimerExpiry n) s = .next u ∧ u.now = max s.now t ∧ u.nv = s.nv ∧ u.tal.tally = s.tal.tally
            ∧ s.grd.state.triggersMay u.grd.state)
        ∧ (s.pol.armed = 0 → exec (.policyTimerExpiry n) s = .next { s with
            now := max s.now t
            pol := { s.pol with timers := s.pol.timers.set n.val none } }))
    ∧ (∀ (s : State) (t : Nat), Settled s → s.wipe.progressTimer = some t →
        exec .progressTimerExpiry s = .next
          (if s.wipe.journal.phase = .done ∧ s.grd.state = .wiping then
            { s with
              now := max s.now t
              eng := { s.eng with queue := queuePost .progress 0 s.eng.queue }
              wipe := { s.wipe with progressTimer := some (max s.now t + 1000) } }
          else { s with now := max s.now t, wipe := { s.wipe with progressTimer := none } }))

/-- A hold request whose end lies at or before the deadline changes nothing. One that moves it sets deadline and
hold-owed and stores hold-owed; outside a CHECK round LOCKED goes to HELD and no other guard state changes; inside one
the move waits for the outcome (R5, R6, R106). -/
def Obligations.HoldRequestsMoveTheDeadlineLater : Prop :=
  ∀ (s : State) (n : Nat),
    (∀ d, s.tal.deadline = some d → s.now + 1000 * n ≤ d → s.holdRequest n = s)
    ∧ ((∀ d, s.tal.deadline = some d → d < s.now + 1000 * n) → s.grd.state ≠ .strapFault →
      (s.holdRequest n).tal = { s.tal with
          deadline := some (s.now + 1000 * n), holdOwed := n, owedStore := s.tal.owedStore.put n }
        ∧ (s.holdRequest n).nv = s.nv
        ∧ (s.inCheck = true → (s.holdRequest n).grd = { s.grd with holdDue := true })
        ∧ (s.inCheck = false →
            (s.holdRequest n).grd = { s.grd with state := if s.grd.state = .locked then .held else s.grd.state }))

/-- The policy triggers: an input raises the entries of its cause, a level one when its condition was false and
becomes true; they fire in ascending order; a disarmed entry does not; a firing runs the entry's action and then its
armed links' in ascending order, and disarms those of them marked ONCE and no other (R115 to R118). Each action has
its effect (R119 to R121). In an event whose cause is the one armed entry's, its action is taken: a policy timer's
expiry, bus power rising or falling, LOCKED entered at a hold's deadline, a peer reaching LOST_ROUNDS at a round's end
(R54, R115, R122). The ROLL that ends STARTING arms the arm-at-start entries; with the latch set it arms none (R123). With
fault-disarm enabled a failed store disarms every entry and sets the latch; a CLEAR that leaves none of the four flags
clears it, another CLEAR does not (R125, R126). -/
def Obligations.FiringsRunArmedEntriesOnce : Prop :=
  (∀ (s : State) (e : EntryNo),
      (inEntries s.pol.armed e = false → s.fire e = s)
      ∧ (inEntries s.pol.armed e = true → ∀ l : EntryNo,
        inEntries (s.fire e).pol.armed l = (inEntries s.pol.armed l
          && ((s.entry l).repeats || !(l == e || inEntries (s.entry e).links l))))
      ∧ (inEntries s.pol.armed e = true → ∃ once, s.fire e =
          ((entryNumbers.filter fun l => l != e && inEntries (s.entry e).links l && inEntries s.pol.armed l).foldl
            State.runAction (s.runAction e)).disarm once))
    ∧ (∀ (s : State) (v : Nat), s.grd.state ≠ .strapFault →
      (∀ e : EntryNo, inEntries (s.takeNotice (.tally v)).pol.last e =
        match (entryBehaviour (s.entry e)).1 with
        | .tallyAtLeast k => decide (k ≤ v)
        | _ => inEntries s.pol.last e)
      ∧ ((∀ (e : EntryNo) (k : Nat), inEntries s.pol.armed e = true → (entryBehaviour (s.entry e)).1 = .tallyAtLeast k →
          inEntries s.pol.last e = true ∨ v < k) →
        s.takeNotice (.tally v) = { s with pol := { s.pol with last := (s.takeNotice (.tally v)).pol.last } }))
    ∧ (∀ (s : State) (n : Notice), s.grd.state ≠ .strapFault → n ≠ .fault → n ≠ .startingEnded →
      s.takeNotice n =
        (entryNumbers.filter fun e => raises n (entryBehaviour (s.entry e)).1 (inEntries s.pol.last e)).foldl State.fire
          { s with pol := { s.pol with last := (s.takeNotice n).pol.last } })
    ∧ (∀ (n : Notice) (c : Cause) (last : Bool), raises n c last = true ↔
      (∃ v k, n = .tally v ∧ c = .tallyAtLeast k ∧ last = false ∧ k ≤ v)
        ∨ (n = .peerLost true ∧ c = .peerLost ∧ last = false)
        ∨ (∃ g, n = .entered g ∧ c = .stateEnter g) ∨ (∃ t, n = .timer t ∧ c = .timer t)
        ∨ (n = .busRise ∧ c = .busRise) ∨ (n = .busFall ∧ c = .busFall))
    ∧ (∀ (s : State) (e : EntryNo),
      ((entryBehaviour (s.entry e)).2 = .nop → s.runAction e = s)
      ∧ (∀ n, (entryBehaviour (s.entry e)).2 = .hold n → s.runAction e = s.holdRequest n)
      ∧ ((entryBehaviour (s.entry e)).2 = .lock → s.runAction e = s.lockLocally.post .lock 2)
      ∧ ((entryBehaviour (s.entry e)).2 = .wipe → s.runAction e = s.post .wipe 4)
      ∧ (∀ t n, (entryBehaviour (s.entry e)).2 = .startTimer t n →
        s.runAction e = { s with pol := { s.pol with timers := s.pol.timers.set t.val (some (s.now + 1000 * n)) } })
      ∧ (∀ t, (entryBehaviour (s.entry e)).2 = .stopTimer t →
        s.runAction e = { s with pol := { s.pol with timers := s.pol.timers.set t.val none } })
      ∧ (∀ n, (entryBehaviour (s.entry e)).2 = .pulse n →
        s.runAction e = { s with grd := { s.grd with pulseTimer := some (s.now + 1000 * n) } })
      ∧ ((entryBehaviour (s.entry e)).2 = .snapshot →
        s.runAction e = { s with pol := { s.pol with memos := s.pol.memos.set e.val s.tal.tally } })
      ∧ ((∀ t n, (entryBehaviour (s.entry e)).2 ≠ .startTimer t n) → (∀ t, (entryBehaviour (s.entry e)).2 ≠ .stopTimer t) →
        (s.runAction e).pol.timers = s.pol.timers)
      ∧ ∀ set : BitVec 8, (s.disarm set).pol.timers = s.pol.timers)
    ∧ (∀ (s : State) (e : EntryNo) (c : Cause) (a : Action), s.grd.state ≠ .strapFault → s.pol.armed = entryBit e →
      entryBehaviour (s.entry e) = (c, a) →
      (∀ n t, s.pol.timers.get n = some t → c = .timer n →
        ∃ u, exec (.policyTimerExpiry n) s = .next u
          ∧ if a = .nop then u.pol.timers = s.pol.timers.set n.val none else ActionTaken a e s (max s.now t) u)
      ∧ (∀ cause, s.sup.state = .bus → c = .busFall →
        ∃ u, exec (.busPowerFall cause) s = .next u ∧ ActionTaken a e s s.now u)
      ∧ (s.sup.state = .battery → s.pins.pfw = false → c = .busRise →
        ∃ u, exec (.busPowerRise .senseAppeared) s = .next u ∧ ActionTaken a e s s.now u)
      ∧ (∀ d, s.grd.state = .held → s.tal.deadline = some d → c = .stateEnter .locked →
        ∃ u, exec .holdDeadlineReached s = .next u ∧ ActionTaken a e s (max s.now d) u)
      ∧ (∀ (r : RoundRec) (b : Nat) (m : Slots) (i : Fin 8), InRound s r (.inField .accept b) → r.part ≠ .rejected →
        r.answered = true → r.kind = some .status → (∀ j : Fin 8, s.eng.absence.get j < 3) → i.val < s.sup.roster →
        i.val ≠ s.sup.stn.toNat → s.eng.absence.get i = 2 → r.answer.getLsbD i.val = false → c = .peerLost →
        inEntries s.pol.last e = false →
        ∃ u, exec (.roundEnd m) s = .next u ∧ ActionTaken a e s s.now u))
    ∧ (∀ (s : State) (r : RoundRec) (b : Nat) (m : Slots), InRound s r (.inField .accept b) → r.part ≠ .rejected →
      r.answered = true → r.kind = some .roll → s.grd.state = .starting →
      takenMap s.sup (s.line.offer == .slot) m = rosterSet s.sup.roster →
      ∃ u, exec (.roundEnd m) s = .next u
        ∧ (s.pol.latch = false → s.pol.table.faultDisarm = false → ∀ e : EntryNo, (s.entry e).armAtStart = true → (s.entry e).repeats = true →
            inEntries u.pol.armed e = true)
        ∧ (s.pol.latch = true → ∀ e : EntryNo, inEntries u.pol.armed e = true → inEntries s.pol.armed e = true))
    ∧ (∀ (s : State) (v : Nat), s.grd.state ≠ .strapFault → s.tal.tallyStore.busy = some v → heldStore s ≠ some .tally →
      ∃ u, exec (.tallyStoreEnded false) s = .next u
        ∧ u.pol = (if s.pol.table.faultDisarm then { s.pol with armed := 0, latch := true } else s.pol))
    ∧ ∀ (s : State) (r : RoundRec) (b : Nat) (m : Slots), InRound s r (.inField .accept b) → r.part ≠ .rejected →
      r.answered = true → r.kind = some .clear → (clearTarget r.arg = s.sup.stn.toNat ∨ clearTarget r.arg = 15) →
      ∃ u, exec (.roundEnd m) s = .next u
        ∧ u.pol.latch = (s.pol.latch
            && FlagSet.any (s.stat.flags &&& ~~~(clearSet r.arg &&& s.stat.reported)) disarmingFlags)

/-! ## The line and the round engine -/

/-- A posted request: with none of its kind it is added, with no retries and no not-before time; with one of the same
ARG it is dropped; with another ARG the queued request takes the ARG, as a new request when it is not in flight, marked
replaced when it is. No other request changes (R46, R47). -/
def Obligations.PostedRequestsAreTakenByTheQueue : Prop :=
  ∀ (s : State) (k : RoundKind) (arg : Arg), s.grd.state ≠ .strapFault →
    s.post k arg = { s with eng := { s.eng with queue := (s.post k arg).eng.queue } }
      ∧ (∀ x, x ≠ k → queueFind x (s.post k arg).eng.queue = queueFind x s.eng.queue)
      ∧ (queueFind k s.eng.queue = none →
        queueFind k (s.post k arg).eng.queue
          = some { kind := k, arg := arg, retries := 0, notBefore := none, inFlight := false, replaced := false })
      ∧ ∀ r, queueFind k s.eng.queue = some r →
        (r.arg = arg → s.post k arg = s)
        ∧ (r.arg ≠ arg → r.inFlight = false →
          queueFind k (s.post k arg).eng.queue = some { r with arg := arg, retries := 0, notBefore := none })
        ∧ (r.arg ≠ arg → r.inFlight = true →
          queueFind k (s.post k arg).eng.queue = some { r with arg := arg, replaced := true })

/-- IDLE_GAP_REACHED: GAP, SYNCING and REJECTING go to IDLE (R23, R24, R36); that the end of a round rejected or not
joined is activity then is the model's reading (log 23). LATE_ROUND_SEEN: the station stays in SYNCING, the dominant
level stops its idle timer and starts the line-stuck timer if it does not run; an OPEN or ADMIN station locks and
posts LOCK, with cause LINE where no armed entry posts one too (R10, R14, R23, R24, R35). A field's end moves these two timers alone: a field dominant throughout leaves a
running line-stuck timer running; one that ends dominant starts it at 50 ms; one that ends recessive stops it and
starts an idle timer that does not run, at 2 ms (R23, R35; that a field's end is where the model takes the levels is
log 50). -/
def Obligations.IdleGapsAndLateRounds : Prop :=
  (∀ (s : State), Settled s → s.tracking = true →
      (s.line.view = .gap ∨ s.line.view = .syncing ∨ s.line.view = .rejecting) →
      exec .idleGapReached s = .next { s with
        now := max s.now (s.line.idleTimer.getD s.now)
        line := { s.line with view := .idle, idleTimer := none, stuckTimer := none, tail := false }
        sup := if s.line.tail then s.supplyAfterActivity (max s.now (s.line.idleTimer.getD s.now)) else s.sup })
    ∧ (∀ (s : State), Settled s → s.tracking = true → s.line.view = .syncing →
        (s.grd.state ≠ .opened → s.grd.state ≠ .admin →
          exec .lateRoundSeen s = .next { s with
            line := { s.line with
              idleTimer := none, stuckTimer := some (s.line.stuckTimer.getD (s.now + 50)), tail := true } })
        ∧ (s.grd.state = .opened ∨ s.grd.state = .admin →
          ∃ t, exec .lateRoundSeen s = .next t ∧ t.line.view = .syncing ∧ t.eng.round = s.eng.round
            ∧ (queueFind .lock t.eng.queue).isSome = true ∧ (s.pol.armed = 0 → LockPosted t 4)
            ∧ (s.gate.outstanding = [] → (t.grd.state = .locked ∨ t.grd.state = .held) ∧ t.cred.plainKey = none)
            ∧ (s.gate.outstanding ≠ [] → t.grd.state = .closing)))
    ∧ ∀ (l : LineIf) (f : Field) (v : LineBits) (now : Nat), f ≠ .hold →
      (∀ dominantLast : Bool,
        dominantLast = (if convention f = .map then v.getLsbD (fieldWidth f - 1) else !v.getLsbD 0) →
        l.sensed f v now =
          if dominantLast then { l with
            idleTimer := none
            stuckTimer :=
              if v = (if convention f = .map then asBits (2 ^ fieldWidth f - 1) else 0) ∧ l.stuckTimer ≠ none then
                l.stuckTimer
              else some (now + 50) }
          else { l with stuckTimer := none, idleTimer := some (l.idleTimer.getD (now + 2)) })

/-- OPEN_ROUND in IDLE hands the header of the lowest eligible request to the line interface; the request is in flight, and
the drive stays released until the view is ROUND (R22, log 14). RETRY_DUE makes its request eligible, and on an idle line the lowest eligible request is offered
(R23, R48). ROUND_START in IDLE or GAP: a station whose header was handed over is a CONTENDER and drives KIND, another
is a LISTENER whose unsent request waits; a round record begins, and START is activity (R23, R26, R40, R48, R161).
START is a dominant edge, own or a peer's: it stops the idle timer and starts the line-stuck timer (R23, R35). -/
def Obligations.RequestsAreOfferedAndStartsTaken : Prop :=
  (∀ (s : State), Settled s → QueueInOrder s →
      (∀ r ∈ s.eng.queue, s.tracking = true → s.line.view = .idle → s.line.header = none → r.eligible s.now = true →
        (∀ x ∈ s.eng.queue, x.eligible s.now = true → kindCode r.kind ≤ kindCode x.kind) →
        exec .openRound s = .next { s with
          line := { s.line with header := some (r.kind, r.arg) }
          eng := { s.eng with
            queue := s.eng.queue.map fun x => if x.kind = r.kind then { x with inFlight := true } else x } })
      ∧ (∀ r ∈ s.eng.queue, ∀ t, r.notBefore = some t →
        ∀ u : State, u = { s with
            now := max s.now t
            eng := { s.eng with
              queue := s.eng.queue.map fun x => if x.kind = r.kind then { x with notBefore := none } else x } } →
        exec (.retryDue r.kind) s =
          if s.line.view = .idle then exec .openRound u else .next u))
    ∧ (∀ (s : State), Settled s → s.tracking = true → (s.line.view = .idle ∨ s.line.view = .gap) →
        (∀ k a, s.line.header = some (k, a) →
          exec .roundStart s = .next { s with
            sup := s.supplyAfterActivity s.now
            line := {
              view := .round, role := .contender, pos := .inField .kind 0, stuckTimer := some (s.now + 50)
              offer := .bits (asBits (kindCode k)), header := some (k, a) }
            eng := { s.eng with round := some { part := .contender, sent := some k } } })
        ∧ (s.line.header = none →
          exec .roundStart s = .next { s with
            sup := s.supplyAfterActivity s.now
            line := {
              view := .round, role := .listener, pos := .inField .kind 0, stuckTimer := some (s.now + 50) }
            eng := { s.eng with round := some {}, queue := s.eng.queue.map Request.unsent } }))

/-- FIELD_MARK that stands: the field begins with the offer fixed from the state at the mark, and a section's mark
moves on 64 bits; the dominant mark stops the idle timer and leaves a running line-stuck timer running; a mark that
reads recessive to a station that does not drive it truncates the round: BAD_ROUND, REJECTING, and an open station
locks (R14, R23, R25, R34 to R36). What a station drives in each field of frame and bodies: ARG a contender's, OPENERS
an opener's slot, ANSWER its slot unless it refuses the observer, ACCEPT its slot when it answered; in a body field
nothing unless it answered, else in ROLL its serial in its slot, its tally, its live stamp with no wipe order held,
its slot in WIPE_ANY with one, its policy check; in CHECK the round entry's fold, AGREE when its own was the least and
it is LOCKED, the tally raised by one, at most 99, when AGREE equals ANSWER, STORED when its store was made, the
lowest slot matched or 7 when it takes the verdict, VERDICT_AGREE when it took it and its own was the least; in
SETCODE the change's fold and AGREE by its own conditions, ADMIN being allowed for slot 0, USER for 1 and 2, DURESS for
3 and EMPTY for all but 0; in PROGRESS DONE and the count of bad extents; in STATUS
its summary byte and the target's detail (R26 to R29, R38, R39, R43, R53, R79, R82 to R84, R86 to R88, R91, R155,
R170, R171). An entry matches a slot when it is not empty and has the length and the verifier of the slot's code (R81). -/
def Obligations.MarksFixOffersOrTruncate : Prop :=
  (∀ (s : State) (r : RoundRec) (f : Field) (level : Level), Settled s → InRound s r (.atMark f) →
      (level = .dominant ∨ s.line.role = .opener ∨ s.line.role = .contender) →
      f ≠ .hold →
      (f = .fingerprint ∨ f = .verdict ∨ f = .detail → r.answered = false
        ∨ (f = .fingerprint ∧ r.kind ≠ some .setcode) ∨ (f = .detail ∧ r.arg.toNat ≠ s.sup.stn.toNat)) →
      exec (.fieldMark level) s = .next { s with
        line := { s.line with
          pos := .inField f 0, offer := offerAt s r f, ownDrive := false
          idleTimer := none, stuckTimer := some (s.line.stuckTimer.getD (s.now + 50)), holdTimer := none } })
    ∧ (∀ (s : State) (r : RoundRec) (f : Field) (b : Nat) (level : Level), Settled s → InRound s r (.inField f b) →
      (level = .dominant ∨ s.line.role = .opener ∨ s.line.role = .contender) → b + 64 < fieldWidth f →
      exec (.fieldMark level) s = .next { s with
        line := { s.line with
          pos := .inField f (b + 64)
          idleTimer := none, stuckTimer := some (s.line.stuckTimer.getD (s.now + 50)) } })
    ∧ (∀ (s : State) (r : RoundRec) (f : Field), InRound s r (.atMark f) → s.line.role ≠ .opener →
      s.line.role ≠ .contender →
      ∃ t, exec (.fieldMark .recessive) s = .next t ∧ t.eng.round = none ∧ t.stat.flags.has .badRound = true
        ∧ (t.line.view = .rejecting ∨ t.sup.activity = .dormant)
        ∧ t.grd.state ≠ .opened ∧ t.grd.state ≠ .admin ∧ t.tal.tally = s.tal.tally
        ∧ (s.grd.state = .opened ∨ s.grd.state = .admin → s.pol.armed = 0 → LockPosted t 4))
    ∧ (∀ (s : State) (r : RoundRec),
      (∀ k a, s.line.role = .contender → s.line.header = some (k, a) → offerAt s r .arg = .bits (a.setWidth 256))
      ∧ (s.line.role ≠ .contender → offerAt s r .arg = .nothing)
      ∧ offerAt s r .openers = (if s.line.role = .opener then .slot else .nothing)
      ∧ offerAt s r .answer = (if r.part = .refusing then .nothing else .slot)
      ∧ offerAt s r .accept = (if r.answered then .slot else .nothing)
      ∧ (r.answered = false → ∀ k a, ∀ f ∈ bodyFields k a, offerAt s r f = .nothing))
    ∧ (∀ (s : State) (r : RoundRec) (agreed : Prop), r.answered = true →
      (agreed ↔ (∃ x, r.result .agree = some x) ∧ r.mapOf .agree = r.answer) →
      (offerAt s r .serial = .bits (slotOffer 32 s.sup.stn.toNat (s.eng.serial.setWidth 256))
        ∧ (r.kind = some .roll → offerAt s r .tallyHi = .bits (asBits (127 - s.tal.tally)))
        ∧ offerAt s r .stampHi = (if s.wipe.journal.phase = .none then
            .bits (asBits (65535 - s.cred.liveStamp.toNat)) else .nothing)
        ∧ offerAt s r .stampLo = (if s.wipe.journal.phase = .none then
            .bits (s.cred.liveStamp.setWidth 256) else .nothing)
        ∧ offerAt s r .wipeAny = (if s.wipe.journal.phase = .none then .nothing else .slot)
        ∧ offerAt s r .policyLo = .bits (s.pol.table.check.setWidth 256)
        ∧ offerAt s r .policyHi = .bits (asBits (65535 - s.pol.table.check.toNat)))
      ∧ ((∀ e, r.kind = some .check → s.cred.roundEntry = some e →
            offerAt s r .fingerprint = .bits ((Config.fingerprintOf (e.map .digit) r.arg).setWidth 256))
        ∧ (r.kind = some .check → (offerAt s r .agree = .slot ↔ r.equalIn .fingerprint = true ∧ s.grd.state = .locked))
        ∧ (r.kind = some .check → agreed →
            offerAt s r .tallyHi = .bits (asBits (127 - min 99 (s.tal.tally + 1))))
        ∧ (r.kind = some .check → ¬agreed → offerAt s r .tallyHi = .nothing)
        ∧ (offerAt s r .stored = .slot ↔ r.made = true)
        ∧ (takesVerdict s r = true ↔ agreed ∧ r.answer = rosterSet s.sup.roster ∧ r.mapOf .stored = r.answer
            ∧ s.stat.flags.has .rollShort = false)
        ∧ (takesVerdict s r = false → offerAt s r .verdict = .nothing)
        ∧ (∀ e, takesVerdict s r = true → s.cred.roundEntry = some e →
            (∀ i : CodeSlotNo, matchesSlot e (s.cred.slots.get i).contents = true →
              (∀ j : CodeSlotNo, j < i → matchesSlot e (s.cred.slots.get j).contents = false) →
              offerAt s r .verdict = .bits (asBits i.val))
            ∧ ((∀ i : CodeSlotNo, matchesSlot e (s.cred.slots.get i).contents = false) →
              offerAt s r .verdict = .bits (asBits 7)))
        ∧ (offerAt s r .verdictAgree = .slot ↔ r.tookVerdict = true ∧ r.equalIn .verdict = true))
      ∧ (∀ c, r.kind = some .setcode → s.cred.roundChange = some c →
          offerAt s r .fingerprint
              = .bits ((Config.fingerprintOf (c.code.map .digit ++ [.mustChange c.mustChange]) r.arg).setWidth 256)
            ∧ (offerAt s r .agree = .slot ↔
              r.equalIn .fingerprint = true ∧ s.wipe.journal.phase = .none
                ∧ ((c.role = .admin ∧ c.target = 0) ∨ (c.role = .user ∧ (c.target = 1 ∨ c.target = 2))
                  ∨ (c.role = .duress ∧ c.target = 3) ∨ (c.role = .empty ∧ c.target ≠ 0))
                ∧ c.stamp.toNat = s.cred.liveStamp.toNat + 1
                ∧ (s.grd.state = .opened ∨ s.grd.state = .admin
                  ∨ (s.grd.state = .blank ∧ c.target = 0 ∧ c.role = .admin ∧ c.stamp = 1 ∧ s.cred.liveStamp = 0))))
      ∧ (r.kind = some .setcode → s.cred.roundChange = none →
          offerAt s r .fingerprint = .nothing ∧ offerAt s r .agree = .nothing)
      ∧ ((offerAt s r .done = .slot ↔ s.wipe.journal.phase = .done ∧ s.grd.state = .wiping)
        ∧ offerAt s r .badHi = (if s.wipe.journal.phase = .none then .nothing
            else .bits (asBits (127 - s.wipe.journal.bad.length)))
        ∧ offerAt s r .summary = .bits (slotOffer 8 s.sup.stn.toNat ((summaryByte s).setWidth 256))
        ∧ offerAt s r .detail = (if r.arg.toNat = s.sup.stn.toNat then .bits ((detailReport s).setWidth 256)
            else .nothing)))
    ∧ (∀ (e : List Digit) (c : SlotContents), matchesSlot e c = true ↔
      e ≠ [] ∧ ∃ code, slotMark c = some code ∧ e.length = code.length ∧ Config.verifierOf e = code.verifier)
    ∧ (∀ (width slot j : Nat) (v : LineBits), slot < 8 → width * 8 ≤ 256 → j < 256 → v.toNat < 2 ^ width →
      (slotOffer width slot v).getLsbD j =
        if width * (7 - slot) ≤ j ∧ j < width * (8 - slot) then v.getLsbD (j - width * (7 - slot)) else true)
    ∧ ∀ s : State,
      ((summaryByte s).getLsbD 7 = decide (s.stat.flags = 0)
        ∧ (summaryByte s).extractLsb' 3 4 = BitVec.ofNat 4 (guardCode s.grd.state)
        ∧ (summaryByte s).getLsbD 2 = decide (s.stat.flags &&& 0b111111000000#12 ≠ 0)
        ∧ (summaryByte s).getLsbD 1 = decide (s.stat.flags &&& 0b000000111000#12 ≠ 0)
        ∧ (summaryByte s).getLsbD 0 = decide (s.stat.flags &&& 0b000000000111#12 ≠ 0))
      ∧ ((detailReport s).getLsbD 159 = false
        ∧ (detailReport s).extractLsb' 147 12 = s.stat.flags
        ∧ (detailReport s).extractLsb' 140 7 = BitVec.ofNat 7 s.tal.tally
        ∧ (detailReport s).extractLsb' 137 3 = BitVec.ofNat 3 (phaseCode s.wipe.journal.phase)
        ∧ (detailReport s).extractLsb' 134 3 = BitVec.ofNat 3 (causeCode s.wipe.journal.cause)
        ∧ (detailReport s).extractLsb' 127 7 = BitVec.ofNat 7 s.wipe.journal.nextExtent
        ∧ (detailReport s).extractLsb' 120 7 = BitVec.ofNat 7 s.wipe.journal.bad.length
        ∧ (detailReport s).extractLsb' 108 12 = BitVec.ofNat 12 (holdSeconds s)
        ∧ (detailReport s).extractLsb' 92 16 = s.cred.liveStamp
        ∧ (detailReport s).extractLsb' 84 8 = s.pol.armed
        ∧ (detailReport s).getLsbD 83 = s.pol.table.faultDisarm ∧ (detailReport s).getLsbD 82 = s.pol.table.frozen
        ∧ (detailReport s).extractLsb' 66 16 = s.pol.table.check
        ∧ (∀ e : EntryNo, (detailReport s).extractLsb' (58 - 8 * e.val) 8 = BitVec.ofNat 8 (s.pol.memos.get e))
        ∧ (detailReport s).extractLsb' 0 2 = 0#2)

/-- The marks at which an owner fixes more than its offer: the must-change mark at FINGERPRINT of SETCODE (R91), the
verdict taken at VERDICT (R87), the carried set at the target's DETAIL (R169). -/
def Obligations.MarksFixWhatOwnersKeep : Prop :=
  ∀ (s : State) (r : RoundRec), Settled s → r.answered = true →
    (InRound s r (.atMark .fingerprint) → r.kind = some .setcode →
      ∃ t, exec (.fieldMark .dominant) s = .next t ∧ t.line.pos = .inField .fingerprint 0
        ∧ t.cred = { s.cred with
            roundChange := s.cred.roundChange.map fun c =>
              { c with mustChange := c.role == .user && s.grd.state == .admin } }
        ∧ t.line.offer = (match t.cred.roundChange with
            | some c => .bits ((changeFingerprint c r.arg).setWidth 256)
            | none => .nothing))
    ∧ (InRound s r (.atMark .verdict) →
      ∃ t, exec (.fieldMark .dominant) s = .next t ∧ t.line.pos = .inField .verdict 0
        ∧ t.eng.round = some { r with tookVerdict := takesVerdict s r }
        ∧ t.line.offer = (if takesVerdict s r then .bits (asBits (verdictOf s)) else .nothing))
    ∧ (InRound s r (.atMark .detail) → r.arg.toNat = s.sup.stn.toNat →
      ∃ t, exec (.fieldMark .dominant) s = .next t ∧ t.line.pos = .inField .detail 0
        ∧ t.eng.round = some { r with carried := some s.stat.flags }
        ∧ t.line.offer = .bits ((detailReport s).setWidth 256))

/-- A merged-high field: a participant that offers v drives the greatest value of the width less v, the line carries
the least of what is driven, and every participant takes the greatest value offered and finds whether its own equals
it; one that offers nothing cannot raise the result, and a field that nobody drives reads as 0 (R29). -/
def Obligations.MergedHighFieldsReadTheGreatestOffer : Prop :=
  ∀ (sup : Supply) (f : Field) (offers : List Nat) (line : LineBits), convention f = .mergedHigh →
    (∀ v ∈ offers, v ≤ fieldMax f) →
    line = asBits ((offers.map fun v => fieldMax f - v).foldl min (fieldMax f)) →
    (∀ v ∈ offers, offerHigh f true v = .bits (asBits (fieldMax f - v))
        ∧ fieldResult sup (offerHigh f true v) f line
          = ⟨f, asBits (offers.foldl max 0), v == offers.foldl max 0⟩)
      ∧ (∀ v, offerHigh f false v = .nothing
          ∧ (fieldResult sup (offerHigh f false v) f line).value = asBits (offers.foldl max 0))
      ∧ (offers = [] → (fieldResult sup .nothing f line).value = 0)

/-- The HOLD mark of a CHECK round whose AGREE equalled ANSWER: the greatest raised tally comes into force, at most 99
and never below the own, its store is asked for, and the station holds the line (R86, R100, R102). The HOLD mark of a
WIPE round: with no order held or pending an ORDERED store of the ARG's cause begins, the order is pending and the
station holds; a pending order is merged with STORED recessive; an order held counts as made (R144, R147). -/
def Obligations.CheckAndWipeHoldMarks : Prop :=
  (∀ (s : State) (r : RoundRec), InRound s r (.atMark .hold) → r.kind = some .check → r.answered = true →
      ∃ t, exec (.fieldMark .dominant) s = .next t ∧ t.line.pos = .inField .hold 0
        ∧ t.line.holdTimer = some (s.now + 200) ∧ t.line.stuckTimer = none ∧ t.nv = s.nv
        ∧ t.cred.roundEntry = s.cred.roundEntry
        ∧ (r.agreed = true →
            t.tal.tally = max s.tal.tally (min (r.numberOf .tallyHi) 99)
              ∧ t.tal.tallyStore = s.tal.tallyStore.put t.tal.tally ∧ t.line.ownDrive = true)
        ∧ (r.agreed = false →
            t.tal.tally = s.tal.tally ∧ t.tal.tallyStore = s.tal.tallyStore ∧ t.line.ownDrive = false))
    ∧ (∀ (s : State) (r : RoundRec), Settled s → InRound s r (.atMark .hold) → r.kind = some .wipe → r.answered = true →
        s.grd.state ≠ .strapFault → s.wipe.busy = none → s.wipe.again = none →
        exec (.fieldMark .dominant) s = .next { s with
          line := { s.line with
            pos := .inField .hold 0, offer := .nothing, idleTimer := none, stuckTimer := none
            holdTimer := some (s.now + 200)
            ownDrive := decide (s.wipe.journal.phase = .none ∧ s.wipe.orderPending = none) }
          wipe := if s.wipe.journal.phase = .none ∧ s.wipe.orderPending = none then
              { s.wipe with
                orderPending := some (causeOfArg r.arg)
                busy := some {
                  phase := .ordered, cause := causeOfArg r.arg, nextExtent := 0, bad := [], attempts := 0 } }
            else s.wipe
          eng := if s.wipe.journal.phase ≠ .none then { s.eng with round := some { r with made := true } } else s.eng })

/-- The HOLD mark of a SETCODE round: a station that drove AGREE, in a state that allows the change and with no wipe
order held, stages the new contents with the stored mark clear and holds the line; in BLANK it draws a fresh bank key
first (R92, R97). The contents are the code's length and verifier, a key wrap under them for ADMIN and USER, and USER's
must-change mark (R79, R81, R92). A station that fails one of these conditions stages nothing: it draws no key, does not hold the line,
and keeps its pending slot (R30, R92, R97). That a station without a bank key stages no ADMIN or USER slot either is the
model's reading (log 42). -/
def Obligations.TheSetcodeHoldMarkStages : Prop :=
  (∀ (s : State) (r : RoundRec) (c : RoundChange), Settled s → InRound s r (.atMark .hold) →
      r.kind = some .setcode → r.answered = true → s.cred.roundChange = some c → s.cred.busy = none →
      r.agreed = true → r.droveIn s.sup .agree = true → s.wipe.journal.phase = .none →
      (s.grd.state = .opened ∨ s.grd.state = .admin
        ∨ (s.grd.state = .blank ∧ c.target = 0 ∧ c.role = .admin ∧ c.stamp = 1 ∧ s.cred.liveStamp = 0)) →
      (∀ key, (s.grd.state = .blank ∧ key = Config.freeBankKey s.draws
          ∨ s.grd.state ≠ .blank ∧ s.cred.plainKey = some key) →
        ∃ t, exec (.fieldMark .dominant) s = .next t ∧ t.line.pos = .inField .hold 0 ∧ t.line.ownDrive = true
          ∧ t.eng.round = some { r with staged := true }
          ∧ t.draws = (if s.grd.state = .blank then s.draws + 1 else s.draws)
          ∧ t.cred = { s.cred with
              genKey := if s.grd.state = .blank then some key else s.cred.genKey
              stagingDropped := false
              busy := some (.stage ⟨c.target, newContents c (match c.role with
                | .empty | .duress => 0
                | _ => key), c.stamp, false⟩)
              pendingSlot := some ⟨c.target, newContents c (match c.role with
                | .empty | .duress => 0
                | _ => key), c.stamp, false⟩ }
          ∧ t.nv = { s.nv with pendingSlot := t.cred.pendingSlot }))
    ∧ (∀ (c : RoundChange) (key : BankKey) (code : CodeMark), code = ⟨c.code.length, Config.verifierOf c.code⟩ →
      newContents c key = (match c.role with
        | .empty => .empty
        | .admin => .admin code ⟨key, code⟩
        | .user => .user code ⟨key, code⟩ c.mustChange
        | .duress => .duress code))
    ∧ ∀ (s : State) (r : RoundRec), Settled s → InRound s r (.atMark .hold) → r.kind = some .setcode →
      (r.answered = false ∨ r.agreed = false ∨ r.droveIn s.sup .agree = false ∨ s.wipe.journal.phase ≠ .none
        ∨ (∀ c, s.cred.roundChange = some c →
          ¬(s.grd.state = .opened ∨ s.grd.state = .admin
            ∨ (s.grd.state = .blank ∧ c.target = 0 ∧ c.role = .admin ∧ c.stamp = 1 ∧ s.cred.liveStamp = 0))
          ∨ ((c.role = .admin ∨ c.role = .user) ∧ s.grd.state ≠ .blank ∧ s.cred.plainKey = none))) →
      exec (.fieldMark .dominant) s = .next { s with
        line := { s.line with
          pos := .inField .hold 0, offer := .nothing, ownDrive := false, idleTimer := none, stuckTimer := none
          holdTimer := some (s.now + 200) } }

/-- The HOLD mark of a SETMARK round: a session change is staged in OPEN or ADMIN and counts as made; a fixed change
begins its store in ADMIN with the mark lock OPEN and no wipe order held; any other ARG or state stages nothing (R139).
The HOLD mark of a FIT round: a BLANK station with an unfrozen table stages an item that reads by its layout, which
counts as made; any other station stages nothing and sets no flag (R173). The two layouts, bits named from the left: a
SETMARK ARG is scope, five zeros, value, a zero and extent, WRITABLE 0 and READ_ONLY 1 in SESSION with extent 127 for ALL,
NORMAL 0, PUBLIC 1 and FROZEN 2 in FIXED, and reads as no change in any other form (R139, R175). FIT item 0 is the header,
1 to 8 an entry's part A, 9 to 16 its part B, 32 to 35 sixteen marks without a code 3; a bit given as 0 that reads 1 and
any other index read as no item (R173, R175). -/
def Obligations.SetmarkAndFitHoldMarks : Prop :=
  (∀ (s : State) (r : RoundRec), Settled s → InRound s r (.atMark .hold) → r.kind = some .setmark →
      r.answered = true →
      ∃ t, exec (.fieldMark .dominant) s = .next t ∧ t.line.pos = .inField .hold 0
        ∧ t.gate.session = s.gate.session ∧ t.gate.fixedMarks = s.gate.fixedMarks
        ∧ (∀ e m, markChangeOf r.arg = some (.session e m) →
            if s.grd.state = .opened ∨ s.grd.state = .admin then
              t.gate.staging = some ⟨e, m, r.arg⟩ ∧ t.eng.round = some { r with staged := true, made := true }
                ∧ t.line.ownDrive = false
            else t.gate.staging = s.gate.staging ∧ t.eng.round = some r ∧ t.line.ownDrive = false)
        ∧ (∀ e m, markChangeOf r.arg = some (.fixed e m) → s.gate.pmBusy = none →
            if s.grd.state = .admin ∧ s.gate.markLockOpen = true ∧ s.wipe.journal.phase = .none then
              t.gate.pmBusy = some (.stage ⟨e, m, r.arg, false⟩ false)
                ∧ t.gate.pendingMark = some ⟨e, m, r.arg, false⟩ ∧ t.nv.pendingMark = some ⟨e, m, r.arg, false⟩
                ∧ t.eng.round = some { r with staged := true } ∧ t.line.ownDrive = true
            else t.gate = s.gate ∧ t.nv = s.nv ∧ t.eng.round = some r ∧ t.line.ownDrive = false)
        ∧ (markChangeOf r.arg = none → t.gate = s.gate ∧ t.nv = s.nv ∧ t.eng.round = some r ∧ t.line.ownDrive = false))
    ∧ (∀ (s : State) (r : RoundRec), Settled s → InRound s r (.atMark .hold) → r.kind = some .fit → r.answered = true →
        ∃ t, exec (.fieldMark .dominant) s = .next t ∧ t.line.pos = .inField .hold 0 ∧ t.line.ownDrive = false
          ∧ t.nv = s.nv ∧ t.pol = s.pol ∧ t.gate = s.gate ∧ t.stat.flags = s.stat.flags
          ∧ (if s.grd.state = .blank ∧ s.pol.table.frozen = false
                ∧ fitItemOf r.arg (BitVec.ofNat 32 (r.numberOf .item)) ≠ none then
              t.stat.fit = some (r.arg, BitVec.ofNat 32 (r.numberOf .item))
                ∧ t.eng.round = some { r with staged := true, made := true }
            else t.stat.fit = s.stat.fit ∧ t.eng.round = some r))
    ∧ (∀ (scope zero : BitVec 1) (zeros : BitVec 5) (value : BitVec 2) (extent : BitVec 7) (a : Arg),
        a = scope ++ zeros ++ value ++ zero ++ extent →
        (∀ e m, markChangeOf a = some (.session (some e) m) ↔
            scope = 0 ∧ zeros = 0 ∧ zero = 0 ∧ extent.toNat = e.val
              ∧ value = (match m with | .writable => 0 | .readOnly => 1))
        ∧ (∀ m, markChangeOf a = some (.session none m) ↔
            scope = 0 ∧ zeros = 0 ∧ zero = 0 ∧ extent = 127
              ∧ value = (match m with | .writable => 0 | .readOnly => 1))
        ∧ ∀ e m, markChangeOf a = some (.fixed e m) ↔
            scope = 1 ∧ zeros = 0 ∧ zero = 0 ∧ extent.toNat = e.val
              ∧ value = (match m with | .normal => 0 | .pub => 1 | .frozen => 2))
    ∧ (∀ (zeros : BitVec 30) (faultDisarm frozen : Bool),
        fitItemOf 0 (zeros ++ BitVec.ofBool faultDisarm ++ BitVec.ofBool frozen)
          = if zeros = 0 then some (.header faultDisarm frozen) else none)
    ∧ (∀ (e : EntryNo) (cause : BitVec 3) (causeArg : BitVec 7) (action : BitVec 3) (links : BitVec 8)
        (repeats armAtStart : Bool) (zeros : BitVec 9),
        fitItemOf (BitVec.ofNat 16 (e.val + 1))
            (cause ++ causeArg ++ action ++ links ++ BitVec.ofBool repeats ++ BitVec.ofBool armAtStart ++ zeros)
          = if zeros = 0 then some (.partA e cause causeArg action links repeats armAtStart) else none)
    ∧ (∀ (e : EntryNo) (zeros : BitVec 14) (timer : BitVec 2) (seconds : BitVec 16),
        fitItemOf (BitVec.ofNat 16 (e.val + 9)) (zeros ++ timer ++ seconds)
          = if zeros = 0 then some (.partB e timer seconds) else none)
    ∧ (∀ (k : Fin 4) (w : BitVec 32),
        fitItemOf (BitVec.ofNat 16 (k.val + 32)) w
          = if ∀ j : Fin 16, ¬(w.getLsbD (31 - 2 * j.val) = true ∧ w.getLsbD (30 - 2 * j.val) = true) then
              some (.marks k.val w) else none)
    ∧ ∀ (index : Arg) (w : BitVec 32),
        (17 ≤ index.toNat ∧ index.toNat ≤ 31 ∨ 36 ≤ index.toNat) → fitItemOf index w = none

/-- FIELD_END of KIND: 1 to 10 go on to ARG; 0 sets LINE_STUCK and 11 to 14 BAD_ROUND, with REJECTING and an open
station locked; 15 is no round (R14, R33, R36); that a journal store waiting to be repeated begins then (log 18), and that
the requests are put back without a retry (log 48), is the model's reading. A contender that reads 0 judges it so too. FIELD_END of KIND and ARG at a contender:
one that does not read back what it drove is a listener and its request waits; one still in at the end of ARG is an
opener. A listener takes the ARG as read (R22, R26, R40, R48); a reading above what the station drives is taken as its
own value (log 13). FIELD_END of OPENERS: an empty set, or an observer's kind without the observer, is rejected with
BAD_ROUND; an observer opener of a kind it may not open here is refused with OBS_REFUSED; any other set goes on to
ANSWER (R42, R43). -/
def Obligations.HeaderFieldsAreJudged : Prop :=
  (∀ (s : State) (r : RoundRec) (b : Nat), Settled s → InRound s r (.inField .kind b) → s.line.role = .listener →
      s.line.offer = .nothing →
      (∀ k, exec (.fieldEnd (asBits (kindCode k))) s = .next { s with
          line := { s.line.sensed .kind (asBits (kindCode k)) s.now with
            pos := .atMark .arg, offer := .nothing, ownDrive := false }
          eng := { s.eng with round := some { r with kind := some k } } })
      ∧ (∀ n, (n = 0 ∨ 11 ≤ n ∧ n ≤ 14) →
          ∃ t, exec (.fieldEnd (asBits n)) s = .next t ∧ t.eng.round = none
            ∧ t.stat.flags.has (if n = 0 then .lineStuck else .badRound) = true
            ∧ (t.line.view = .rejecting ∨ t.sup.activity = .dormant)
            ∧ t.grd.state ≠ .opened ∧ t.grd.state ≠ .admin
            ∧ (s.grd.state = .opened ∨ s.grd.state = .admin → s.pol.armed = 0 → LockPosted t 4))
      ∧ ∃ t, exec (.fieldEnd (asBits 15)) s = .next t ∧ t.eng.round = none ∧ t.stat = s.stat ∧ t.grd = s.grd
          ∧ t.eng.queue = s.eng.queue.map Request.unsent ∧ (t.line.view = .gap ∨ t.sup.activity = .dormant)
          ∧ (∀ j, s.wipe.again = some j → s.wipe.busy = none → s.grd.state ≠ .strapFault →
              t.wipe = { s.wipe with busy := some j, again := none }))
    ∧ (∀ (s : State) (r : RoundRec) (b : Nat), Settled s →
        (∀ (own k : RoundKind) (n : Nat), InRound s r (.inField .kind b) → s.line.role = .contender →
          s.line.offer = .bits (asBits (kindCode own)) →
          (kindCode own ≤ n → n ≤ 15 →
            exec (.fieldEnd (asBits n)) s = .next { s with
              line := { s.line.sensed .kind (asBits (kindCode own)) s.now with
                pos := .atMark .arg, offer := .nothing, ownDrive := false }
              eng := { s.eng with round := some { r with kind := some own } } })
          ∧ (kindCode k < kindCode own →
            exec (.fieldEnd (asBits (kindCode k))) s = .next { s with
              line := { s.line.sensed .kind (asBits (kindCode k)) s.now with
                role := .listener, header := none, pos := .atMark .arg, offer := .nothing, ownDrive := false }
              eng := { s.eng with
                round := some { r with kind := some k, part := .listener }
                queue := s.eng.queue.map Request.unsent } })
          ∧ ∃ t, exec (.fieldEnd (asBits 0)) s = .next t ∧ t.eng.round = none ∧ t.stat.flags.has .lineStuck = true
            ∧ (t.line.view = .rejecting ∨ t.sup.activity = .dormant) ∧ t.line.header = none
            ∧ t.line.ownDrive = false ∧ t.grd.state ≠ .opened ∧ t.grd.state ≠ .admin)
        ∧ (∀ (v : Arg) (read : LineBits), InRound s r (.inField .arg b) → s.line.role = .contender →
          s.line.offer = .bits (v.setWidth 256) → read.toNat < 65536 →
          (v.toNat ≤ read.toNat →
            exec (.fieldEnd read) s = .next { s with
              line := { s.line.sensed .arg (v.setWidth 256) s.now with
                role := .opener, header := none, pos := .atMark .openers, offer := .nothing, ownDrive := false }
              eng := { s.eng with round := some { r with arg := v, part := .opener } } })
          ∧ (read.toNat < v.toNat →
            exec (.fieldEnd read) s = .next { s with
              line := { s.line.sensed .arg read s.now with
                role := .listener, header := none, pos := .atMark .openers, offer := .nothing, ownDrive := false }
              eng := { s.eng with
                round := some { r with arg := read.setWidth 16, part := .listener }
                queue := s.eng.queue.map Request.unsent } }))
        ∧ ∀ read : LineBits, InRound s r (.inField .arg b) → s.line.role ≠ .contender → s.line.offer = .nothing →
          exec (.fieldEnd read) s = .next { s with
            line := { s.line.sensed .arg (fieldBits .arg read) s.now with
              pos := .atMark .openers, offer := .nothing, ownDrive := false }
            eng := { s.eng with round := some { r with arg := read.setWidth 16 } } })
    ∧ (∀ (s : State) (r : RoundRec) (b : Nat) (k : RoundKind) (read : LineBits) (set : BitVec 9), Settled s →
        InRound s r (.inField .openers b) → r.kind = some k →
        set = takenOpeners s.sup (s.line.offer == .slot) (read.setWidth 9) →
        (set = 0 ∨ (set.getLsbD 8 = false ∧ (k = .status ∨ k = .clear ∨ k = .fit)) →
          ∃ t, exec (.fieldEnd read) s = .next t ∧ t.eng.round = none ∧ t.stat.flags.has .badRound = true
            ∧ t.grd.state ≠ .opened ∧ t.grd.state ≠ .admin)
        ∧ (set.getLsbD 8 = true →
            ¬(k = .lock ∨ k = .status ∨ k = .clear ∨ (k = .fit ∧ s.grd.state = .blank ∧ s.pol.table.frozen = false)) →
          ∃ t, exec (.fieldEnd read) s = .next t ∧ t.stat.flags.has .obsRefused = true ∧ t.line.pos = .atMark .answer
            ∧ t.grd = s.grd ∧ ∃ x, t.eng.round = some x ∧ x.part = .refusing ∧ x.openers = set)
        ∧ (set ≠ 0 →
            (if set.getLsbD 8 then
              k = .lock ∨ k = .status ∨ k = .clear ∨ (k = .fit ∧ s.grd.state = .blank ∧ s.pol.table.frozen = false)
            else kindCode k ≤ 7) →
          exec (.fieldEnd read) s = .next { s with
            line := { s.line.sensed .openers (lineRead s.sup s.line.offer .openers read) s.now with
              pos := .atMark .answer, offer := .nothing, ownDrive := false }
            eng := { s.eng with round := some { r with openers := set } } }))

/-- FIELD_END of ANSWER: a station that drove its slot answers the round. In CHECK the held entry, or the empty entry,
becomes the round entry, the buffer is cleared and the CHECK request is served; in SETCODE the held change of the
round's ARG is handed over; presses set aside are dropped. A station that refuses the round answers nothing (R39, R43,
R49, R66, R69, R77, R83, R84). Where it does not answer, and at the rejection of a round, the press set aside last is taken
as if recognized then, after the others set aside before it (R66; that a rejection takes them, after it locks, and that
several are kept in their order, is log 24). FIELD_END of a body field hands its result to the owner and awaits the next field's
mark, or ACCEPT's; the named driver of DETAIL that met a second driver sets BAD_ROUND and keeps that it met one (R27 to
R29, R32, R38, R40, R169). -/
def Obligations.AnswerAndBodyFieldsHandOver : Prop :=
  (∀ (s : State) (r : RoundRec) (b : Nat) (read : LineBits) (k : RoundKind) (g : Field) (line : LineIf) (x : RoundRec),
      Settled s → InRound s r (.inField .answer b) → r.kind = some k → nextAfter .answer (fieldsAfterArg k r.arg) = some g →
      line = { s.line.sensed .answer (lineRead s.sup s.line.offer .answer read) s.now with
        pos := .atMark g, offer := .nothing, ownDrive := false } →
      x = { r with
        answer := takenMap s.sup (s.line.offer == .slot) (read.setWidth 8), answered := s.line.offer == .slot } →
      (s.line.offer = .slot → k = .check →
        exec (.fieldEnd read) s = .next { s with
          line := line
          cred := { s.cred with
            roundEntry := some (match s.key.heldEntry with | some h => h.digits | none => []) }
          key := (fun key : Keypad =>
              if s.key.mode = .resetHold then { key with buffer := [], overlong := false } else key.idleAgain)
            { s.key with heldEntry := none, setAside := [] }
          eng := { s.eng with round := some x, queue := s.eng.queue.filter fun x => x.kind != .check } })
      ∧ (s.line.offer = .slot → k = .setcode →
        (∀ h, s.key.heldChange = some h → setcodeArg h.target h.role h.stamp = r.arg →
          exec (.fieldEnd read) s = .next { s with
            line := line
            cred := { s.cred with roundChange := some ⟨h.target, h.role, h.stamp, h.code, false⟩ }
            key := { s.key with heldChange := none, setAside := [] }
            eng := { s.eng with round := some x } })
        ∧ ((∀ h, s.key.heldChange = some h → setcodeArg h.target h.role h.stamp ≠ r.arg) →
          exec (.fieldEnd read) s = .next { s with
            line := line
            cred := { s.cred with roundChange := none }
            key := { s.key with setAside := [] }
            eng := { s.eng with round := some x } }))
      ∧ (s.line.offer = .slot → k ≠ .check → k ≠ .setcode →
        exec (.fieldEnd read) s = .next { s with
          line := line, key := { s.key with setAside := [] }, eng := { s.eng with round := some x } })
      ∧ (s.line.offer = .nothing → s.key.setAside = [] →
        exec (.fieldEnd read) s = .next { s with line := line, eng := { s.eng with round := some x } }))
    ∧ (∀ (s : State) (r : RoundRec) (b : Nat) (read : LineBits) (earlier : List Key) (k : Key), Settled s →
      InRound s r (.inField .answer b) → s.line.offer = .nothing → s.sup.activity ≠ .dormant →
      s.key.setAside = earlier ++ [k] → (earlier = [] ∨ s.pol.armed = 0) →
      ∃ t₀ t, exec (.fieldEnd read) { s with key := { s.key with setAside := earlier } } = .next t₀
        ∧ exec (.fieldEnd read) s = .next t ∧ t.key.setAside = [] ∧ PressTakenNow t₀ k t)
    ∧ (∀ (s : State) (r : RoundRec) (f : Field) (earlier : List Key) (k : Key), Settled s → InRound s r (.atMark f) →
      s.line.role ≠ .opener → s.line.role ≠ .contender → s.sup.activity ≠ .dormant →
      ¬(s.sup.activity = .doze ∧ s.sup.inactivity = .expired) → s.pol.armed = 0 → s.key.setAside = earlier ++ [k] →
      ∃ t₀ t, exec (.fieldMark .recessive) { s with key := { s.key with setAside := earlier } } = .next t₀
        ∧ exec (.fieldMark .recessive) s = .next t ∧ t.key.setAside = [] ∧ PressTakenNow t₀ k t)
    ∧ (∀ (s : State) (r : RoundRec) (b : Nat) (k : RoundKind) (f g : Field) (read : LineBits), Settled s →
        InRound s r (.inField f b) → r.kind = some k → f ∈ bodyFields k r.arg → f ≠ .hold →
        nextAfter f (fieldsAfterArg k r.arg) = some g →
        ((f = .serial → r.answered = false ∨ serialClash s read = false) →
          (f = .detail → metSecondDriver s.line.offer .detail read = false) →
          exec (.fieldEnd read) s = .next { s with
            line := { s.line.sensed f (lineRead s.sup s.line.offer f read) s.now with
              pos := .atMark g, offer := .nothing, ownDrive := false }
            eng := { s.eng with
              round := some { r with results := r.results ++ [fieldResult s.sup s.line.offer f read] } } })
        ∧ (f = .detail → metSecondDriver s.line.offer .detail read = true →
          ∃ t, exec (.fieldEnd read) s = .next t ∧ t.stat.flags.has .badRound = true ∧ t.line.pos = .atMark g
            ∧ ∃ x, t.eng.round = some x ∧ x.secondDriver = true
              ∧ x.results = r.results ++ [fieldResult s.sup s.line.offer f read]))

/-- A station that reads its SERIAL slot dominant where it drove recessive sets SLOT_CLASH and goes to STRAP_FAULT with
no round, no request and no key; the flag store is asked for, and with fault-disarm enabled the latch is set (R2, R56,
R125). -/
def Obligations.ASerialClashEndsInStrapFault : Prop :=
  ∀ (s : State) (r : RoundRec) (b : Nat) (read : LineBits), InRound s r (.inField .serial b) → r.answered = true →
    s.grd.state ≠ .strapFault →
    (∃ i, (s.eng.serial.setWidth 256).getLsbD i = true ∧ (slotRead 32 s.sup.stn.toNat read).getLsbD i = false) →
    ∃ t, exec (.fieldEnd read) s = .next t ∧ t.grd.state = .strapFault ∧ t.stat.flags.has .slotClash = true
      ∧ t.stat.store = s.stat.store.put (s.stat.flags ||| Flag.slotClash.mask)
      ∧ t.eng.round = none ∧ t.eng.queue = [] ∧ t.gate.outstanding = [] ∧ t.gate.portReady = false
      ∧ t.cred.plainKey = none ∧ t.cred.genKey = none ∧ t.grd.matched = none ∧ t.grd.mustChange = false
      ∧ t.grd.batteryTimer = none ∧ t.grd.pulseTimer = none ∧ t.wipe.erase = .absent ∧ t.pol.armed = 0
      ∧ t.pol.latch = (s.pol.latch || s.pol.table.faultDisarm) ∧ t.nv = s.nv

/-- HOLD_FIELD_END takes a station that has released on to STORED, with the line recessive (R23, R30); that a failed
tally or hold-owed store is begun again exactly then is the model's reading (log 18). HOLD_MAX_EXPIRY releases the line,
lets the store go on, and starts the line-stuck timer (R31). LINE_STUCK_EXPIRY with the line-stuck timer running, or
outside any round, where no command need tell that it runs (log 50): LINE_STUCK, the view STUCK, and a round in progress
is TRUNCATED; an open station locks. LINE_RELEASED: SYNCING (R14, R35). That a round on a stuck line sets BAD_ROUND
beside LINE_STUCK is the model's reading (log 22). -/
def Obligations.HoldFieldsAndStuckLinesEnd : Prop :=
  ((∀ (s : State) (r : RoundRec) (b : Nat), Settled s → InRound s r (.inField .hold b) → s.line.ownDrive = false →
        s.grd.state ≠ .strapFault →
        exec .holdFieldEnd s = .next { s with
          line := { s.line with
            pos := .atMark .stored, offer := .nothing, holdTimer := none
            stuckTimer := none, idleTimer := some (s.line.idleTimer.getD (s.now + 2)) }
          eng := { s.eng with round := some { r with holdEnded := true } }
          tal := { s.tal with
            tallyStore := if s.tal.tallyStore.again then { busy := some s.tal.tally } else s.tal.tallyStore
            owedStore := if s.tal.owedStore.again then { busy := some s.tal.holdOwed } else s.tal.owedStore } })
      ∧ ∀ (s : State) (r : RoundRec) (b t : Nat), Settled s → InRound s r (.inField .hold b) →
        s.line.holdTimer = some t →
        exec .holdMaxExpiry s = .next { s with
          now := max s.now t
          line := { s.line with ownDrive := false, holdTimer := none, stuckTimer := some (max s.now t + 50) } })
    ∧ ((∀ (s : State), s.tracking = true → s.line.view ≠ .stuck → (s.inHold = true → s.line.holdTimer = none) →
          (s.line.stuckTimer ≠ none ∨ s.line.view ≠ .round) →
          ∃ t, exec .lineStuckExpiry s = .next t ∧ t.now = max s.now (s.line.stuckTimer.getD s.now)
            ∧ t.stat.flags.has .lineStuck = true
            ∧ (s.eng.round ≠ none → t.stat.flags.has .badRound = true) ∧ t.eng.round = none
            ∧ t.line.ownDrive = false ∧ t.line.view = .stuck
            ∧ t.grd.state ≠ .opened ∧ t.grd.state ≠ .admin
            ∧ (s.grd.state = .opened ∨ s.grd.state = .admin → s.pol.armed = 0 → LockPosted t 4))
        ∧ ∀ (s : State), Settled s → s.line.view = .stuck →
          exec .lineReleased s = .next { s with
            line := { view := .syncing, idleTimer := some (s.now + 2), tail := s.line.tail } })

/-! ## Round ends -/

/-- ROUND_END by class: COMPLETE when the ACCEPT map is the roster set, PARTIAL else, ABSENT where the station did not
answer; the round is over, the line view is GAP with the timers the ACCEPT field leaves (R25; log 50), and a round it
answered is recorded: an answering peer's absence count is 0, a missing peer's is raised by one up to 3 (R27, R44, R54). What a round's end leaves of a request in flight: served it goes;
replaced it is a new one; CHECK, SETCODE and SETMARK are not retried; LOCK, WIPE, ROLL and PROGRESS are, ten times at
most, 100 ms later; a request not in flight goes only when it is served (R49, R50). A request that ends its tenth
retry unserved sets ROLL_SHORT, and a ROLL is queued anew in STARTING (R51). That a PROGRESS which a COMPLETE round
did not serve is retried too is the model's reading (log 41). A round rejected at a station that did not refuse the
observer is VOID (R36, R44). The model's reading, not the manual's words (log 23, DEDUCED): R36 names VOID alone for a
rejected round, and one rejected at a station that refused the observer is ABSENT here; and the owners and the queue take
a rejected round in the event of the rejection itself, not at the round's end. The owners of a VOID round: CHECK sets
SPLIT_ENTRY when AGREE had differed, else takes the shortest hold when its store was made and the hold field had ended,
and drops the round entry (R85, R88, R90); SETCODE drops the round's change and generated key, and changes nothing of the
table (R97); SETMARK and FIT drop their staging (R141, R174). -/
def Obligations.RoundEndsClassRecordAndRequests : Prop :=
  ((∀ (sup : Supply) (r : RoundRec), r.part ≠ .rejected →
        classifyRound sup r = if r.answered = false then .absent
          else if r.accept = rosterSet sup.roster then .complete else .partial_)
      ∧ (∀ (sup : Supply) (r : RoundRec),
          (r.part = .refusing → r.answered = false → r.reject sup = { r with cls := some .absent })
          ∧ (r.part ≠ .refusing → r.reject sup = { r with part := .rejected, cls := some .void }))
      ∧ (∀ size n : Nat, size ≤ 8 → ((rosterSet size).getLsbD n = true ↔ n < size))
      ∧ ∀ (s : State) (r : RoundRec) (b : Nat) (m : Slots), InRound s r (.inField .accept b) → r.part ≠ .rejected →
        ∃ t, exec (.roundEnd m) s = .next t ∧ t.eng.round = none
          ∧ (t.sup.activity ≠ .dormant → ∀ l : LineIf,
              l = s.line.sensed .accept (lineRead s.sup s.line.offer .accept (m.setWidth 256)) s.now →
              t.line = { view := .gap, idleTimer := l.idleTimer, stuckTimer := l.stuckTimer })
          ∧ (r.answered = false → t.eng.absence = s.eng.absence)
          ∧ ∀ i : Fin 8, r.answered = true →
            t.eng.absence.get i =
              if s.sup.roster ≤ i.val ∨ i.val = s.sup.stn.toNat then s.eng.absence.get i
              else if r.answer.getLsbD i.val then 0 else min 3 (s.eng.absence.get i + 1))
    ∧ (∀ (sup : Supply) (now : Nat) (r : RoundRec) (x : Request),
        (served sup r x = true → endRequest sup now r x = none)
        ∧ (served sup r x = false → x.inFlight = false → endRequest sup now r x = some x)
        ∧ (served sup r x = false → x.inFlight = true → x.replaced = true →
            endRequest sup now r x = some { x with inFlight := false, replaced := false, retries := 0 })
        ∧ (served sup r x = false → x.inFlight = true → x.replaced = false →
            (x.kind = .check ∨ x.kind = .setcode ∨ x.kind = .setmark → endRequest sup now r x = none)
            ∧ (x.kind = .lock ∨ x.kind = .wipe ∨ x.kind = .roll ∨ x.kind = .progress →
                endRequest sup now r x =
                  if x.retries < 10 then
                    some { x with inFlight := false, retries := x.retries + 1, notBefore := some (now + 100) }
                  else none))
        ∧ (served sup r x = true ↔ r.kind = some x.kind ∧ r.cls = some .complete
            ∧ (x.kind = .lock ∨ x.kind = .wipe ∨ x.kind = .roll
                ∨ (x.kind = .progress ∧ (r.mapOf .done).getLsbD sup.stn.toNat = true)
                ∨ ((x.kind = .setcode ∨ x.kind = .setmark) ∧ x.arg = r.arg))))
    ∧ (∀ (s : State) (r x : RoundRec) (b : Nat) (m : Slots), InRound s r (.inField .accept b) → r.part ≠ .rejected →
        QueueInOrder s →
        x = { r with
          accept := takenMap s.sup (s.line.offer == .slot) m
          cls := some (classifyRound s.sup { r with accept := takenMap s.sup (s.line.offer == .slot) m }) } →
        ∃ t, exec (.roundEnd m) s = .next t
          ∧ (∀ k, s.pol.armed = 0 → s.grd.state ≠ .starting → (k = .wipe → r.kind ≠ some .check) →
              (k = .check → s.key.heldEntry = none) → (k = .setcode → s.key.heldChange = none) →
              queueFind k t.eng.queue = (queueFind k s.eng.queue).bind (endRequest s.sup s.now x))
          ∧ (FlightIsTheRounds s → ∀ y ∈ s.eng.queue,
              y.inFlight = true → y.replaced = false → 10 ≤ y.retries → served s.sup x y = false →
              (y.kind = .lock ∨ y.kind = .wipe ∨ y.kind = .roll ∨ y.kind = .progress) →
              t.stat.flags.has .rollShort = true
                ∧ (y.kind = .roll → t.grd.state = .starting →
                  queueFind .roll t.eng.queue
                    = some { kind := .roll, arg := 0, retries := 0, notBefore := some (s.now + 100) })))
    ∧ ∀ (s : State) (r : RoundRec) (f : Field), InRound s r (.atMark f) → s.line.role ≠ .opener →
        s.line.role ≠ .contender → r.part ≠ .refusing →
        ∃ t, exec (.fieldMark .recessive) s = .next t ∧ t.eng.round = none ∧ t.tal.tally = s.tal.tally
          ∧ t.cred.slots = s.cred.slots ∧ t.cred.liveStamp = s.cred.liveStamp
          ∧ t.cred.pendingSlot = s.cred.pendingSlot ∧ t.gate.session = s.gate.session
          ∧ t.gate.fixedMarks = s.gate.fixedMarks ∧ t.pol.table = s.pol.table
          ∧ (r.kind = some .check →
              t.cred.roundEntry = none
                ∧ (r.answered = true → r.disagreed = true → t.stat.flags.has .splitEntry = true)
                ∧ (r.disagreed = false → r.made = true → r.holdEnded = true →
                    (∃ d, t.tal.deadline = some d ∧ s.now + 1000 ≤ d)
                      ∧ (s.grd.state = .locked ∨ s.grd.state = .held → t.grd.state = .held)))
          ∧ (r.kind = some .setcode → t.cred.genKey = none ∧ t.cred.roundChange = none)
          ∧ (r.kind = some .setmark → r.staged = true →
              (r.arg.getLsbD 15 = false → t.gate.staging = none)
                ∧ (∀ p d, r.arg.getLsbD 15 = true → s.gate.pmBusy = some (.stage p d) →
                    t.gate.pmBusy = some (.stage p true))
                ∧ (∀ p, r.arg.getLsbD 15 = true → s.gate.pmBusy = none → s.gate.pmWaiting = [] →
                    s.gate.pendingMark = some p → s.grd.state ≠ .strapFault →
                    t.gate.pendingMark = none ∧ t.gate.pmBusy = some .empty))
          ∧ (r.kind = some .fit → t.stat.fit = none)

/-- The end of a ROLL round, COMPLETE or PARTIAL: the greatest tally is adopted, unequal policy checks set
POLICY_SPLIT, a wipe order shown is adopted, and the PARTIAL ROLL count follows the class (R57, R58, R60, R62, R148).
The stamp effects of ROLL, with no wipe order shown or held, H and L the greatest and the least live stamp: a stored
pending change above H is discarded; one stamped H at a station at L below H is promoted, must-change is cleared when
it is the matched slot's, and BLANK goes to LOCKED (R4, R59, R95; log 28), to HELD only where an armed entry's action or
a deadline moved in the round takes it there in the same event (R5, R118); a station still below H sets TABLE_SPLIT. With
an order shown or held the table stays as it is (R59). With no order shown none is adopted, and the journal in force
stays in every case (R58, R148). -/
def Obligations.ARollBringsStationsTogether : Prop :=
  (∀ (s : State) (r : RoundRec) (b : Nat) (m : Slots), InRound s r (.inField .accept b) → r.part ≠ .rejected →
      r.answered = true → r.kind = some .roll →
      ∃ t, exec (.roundEnd m) s = .next t
        ∧ t.tal.tally = max s.tal.tally (min (r.numberOf .tallyHi) 99)
        ∧ (r.numberOf .policyLo ≠ r.numberOf .policyHi → t.stat.flags.has .policySplit = true)
        ∧ (r.mapOf .wipeAny ≠ 0 → s.wipe.journal.phase = .none → s.wipe.orderPending = none → s.wipe.busy = none →
            s.grd.state ≠ .strapFault →
            t.wipe.orderPending = some .adopted
              ∧ t.wipe.busy = some { phase := .ordered, cause := .adopted, nextExtent := 0, bad := [], attempts := 0 })
        ∧ (r.mapOf .wipeAny = 0 ∨ s.wipe.journal.phase ≠ .none ∨ s.wipe.orderPending ≠ none →
            t.wipe.orderPending = s.wipe.orderPending)
        ∧ t.wipe.journal = s.wipe.journal
        ∧ t.eng.rollCount =
            (if takenMap s.sup (s.line.offer == .slot) m = rosterSet s.sup.roster then 0
              else min 20 (s.eng.rollCount + 1)))
    ∧ ∀ (s : State) (r : RoundRec) (b : Nat) (m : Slots), InRound s r (.inField .accept b) → r.part ≠ .rejected →
      r.answered = true → r.kind = some .roll → s.grd.state ≠ .strapFault →
      ∃ t, exec (.roundEnd m) s = .next t
        ∧ (r.mapOf .wipeAny ≠ 0 ∨ s.wipe.journal.phase ≠ .none →
            t.cred.slots = s.cred.slots ∧ t.cred.liveStamp = s.cred.liveStamp ∧ t.cred.pendingSlot = s.cred.pendingSlot
              ∧ t.stat.flags.has .tableSplit = s.stat.flags.has .tableSplit)
        ∧ (r.mapOf .wipeAny = 0 → s.wipe.journal.phase = .none →
            (t.stat.flags.has .tableSplit
              = (s.stat.flags.has .tableSplit || decide (t.cred.liveStamp.toNat < r.numberOf .stampHi)))
            ∧ (s.cred.pendingSlot = none →
              t.cred.slots = s.cred.slots ∧ t.cred.liveStamp = s.cred.liveStamp ∧ t.cred.pendingSlot = none)
            ∧ ∀ p, s.cred.pendingSlot = some p → p.stored = true →
              (r.numberOf .stampHi < p.stamp.toNat →
                t.cred.slots = s.cred.slots ∧ t.cred.liveStamp = s.cred.liveStamp ∧ t.cred.pendingSlot = none)
              ∧ (r.numberOf .stampLo < r.numberOf .stampHi → s.cred.liveStamp.toNat = r.numberOf .stampLo →
                p.stamp.toNat = r.numberOf .stampHi →
                t.cred.slots = s.cred.slots.set p.target.val ⟨p.contents, p.stamp⟩ ∧ t.cred.liveStamp = p.stamp
                  ∧ t.cred.pendingSlot = none
                  ∧ (s.grd.matched = some p.target → t.grd.mustChange = false)
                  ∧ (s.grd.state = .blank → (t.grd.state = .locked ∨ t.grd.state = .held)
                    ∧ (s.pol.armed = 0 → s.grd.holdDue = false → t.grd.state = .locked)))
              ∧ (p.stamp.toNat ≤ r.numberOf .stampHi →
                ¬(r.numberOf .stampLo < r.numberOf .stampHi ∧ s.cred.liveStamp.toNat = r.numberOf .stampLo
                  ∧ p.stamp.toNat = r.numberOf .stampHi) →
                t.cred.slots = s.cred.slots ∧ t.cred.liveStamp = s.cred.liveStamp
                  ∧ t.cred.pendingSlot = s.cred.pendingSlot))

/-- STARTING ends with a COMPLETE ROLL, and with the PARTIAL ROLL that reaches ROLL_LIMIT, which sets ROLL_SHORT: to
WIPING with an order held or adopted, which it is when WIPE_ANY shows one and none is held or pending, to BLANK with four
empty slots, to HELD with a hold owed or running, to LOCKED else (R3, R58, R61, R62, R79, R110, R148). What the end into
WIPING does with the journal loaded, no journal store under way and no erase asked for: with bus power KEY_GONE begins the
store of PASSING, and PASSING takes its step; on battery neither begins (R150, R151, R153); at DONE, on either supply, the
FROZEN marks become NORMAL, PROGRESS is posted and its timer starts (R154). -/
def Obligations.StartingEndsByTheFirstConditionThatHolds : Prop :=
  ∀ (s : State) (r : RoundRec) (b : Nat) (m : Slots), InRound s r (.inField .accept b) → r.part ≠ .rejected →
    r.answered = true → r.kind = some .roll → s.grd.state = .starting →
    ∃ t, exec (.roundEnd m) s = .next t
      ∧ (if takenMap s.sup (s.line.offer == .slot) m = rosterSet s.sup.roster ∨ s.eng.rollCount + 1 = 20 then
          (if s.wipe.journal.phase ≠ .none ∨ (r.mapOf .wipeAny ≠ 0 ∧ s.wipe.orderPending = none) then
              t.grd.state = .wiping
            else if ∀ i : CodeSlotNo, (t.cred.slots.get i).contents = .empty then t.grd.state = .blank
            else if s.tal.holdOwed ≠ 0 ∨ s.tal.deadline ≠ none then t.grd.state = .held
            else t.grd.state = .locked ∨ t.grd.state = .held)
          ∧ (takenMap s.sup (s.line.offer == .slot) m ≠ rosterSet s.sup.roster →
              t.stat.flags.has .rollShort = true)
          ∧ (s.wipe.busy = none → s.wipe.again = none → s.wipe.erase = .absent → s.gate.eraseWaiting = none →
              (s.wipe.journal.phase ≠ .none → t.wipe.journal = s.wipe.journal)
              ∧ (s.sup.state = .bus → s.wipe.journal.phase = .keyGone →
                  t.wipe.busy = some { s.wipe.journal with phase := .passing })
              ∧ (s.sup.state = .bus → s.wipe.journal.phase = .passing → PassStepTaken s.wipe.journal s t)
              ∧ (s.sup.state ≠ .bus → s.wipe.journal.phase ≠ .none → t.wipe.busy = none ∧ t.wipe.erase = .absent)
              ∧ (s.wipe.journal.phase = .done →
                  t.wipe.busy = none
                    ∧ (∀ e : Extent, t.gate.fixedMarks.get e =
                        if s.gate.fixedMarks.get e = .frozen then .normal else s.gate.fixedMarks.get e)
                    ∧ t.wipe.progressTimer = some (s.now + 1000)
                    ∧ ((∀ x, queueFind .progress s.eng.queue = some x → x.inFlight = false) →
                        (queueFind .progress t.eng.queue).isSome = true)))
        else t.grd.state = .starting ∧ t.wipe.progressTimer = s.wipe.progressTimer
          ∧ (s.wipe.erase = .absent → s.gate.eraseWaiting = none → t.wipe.erase = .absent))

/-- The outcome of a CHECK round by the table of R88, the first row that matches. The end of a CHECK round without a
match: SPLIT_ENTRY sets its flag and costs nothing; NO_MATCH, INCOMPLETE and VERDICT_SPLIT, which also sets
TABLE_SPLIT, move the deadline to at least 1 s ahead and take LOCKED to HELD, by a later deadline too (R5, R6, R85,
R88, R90, R107). What armed entries do in the same event is left open. -/
def Obligations.ChecksWithoutAMatchAreHeld : Prop :=
  (∀ (r : RoundRec) (cls : RoundClass) (x : FieldResult), r.result .agree = some x →
      (r.mapOf .agree ≠ r.answer → checkOutcome r cls = .splitEntry)
      ∧ (r.mapOf .agree = r.answer → r.tookVerdict = false → checkOutcome r cls = .incomplete)
      ∧ (r.mapOf .agree = r.answer → r.tookVerdict = true → r.mapOf .verdictAgree ≠ r.answer →
          checkOutcome r cls = .verdictSplit)
      ∧ (r.mapOf .agree = r.answer → r.tookVerdict = true → r.mapOf .verdictAgree = r.answer →
          (cls = .partial_ → checkOutcome r cls = .incomplete)
          ∧ (cls = .complete → r.numberOf .verdict = 7 → checkOutcome r cls = .noMatch)
          ∧ (cls = .complete → ∀ i : CodeSlotNo, r.numberOf .verdict = i.val → checkOutcome r cls = .matched i)))
    ∧ (∀ (s : State) (r : RoundRec) (b : Nat) (m : Slots) (x : RoundRec) (o : CheckOutcome),
        InRound s r (.inField .accept b) → r.part ≠ .rejected → r.answered = true → r.kind = some .check →
        x = { r with accept := takenMap s.sup (s.line.offer == .slot) m } →
        o = checkOutcome x (classifyRound s.sup x) →
        ∃ t, exec (.roundEnd m) s = .next t ∧ t.cred.roundEntry = none
          ∧ (o = .splitEntry → t.stat.flags.has .splitEntry = true ∧ t.tal.tally = s.tal.tally
              ∧ (s.pol.armed = 0 → t.cred.plainKey = s.cred.plainKey ∧ t.tal.deadline = s.tal.deadline
                ∧ (s.grd.holdDue = false → t.grd.state = s.grd.state)))
          ∧ (o = .noMatch ∨ o = .incomplete ∨ o = .verdictSplit →
              t.tal.tally = s.tal.tally ∧ (s.pol.armed = 0 → t.cred.plainKey = s.cred.plainKey)
                ∧ (∃ d, t.tal.deadline = some d ∧ s.now + 1000 ≤ d)
                ∧ (s.grd.state = .locked ∨ s.grd.state = .held → t.grd.state = .held)
                ∧ (o = .verdictSplit → t.stat.flags.has .tableSplit = true)))

/-- The end of a CHECK round with a match: the tally is 0; a station that was LOCKED when it drove AGREE and is LOCKED
still opens, as ADMIN for slot 0 and OPEN for 1 and 2, with the key its wrap yields; after slot 3 a
WIPE request is queued and nothing opens; its ARG is cause DURESS where no WIPE request was in flight (R5, R7, R8, R9,
R89, R105). The exact state and the cause are said for a station with no entry armed, since trigger actions may lock it
again or post in the same event; the WIPE request for a station whose request in flight is the round's, as every step
keeps it. -/
def Obligations.AMatchOpensTheStation : Prop :=
  ∀ (s : State) (r : RoundRec) (b : Nat) (m : Slots) (x : RoundRec) (i : CodeSlotNo),
    InRound s r (.inField .accept b) → r.part ≠ .rejected → r.answered = true → r.kind = some .check →
    x = { r with accept := takenMap s.sup (s.line.offer == .slot) m } →
    checkOutcome x (classifyRound s.sup x) = .matched i →
    ∃ t, exec (.roundEnd m) s = .next t ∧ t.tal.tally = 0 ∧ t.cred.roundEntry = none ∧ t.cred.slots = s.cred.slots
      ∧ t.cred.liveStamp = s.cred.liveStamp ∧ t.cred.pendingSlot = s.cred.pendingSlot
      ∧ (i = 3 → s.grd.state ≠ .strapFault → FlightIsTheRounds s →
          (queueFind .wipe t.eng.queue).isSome = true ∧ s.grd.state.triggersMay t.grd.state
            ∧ (s.pol.armed = 0 → (∀ x, queueFind .wipe s.eng.queue = some x → x.inFlight = false) →
                ∃ x, queueFind .wipe t.eng.queue = some x ∧ x.arg = wipeDuress))
      ∧ (i ≠ 3 → r.droveIn s.sup .agree = true → s.grd.state = .locked → s.pol.armed = 0 →
          t.grd.state = (if i = 0 then .admin else .opened) ∧ t.grd.matched = some i
            ∧ t.grd.mustChange = (slotMustChange (s.cred.slots.get i).contents && i != 0)
            ∧ t.cred.plainKey = (slotWrap (s.cred.slots.get i).contents).bind
                (fun w => openWrap w (s.cred.roundEntry.getD []))
            ∧ (∀ e : Extent, t.gate.session.get e = .writable)
            ∧ (s.sup.state = .battery → t.grd.batteryTimer = some (s.now + 60000)))
      ∧ (i ≠ 3 → ¬(r.droveIn s.sup .agree = true ∧ s.grd.state = .locked) →
          t.cred.plainKey = s.cred.plainKey ∧ t.grd.matched = s.grd.matched ∨ s.grd.state = .opened
            ∨ s.grd.state = .admin)
      ∧ (∀ (c : CodeMark) (w : KeyWrap) (mc : Bool) (e : List Digit),
          (slotWrap .empty = none ∧ slotWrap (.admin c w) = some w ∧ slotWrap (.user c w mc) = some w
            ∧ slotWrap (.duress c) = none)
          ∧ (slotMustChange .empty = false ∧ slotMustChange (.admin c w) = false
            ∧ slotMustChange (.user c w mc) = mc ∧ slotMustChange (.duress c) = false)
          ∧ openWrap w e =
              if e.length = w.under.length ∧ Config.verifierOf e = w.under.verifier then some w.key else none)

/-- The end of a SETCODE round: the stored pending change of the round's ARG is promoted in a COMPLETE round in which
all stored and no wipe order is held, and nothing else is: in a round not COMPLETE, with STORED short of the roster set,
with an order held, or with no stored pending change of the round's ARG, slots, live stamp and pending slot stay; first setup takes BLANK to ADMIN, a promotion of the matched
slot clears must-change (R4, R9, R94, R95, R97). -/
def Obligations.SetcodePromotesWhatAllStored : Prop :=
  ∀ (s : State) (r : RoundRec) (b : Nat) (m : Slots), InRound s r (.inField .accept b) → r.part ≠ .rejected →
    r.answered = true → r.kind = some .setcode →
    ∃ t, exec (.roundEnd m) s = .next t ∧ t.cred.genKey = none ∧ t.cred.roundChange = none ∧ t.nv = s.nv
      ∧ (∀ p, s.cred.pendingSlot = some p → p.stored = true →
          setcodeArg p.target (slotRole p.contents) p.stamp = r.arg →
          takenMap s.sup (s.line.offer == .slot) m = rosterSet s.sup.roster →
          r.mapOf .stored = rosterSet s.sup.roster → s.wipe.journal.phase = .none →
          t.cred.slots = s.cred.slots.set p.target.val ⟨p.contents, p.stamp⟩ ∧ t.cred.liveStamp = p.stamp
            ∧ t.cred.pendingSlot = none
            ∧ (s.grd.state = .blank → p.target = 0 → s.pol.armed = 0 →
                t.grd.state = .admin ∧ t.grd.matched = some 0 ∧ t.grd.mustChange = false
                  ∧ t.cred.plainKey = s.cred.genKey)
            ∧ (s.grd.matched = some p.target → (s.grd.state = .opened ∨ s.grd.state = .admin) →
                t.grd.mustChange = false))
      ∧ (takenMap s.sup (s.line.offer == .slot) m ≠ rosterSet s.sup.roster
            ∨ r.mapOf .stored ≠ rosterSet s.sup.roster ∨ s.wipe.journal.phase ≠ .none
            ∨ (∀ p, s.cred.pendingSlot = some p →
              p.stored = false ∨ setcodeArg p.target (slotRole p.contents) p.stamp ≠ r.arg) →
          t.cred.slots = s.cred.slots ∧ t.cred.liveStamp = s.cred.liveStamp
            ∧ t.cred.pendingSlot = s.cred.pendingSlot ∧ s.grd.state.triggersMay t.grd.state)
      ∧ (∀ (c : CodeMark) (w : KeyWrap) (mc : Bool), slotRole .empty = .empty ∧ slotRole (.admin c w) = .admin
          ∧ slotRole (.user c w mc) = .user ∧ slotRole (.duress c) = .duress)

/-- The end of a SETMARK round at a station that staged: in a COMPLETE round in which all stored, a session change sets
its marks, and a fixed change stored for this ARG with no wipe order held is promoted in force; otherwise the staging
is dropped (R141). The end of a FIT round at a station that staged: COMPLETE with all stored, the item is applied, the
policy table with its check value and its changed entries disarmed, or sixteen fixed marks; otherwise the staging is
dropped (R127, R174). What an item writes: the header its two marks, part A and part B their fields of the one entry, each
with the check value computed anew; the marks item extent 16k + j's mark from its code, bits 31 – 2j and 30 – 2j, and no
other extent's (R113, R174, R175). -/
def Obligations.SetmarkAndFitApplyWhatWasStaged : Prop :=
  (∀ (s : State) (r : RoundRec) (b : Nat) (m : Slots) (all : Bool), InRound s r (.inField .accept b) →
      r.part ≠ .rejected → r.answered = true → r.kind = some .setmark → r.staged = true →
      all = (takenMap s.sup (s.line.offer == .slot) m == rosterSet s.sup.roster
        && r.mapOf .stored == rosterSet s.sup.roster) →
      ∃ t, exec (.roundEnd m) s = .next t
        ∧ (∀ c, r.arg.getLsbD 15 = false → s.gate.staging = some c →
            t.gate.staging = none ∧ t.gate.fixedMarks = s.gate.fixedMarks
              ∧ ∀ e : Extent, t.gate.session.get e =
                if all = true ∧ (c.extent = none ∨ c.extent = some e) then c.mark else s.gate.session.get e)
        ∧ (∀ p, r.arg.getLsbD 15 = true → s.gate.pendingMark = some p → p.stored = true → p.arg = r.arg →
            s.gate.pmBusy = none → s.gate.pmWaiting = [] →
            t.gate.pendingMark = none ∧ t.gate.session = s.gate.session
              ∧ t.gate.fixedMarks = (if all = true ∧ s.wipe.journal.phase = .none then
                  s.gate.fixedMarks.set p.extent.val p.mark else s.gate.fixedMarks)))
    ∧ (∀ (s : State) (r : RoundRec) (b : Nat) (m : Slots) (index : Arg) (w : BitVec 32) (item : FitItem),
        InRound s r (.inField .accept b) → r.part ≠ .rejected → r.answered = true → r.kind = some .fit →
        r.staged = true → s.stat.fit = some (index, w) → fitItemOf index w = some item →
        ∃ t, exec (.roundEnd m) s = .next t ∧ t.stat.fit = none
          ∧ if takenMap s.sup (s.line.offer == .slot) m = rosterSet s.sup.roster
                ∧ r.mapOf .stored = rosterSet s.sup.roster then
              t.pol.table = s.pol.table.withItem item
                ∧ t.gate.fixedMarks = (match item with
                  | .marks group codes => withMarks s.gate.fixedMarks group codes
                  | _ => s.gate.fixedMarks)
                ∧ t.pol.armed &&& changedEntries s.pol.table (s.pol.table.withItem item) = 0
            else t.pol.table = s.pol.table ∧ t.gate.fixedMarks = s.gate.fixedMarks)
    ∧ (∀ (p q : PolicyTable) (item : FitItem), q = p.withItem item →
        (∀ faultDisarm frozen, item = .header faultDisarm frozen →
          q.faultDisarm = faultDisarm ∧ q.frozen = frozen ∧ q.entries = p.entries)
        ∧ (∀ e cause causeArg action links repeats armAtStart,
            item = .partA e cause causeArg action links repeats armAtStart →
          q.faultDisarm = p.faultDisarm ∧ q.frozen = p.frozen
            ∧ ∀ x : EntryNo, q.entries.get x = if x = e then { p.entries.get e with
                causeCode := cause, causeArg := causeArg, actionCode := action, links := links
                repeats := repeats, armAtStart := armAtStart } else p.entries.get x)
        ∧ (∀ e timer seconds, item = .partB e timer seconds →
          q.faultDisarm = p.faultDisarm ∧ q.frozen = p.frozen
            ∧ ∀ x : EntryNo, q.entries.get x =
                if x = e then { p.entries.get e with timer := timer, seconds := seconds } else p.entries.get x)
        ∧ ((∀ group codes, item ≠ .marks group codes) →
            q.check = Config.policyCheckOf q.faultDisarm q.frozen q.entries)
        ∧ ∀ group codes, item = .marks group codes → q = p)
    ∧ ∀ (marks : Vector FixedMark 64) (k : Fin 4) (codes : BitVec 32) (e : Extent),
      ¬(codes.getLsbD (31 - 2 * (e.val % 16)) = true ∧ codes.getLsbD (30 - 2 * (e.val % 16)) = true) →
        (withMarks marks k.val codes).get e =
          if e.val / 16 = k.val then
            (match codes.getLsbD (31 - 2 * (e.val % 16)), codes.getLsbD (30 - 2 * (e.val % 16)) with
              | false, true => .pub
              | true, false => .frozen
              | _, _ => .normal)
          else marks.get e

/-- The end of a PROGRESS round: COMPLETE with a full DONE map it takes the phase to NONE, the tally to 0 and WIPING to
BLANK, and a non-zero BAD_HI sets ERASE_BAD; otherwise journal, tally and guard state stay (R16, R105, R156, R157). -/
def Obligations.AFullProgressEndsTheWipe : Prop :=
  ∀ (s : State) (r : RoundRec) (b : Nat) (m : Slots) (full : Bool), InRound s r (.inField .accept b) →
    r.part ≠ .rejected → r.answered = true → r.kind = some .progress →
    full = (takenMap s.sup (s.line.offer == .slot) m == rosterSet s.sup.roster
      && r.mapOf .done == rosterSet s.sup.roster) →
    ∃ t, exec (.roundEnd m) s = .next t ∧ t.nv = s.nv ∧ t.pol.table = s.pol.table
      ∧ (full = true →
          t.wipe.journal = { s.wipe.journal with phase := .none } ∧ t.wipe.progressTimer = none ∧ t.tal.tally = 0
            ∧ (s.grd.state = .wiping → t.grd.state = .blank)
            ∧ (0 < r.numberOf .badHi → t.stat.flags.has .eraseBad = true)
            ∧ (s.grd.state = .wiping → s.wipe.busy = none → s.wipe.again = none →
                t.wipe.busy = some { s.wipe.journal with phase := .none })
            ∧ (s.pol.armed = 0 → t.tal.deadline = none ∧ t.tal.holdOwed = 0))
      ∧ (full = false →
          t.wipe.journal = s.wipe.journal ∧ t.tal.tally = s.tal.tally ∧ s.grd.state.triggersMay t.grd.state)

/-- The ends of the observer's STATUS and CLEAR rounds: the carried set gets its reported marks unless a second driver
was met; a CLEAR for this station or for 15 clears the flags it names that are set and reported, with their marks, and
no other (R169, R172). ROLL_SHORT and PEER_LOST are among them where this round's end does not set them itself: no request
in flight has had its ten retries, and no peer that did not answer has its count go from 2 to 3 (R51, R55). -/
def Obligations.StatusReportsAndClearClears : Prop :=
  ∀ (s : State) (r : RoundRec) (b : Nat) (m : Slots) (f : Flag), InRound s r (.inField .accept b) →
    r.part ≠ .rejected → r.answered = true →
    (f = .rollShort → ∀ y ∈ s.eng.queue, y.inFlight = true → y.retries < 10) →
    (f = .peerLost → ∀ i : Fin 8, s.eng.absence.get i = 2 →
      s.sup.roster ≤ i.val ∨ i.val = s.sup.stn.toNat ∨ r.answer.getLsbD i.val = true) →
    (r.kind = some .status →
      ∃ t, exec (.roundEnd m) s = .next t ∧ t.stat.flags.has f = s.stat.flags.has f
        ∧ t.stat.reported.getLsbD f.bit = (s.stat.reported.getLsbD f.bit
            || (!r.secondDriver && (r.carried.getD 0).getLsbD f.bit)))
    ∧ (r.kind = some .clear →
      ∃ t, exec (.roundEnd m) s = .next t
        ∧ if (clearTarget r.arg = s.sup.stn.toNat ∨ clearTarget r.arg = 15) ∧ r.arg.getLsbD f.bit = true
              ∧ s.stat.reported.getLsbD f.bit = true ∧ s.stat.flags.has f = true then
            t.stat.flags.has f = false ∧ t.stat.reported.getLsbD f.bit = false
          else t.stat.flags.has f = s.stat.flags.has f
            ∧ t.stat.reported.getLsbD f.bit = s.stat.reported.getLsbD f.bit)

/-! ## Stores -/

/-- A store for which the station holds the line counts as made when it finishes within the field, and its owner takes
it; one that fails releases the line, counts as not made, sets STORE_FAIL, and a staging is lost, while the tally's and
the journal's wait to be begun again (R31, R93, R101, R140, R145; log 18). One that finishes when the station no longer
holds the line for it, in whatever field or round or in none, is its owner's alone (R31, R93, R101, R140, R145). Once a
destruction has dropped the staging that the station holds the line for, no store ends the hold: an older one still in
progress is not its own (R80; log 52). -/
def Obligations.HeldStoresCountWhenMadeInTheField : Prop :=
  (∀ (s : State) (r : RoundRec) (b : Nat) (owner : HoldOwner), InRound s r (.inField .hold b) →
      heldStore s = some owner →
      (∃ t, exec .holdStoreFinished s = .next t ∧ t.line.ownDrive = false
        ∧ t.eng.round = some { r with made := true }
        ∧ (owner = .tally → ∀ v, s.tal.tallyStore.busy = some v → t.nv.tally = v)
        ∧ (owner = .credential → ∀ p, s.cred.busy = some (.stage p) →
            t.nv.pendingSlot = some { p with stored := true })
        ∧ (owner = .pendingMark → ∀ p d, s.gate.pmBusy = some (.stage p d) →
            t.nv.pendingMark = some { p with stored := true }
              ∧ (d = false → t.gate.pendingMark = some { p with stored := true }))
        ∧ (owner = .journal → ∀ j, s.wipe.busy = some j → t.nv.journal = j ∧ t.wipe.journal = j))
      ∧ ∃ t, exec .holdStoreFailed s = .next t ∧ t.line.ownDrive = false ∧ t.stat.flags.has .storeFail = true
        ∧ (∃ x, t.eng.round = some x ∧ x.made = r.made)
        ∧ t.nv.tally = s.nv.tally ∧ t.nv.journal = s.nv.journal
        ∧ (owner = .tally → s.grd.state ≠ .strapFault → t.tal.tallyStore = { again := true })
        ∧ (owner = .credential → s.cred.waiting = [] → t.cred.pendingSlot = none)
        ∧ (owner = .pendingMark → s.gate.pmWaiting = [] → t.gate.pendingMark = none)
        ∧ (owner = .journal → s.grd.state ≠ .strapFault →
            t.wipe.journal = s.wipe.journal ∧ t.wipe.busy = none ∧ t.wipe.again = s.wipe.busy
              ∧ t.wipe.orderPending = s.wipe.orderPending))
    ∧ (∀ (s : State) (r : RoundRec) (b : Nat), Settled s → InRound s r (.inField .hold b) → r.kind = some .setcode →
      s.cred.stagingDropped = true →
      exec .holdStoreFinished s = .next s ∧ exec .holdStoreFailed s = .next s)
    ∧ ∀ s : State,
      (∀ v, heldStore s ≠ some .tally → s.tal.tallyStore.busy = some v →
        ∃ t, exec (.lateStoreFinished .tally) s = .next t ∧ t.nv = { s.nv with tally := v }
          ∧ t.eng.round = s.eng.round ∧ t.tal = { s.tal with tallyStore := s.tal.tallyStore.made s.mayStore })
      ∧ (∀ p, heldStore s ≠ some .credential → s.cred.busy = some (.stage p) → s.cred.waiting = [] →
        ∃ t, exec (.lateStoreFinished .credential) s = .next t
          ∧ t.nv = { s.nv with pendingSlot := some { p with stored := true } } ∧ t.eng.round = s.eng.round
          ∧ t.cred = { s.cred with busy := none, pendingSlot := some { p with stored := true } })
      ∧ (∀ p, heldStore s ≠ some .pendingMark → s.gate.pmBusy = some (.stage p false) → s.gate.pmWaiting = [] →
        ∃ t, exec (.lateStoreFinished .pendingMark) s = .next t
          ∧ t.nv = { s.nv with pendingMark := some { p with stored := true } } ∧ t.eng.round = s.eng.round
          ∧ t.gate.pendingMark = some { p with stored := true } ∧ t.gate.pmBusy = none)
      ∧ ∀ j, heldStore s ≠ some .journal → s.wipe.busy = some j → j.phase = .ordered →
        s.wipe.journal.phase ≠ .ordered → s.grd.state ≠ .strapFault →
        ∃ t, exec (.lateStoreFinished .journal) s = .next t ∧ t.wipe.journal = j ∧ t.nv.journal = j
          ∧ t.wipe.orderPending = none ∧ t.eng.round = s.eng.round

/-- JOURNAL_STORE_MADE of ORDERED: the order is in force and no longer pending, the table's destruction is asked for,
and but for STARTING the station is in WIPING without key, hold or matched slot (R16, R98, R145, R149). Behind another
store the destruction drops what waits, and that a staging was among it is kept (R80; log 52). -/
def Obligations.AnOrderInForceWipes : Prop :=
  ∀ (s : State) (j : Journal), heldStore s ≠ some .journal → s.wipe.busy = some j → j.phase = .ordered →
    s.wipe.journal.phase ≠ .ordered → s.grd.state ≠ .strapFault →
    ∃ t, exec .journalStoreMade s = .next t ∧ t.wipe.journal = j ∧ t.nv.journal = j ∧ t.wipe.orderPending = none
      ∧ (s.cred.busy = none → t.cred.busy = some .destroy)
      ∧ (s.cred.busy ≠ none → s.cred.busy ≠ some .destroy → t.cred.waiting = [.destroy]
          ∧ (t.cred.stagingDropped = true ↔ (∃ p, .stage p ∈ s.cred.waiting) ∨ s.cred.stagingDropped = true))
      ∧ (s.grd.state = .starting → t.grd.state = .starting)
      ∧ (s.grd.state ≠ .starting → t.grd.state = .wiping)
      ∧ (s.grd.state ≠ .starting → s.grd.state ≠ .wiping →
          t.cred.plainKey = none ∧ t.cred.genKey = none ∧ t.grd.matched = none ∧ t.grd.mustChange = false
            ∧ t.grd.batteryTimer = none ∧ (s.pol.armed = 0 → t.tal.deadline = none ∧ t.tal.holdOwed = 0))

/-- JOURNAL_STORE_MADE of KEY_GONE, PASSING and DONE: with bus power in WIPING, KEY_GONE begins the store of PASSING
and PASSING takes a step: it asks for the erase of its next extent, and of that one, when it is not PUBLIC, goes past every
PUBLIC extent that follows when it is, and begins the store of DONE past the last; DONE releases FROZEN marks, posts PROGRESS and starts its timer (R150, R151, R154). -/
def Obligations.MadeJournalStoresDriveThePass : Prop :=
  ∀ (s : State) (j : Journal), heldStore s ≠ some .journal → s.wipe.busy = some j → s.wipe.waiting = none →
    s.wipe.again = none → s.wipe.erase = .absent → s.gate.eraseWaiting = none → s.grd.state = .wiping →
    s.sup.state = .bus →
    ∃ t, exec .journalStoreMade s = .next t ∧ t.wipe.journal = j ∧ t.nv.journal = j ∧ t.grd.state = .wiping
      ∧ (j.phase = .keyGone → t.wipe.busy = some { j with phase := .passing })
      ∧ (j.phase = .passing → PassStepTaken j s t)
      ∧ (j.phase = .done → s.wipe.journal.phase ≠ .done →
          (∀ e : Extent, t.gate.fixedMarks.get e =
              if s.gate.fixedMarks.get e = .frozen then .normal else s.gate.fixedMarks.get e)
            ∧ t.eng.queue = queuePost .progress 0 s.eng.queue ∧ t.wipe.progressTimer = some (s.now + 1000))

/-- JOURNAL_STORE_FAILED sets STORE_FAIL and the same store is begun again, before one that waits, at once or, for an
ORDERED store inside a round, when the round is over; a NONE store that an order supersedes gives way to it; the
journal in force and in storage stay (R143, R145, R156; when the repeat begins is log 18). TABLE_DESTRUCTION_MADE, or CREDENTIAL_STORE_ENDED made of a
destruction, two commands that the model takes as one store's end (log 26): table in force and stored is empty with
live stamp 0 and no pending change, and the wipe engine begins the KEY_GONE store, or has it wait for the store in
progress or to be repeated (R98, R143, R149; that it waits so is log 45). CREDENTIAL_STORE_ENDED: a promotion made writes
slot, live stamp and pending slot in storage together; one that fails sets STORE_FAIL and is repeated, at once by log 18;
a staging that fails is lost (R80, R93, R95). -/
def Obligations.JournalAndCredentialStoresEnd : Prop :=
  (∀ (s : State) (j : Journal), Settled s → heldStore s ≠ some .journal → s.wipe.busy = some j →
      s.grd.state ≠ .strapFault →
      ∃ t, exec .journalStoreFailed s = .next t ∧ t.stat.flags.has .storeFail = true ∧ t.nv = s.nv
        ∧ (∀ w, j.phase = .none → s.wipe.waiting = some w →
            t.wipe = { s.wipe with busy := some w, waiting := none })
        ∧ (j.phase ≠ .none ∨ s.wipe.waiting = none →
            t.wipe = (if s.eng.round = none ∨ j.phase ≠ .ordered then s.wipe
              else { s.wipe with busy := none, again := some j })))
    ∧ (∀ (s : State) (c : Instr), Settled s → (c = .tableDestructionMade ∨ c = .credentialStoreEnded true) →
        s.cred.busy = some .destroy → s.cred.waiting = [] → s.wipe.journal.phase = .ordered →
        s.grd.state ≠ .strapFault →
        ∃ t, exec c s = .next t
          ∧ t.cred = { s.cred with
              slots := Vector.replicate 4 {}, liveStamp := 0, pendingSlot := none, roundEntry := none
              roundChange := none, busy := none }
          ∧ t.nv = { s.nv with slots := Vector.replicate 4 {}, liveStamp := 0, pendingSlot := none }
          ∧ t.wipe = (if s.wipe.busy = none ∧ s.wipe.again = none then
              { s.wipe with busy := some { s.wipe.journal with phase := .keyGone } }
            else { s.wipe with waiting := some { s.wipe.journal with phase := .keyGone } }))
    ∧ (∀ (s : State) (p : PendingChange), heldStore s ≠ some .credential → s.cred.waiting = [] →
        s.grd.state ≠ .strapFault →
        (s.cred.busy = some (.promote p) →
          (∃ t, exec (.credentialStoreEnded true) s = .next t ∧ t.cred = { s.cred with busy := none }
            ∧ t.nv = { s.nv with
                slots := s.nv.slots.set p.target.val ⟨p.contents, p.stamp⟩, liveStamp := p.stamp, pendingSlot := none })
          ∧ ∃ t, exec (.credentialStoreEnded false) s = .next t ∧ t.cred = s.cred ∧ t.nv = s.nv
            ∧ t.stat.flags.has .storeFail = true)
        ∧ (s.cred.busy = some (.stage p) →
          (∃ t, exec (.credentialStoreEnded true) s = .next t
            ∧ t.cred = { s.cred with busy := none, pendingSlot := some { p with stored := true } }
            ∧ t.nv = { s.nv with pendingSlot := some { p with stored := true } })
          ∧ ∃ t, exec (.credentialStoreEnded false) s = .next t
            ∧ t.cred = { s.cred with busy := none, pendingSlot := none } ∧ t.nv = s.nv
            ∧ t.stat.flags.has .storeFail = true))

/-- TALLY_STORE_ENDED and HOLD_OWED_STORE_ENDED: made, the value is stored and the waiting one stored next; failed,
STORE_FAIL is set and a store of the value in force begins, or waits for the end of a hold field that it fails in with
no value waiting (R101, R108; that outside a hold field it begins at once is log 18). FLAG_STORE_ENDED, in every
guard state: made, the flags are stored and the waiting ones next; failed, STORE_FAIL is set in force and the flags in
force are stored again (R2, R168). -/
def Obligations.TallyHoldAndFlagStoresEnd : Prop :=
  (∀ (s : State) (v : Nat), Settled s → s.grd.state ≠ .strapFault →
      (s.tal.tallyStore.busy = some v → heldStore s ≠ some .tally →
        EndsIn (.tallyStoreEnded true) s { s with
          nv := { s.nv with tally := v }
          tal := { s.tal with tallyStore := { busy := s.tal.tallyStore.waiting } } }
        ∧ ∃ t, exec (.tallyStoreEnded false) s = .next t ∧ t.nv = s.nv ∧ t.stat.flags.has .storeFail = true
          ∧ t.tal = { s.tal with tallyStore :=
              if s.inHold ∧ s.tal.tallyStore.waiting = none then { again := true } else { busy := some s.tal.tally } })
      ∧ (s.tal.owedStore.busy = some v →
        EndsIn (.holdOwedStoreEnded true) s { s with
          nv := { s.nv with holdOwed := v }
          tal := { s.tal with owedStore := { busy := s.tal.owedStore.waiting } } }
        ∧ ∃ t, exec (.holdOwedStoreEnded false) s = .next t ∧ t.nv = s.nv ∧ t.stat.flags.has .storeFail = true
          ∧ t.tal = { s.tal with owedStore :=
              if s.inHold ∧ s.tal.owedStore.waiting = none then { again := true }
              else { busy := some s.tal.holdOwed } }))
    ∧ (∀ (s : State) (v : FlagSet), Settled s → s.stat.store.busy = some v →
        EndsIn (.flagStoreEnded true) s { s with
          nv := { s.nv with flags := v }
          stat := { s.stat with store := { busy := s.stat.store.waiting } } }
        ∧ ∃ t, exec (.flagStoreEnded false) s = .next t ∧ t.nv = s.nv
          ∧ t.stat = { s.stat with
              flags := s.stat.flags ||| Flag.storeFail.mask
              reported := s.stat.reported &&& ~~~Flag.storeFail.mask
              store := { busy := some (s.stat.flags ||| Flag.storeFail.mask) } })

/-- FIXED_MARK_STORE_ENDED and POLICY_STORE_ENDED: made, the record is stored, a promotion's store empties the pending
mark with it, and the waiting record is stored next; failed, STORE_FAIL is set and the record in force is stored again
(R129, R141, R174; that it is begun at once is log 18). PENDING_MARK_STORE_ENDED: a staging made late has its stored mark, or is emptied by a further store
when its round has discarded it; the emptying store made leaves the record empty; failed, STORE_FAIL is set, a staging
is lost and an emptying store repeated (R140, R141; that an emptying store is repeated is log 19, that it is begun at
once log 18). -/
def Obligations.MarkPolicyAndPendingMarkStoresEnd : Prop :=
  (∀ (s : State), Settled s → s.grd.state ≠ .strapFault →
      (∀ w, s.gate.markStore.busy = some w →
        EndsIn (.fixedMarkStoreEnded true) s { s with
          nv := { s.nv with
            fixedMarks := w.marks, pendingMark := if w.emptiesPending then none else s.nv.pendingMark }
          gate := { s.gate with markStore := { busy := s.gate.markStore.waiting } } }
        ∧ ∃ t, exec (.fixedMarkStoreEnded false) s = .next t ∧ t.nv = s.nv ∧ t.stat.flags.has .storeFail = true
          ∧ t.gate.fixedMarks = s.gate.fixedMarks
          ∧ t.gate.markStore = { busy := some ⟨s.gate.fixedMarks, w.emptiesPending
              || s.gate.markStore.waiting.any (·.emptiesPending)⟩ })
      ∧ ∀ v, s.pol.store.busy = some v →
        EndsIn (.policyStoreEnded true) s { s with
          nv := { s.nv with policy := v }
          pol := { s.pol with store := { busy := s.pol.store.waiting } } }
        ∧ ∃ t, exec (.policyStoreEnded false) s = .next t ∧ t.nv = s.nv ∧ t.stat.flags.has .storeFail = true
          ∧ t.pol.table = s.pol.table ∧ t.pol.store = { busy := some s.pol.table })
    ∧ (∀ (s : State) (p : PendingMark), Settled s → heldStore s ≠ some .pendingMark → s.gate.pmWaiting = [] →
        s.grd.state ≠ .strapFault →
        (s.gate.pmBusy = some .empty →
          EndsIn (.pendingMarkStoreEnded true) s { s with
            nv := { s.nv with pendingMark := none }, gate := { s.gate with pmBusy := none } }
          ∧ ∃ t, exec (.pendingMarkStoreEnded false) s = .next t ∧ t.nv = s.nv ∧ t.gate = s.gate
            ∧ t.stat.flags.has .storeFail = true)
        ∧ (s.gate.pmBusy = some (.stage p false) →
          EndsIn (.pendingMarkStoreEnded true) s { s with
            nv := { s.nv with pendingMark := some { p with stored := true } }
            gate := { s.gate with pmBusy := none, pendingMark := some { p with stored := true } } }
          ∧ ∃ t, exec (.pendingMarkStoreEnded false) s = .next t ∧ t.nv = s.nv
            ∧ t.gate = { s.gate with pmBusy := none, pendingMark := none } ∧ t.stat.flags.has .storeFail = true)
        ∧ (s.gate.pmBusy = some (.stage p true) →
          exec (.pendingMarkStoreEnded true) s = .next { s with
            nv := { s.nv with pendingMark := some { p with stored := true } }
            gate := { s.gate with pmBusy := some .empty, pendingMark := none } }))

/-! ## The bank gate -/

/-- READ, WRITE and TRIM are decided by the first row of the table of R132 that matches: a refusal is returned at once
and is the whole answer; a request that is forwarded stays presented, and is issued at once when the port is READY,
there is room in the list and no erase waits (R131, R132, R133, R137). -/
def Obligations.TheGateDecidesByItsTable : Prop :=
  (∀ (s : State) (r : BridgeRequest),
      gateDecision s r =
        if s.sup.state ≠ .bus then .refuse .noPower
        else if s.grd.state = .strapFault ∨ s.grd.state = .closing then .refuse .locked
        else if r.kind = .read ∧ s.gate.fixedMarks.get r.extent = .pub then .forward
        else if s.grd.state = .wiping then .refuse .wiping
        else if s.grd.state = .opened ∧ s.grd.mustChange = true then .refuse .mustChange
        else if s.grd.state = .starting ∨ s.grd.state = .blank ∨ s.grd.state = .locked ∨ s.grd.state = .held then
          .refuse .locked
        else if (r.kind = .write ∨ r.kind = .trim) ∧ s.gate.fixedMarks.get r.extent = .pub then
          (if s.grd.state = .admin ∧ s.gate.markLockOpen = true then .forward else .refuse .readOnly)
        else if (r.kind = .write ∨ r.kind = .trim) ∧ s.gate.fixedMarks.get r.extent = .frozen then .refuse .frozen
        else if (r.kind = .write ∨ r.kind = .trim) ∧ s.gate.session.get r.extent = .readOnly then .refuse .readOnly
        else .forward)
    ∧ ∀ (s : State) (e : Extent) (b : Nat) (c : Instr) (k : AccessKind), Settled s → s.sup.state ≠ .off →
      s.gate.presented = none → (c = .read e b ∧ k = .read ∨ c = .write e b ∧ k = .write ∨ c = .trim e b ∧ k = .trim) →
      (∀ x, gateDecision s ⟨k, e, b⟩ = .refuse x →
        exec c s = .next { s with toBridge := s.toBridge ++ [.refusal ⟨k, e, b⟩ x] })
      ∧ (gateDecision s ⟨k, e, b⟩ = .forward → s.sup.step ≠ .loading →
        exec c s = .next
          (if s.gate.portReady = true ∧ s.gate.outstanding.length < 4 then
            { s with
              toBank := s.toBank ++ [.access ⟨k, e, b⟩]
              gate := { s.gate with outstanding := s.gate.outstanding ++ [⟨k, e, b⟩], portReady := false } }
          else { s with gate := { s.gate with presented := some ⟨k, e, b⟩ } }))

/-- A second request is not taken while one is presented (R131). PORT_READY with bus power grants the port by the
table: an erase alone, a request alone, and with both the request while the yield count is below 8, the erase at 8;
with no candidate the port stays READY (R137, R138). -/
def Obligations.OneRequestAndTheYieldRule : Prop :=
  (∀ (s : State) (r : BridgeRequest) (c : Instr), Settled s → s.gate.presented = some r →
      (∃ e b, c = .read e b ∨ c = .write e b ∨ c = .trim e b) → exec c s = .next s)
    ∧ (∀ (s : State), Settled s → s.sup.state = .bus → s.sup.step ≠ .loading → s.grd.state ≠ .strapFault →
        exec .portReady s = .next
          (match bridgeCandidate s, s.gate.eraseWaiting with
            | none, none => { s with gate := { s.gate with portReady := true } }
            | none, some e => { s with
                toBank := s.toBank ++ [.erase e]
                gate := { s.gate with eraseWaiting := none, yieldCount := 0, portReady := false }
                wipe := { s.wipe with erase := .issued } }
            | some r, none => { s with
                toBank := s.toBank ++ [.access r]
                gate := { s.gate with
                  presented := none, outstanding := s.gate.outstanding ++ [r], portReady := false } }
            | some r, some e =>
              if s.gate.yieldCount < 8 then { s with
                toBank := s.toBank ++ [.access r]
                gate := { s.gate with
                  presented := none, outstanding := s.gate.outstanding ++ [r], portReady := false
                  yieldCount := s.gate.yieldCount + 1 } }
              else { s with
                toBank := s.toBank ++ [.erase e]
                gate := { s.gate with eraseWaiting := none, yieldCount := 0, portReady := false }
                wipe := { s.wipe with erase := .issued } }))

/-- ACCESS_COMPLETION goes to the oldest outstanding request, with the bank's status, and ends CLOSING when it empties
the list; with the list empty it is dropped (R15, R134). ERASE_COMPLETION with an erase ISSUED: success stores the next
extent with attempt count 0; a failure is counted, and the third lists the extent bad, sets ERASE_BAD and moves on;
with none ISSUED it is dropped (R152). That ERASE_BAD is set before the store that lists the extent is made is the
model's choice (log 55). -/
def Obligations.CompletionsReachWhatTheyComplete : Prop :=
  (∀ (status : Nat) (s : State), Settled s →
      (s.gate.outstanding = [] → exec (.accessCompletion status) s = .next s)
      ∧ ∀ r rest, s.gate.outstanding = r :: rest →
        (s.gate.portReady = false → s.grd.state ≠ .closing ∨ rest ≠ [] →
          exec (.accessCompletion status) s = .next { s with
            toBridge := s.toBridge ++ [.completion r status], gate := { s.gate with outstanding := rest } })
        ∧ ∃ t, exec (.accessCompletion status) s = .next t ∧ t.nv = s.nv
          ∧ (∃ l, t.toBridge = s.toBridge ++ .completion r status :: l)
          ∧ (s.grd.state = .closing → rest = [] →
              (t.grd.state = .locked ∨ t.grd.state = .held) ∧ t.cred.plainKey = none ∧ t.grd.matched = none
                ∧ t.grd.mustChange = false
                ∧ (s.tal.deadline ≠ none → t.grd.state = .held)))
    ∧ (∀ (s : State), Settled s →
        (s.wipe.erase ≠ .issued → ∀ ok, exec (.eraseCompletion ok) s = .next s)
        ∧ (s.wipe.erase = .issued → s.wipe.busy = none → s.wipe.again = none → s.grd.state ≠ .strapFault →
          exec (.eraseCompletion true) s = .next { s with wipe := { s.wipe with
              erase := .absent
              busy := some { s.wipe.journal with nextExtent := s.wipe.journal.nextExtent + 1, attempts := 0 } } }
          ∧ (s.wipe.journal.attempts < 2 →
            exec (.eraseCompletion false) s = .next { s with wipe := { s.wipe with
              erase := .absent
              busy := some { s.wipe.journal with attempts := s.wipe.journal.attempts + 1 } } })
          ∧ (s.wipe.journal.attempts = 2 →
            exec (.eraseCompletion false) s = .next { s with
              wipe := { s.wipe with
                erase := .absent
                busy := some { s.wipe.journal with
                  bad := s.wipe.journal.bad ++ [s.wipe.journal.nextExtent]
                  nextExtent := s.wipe.journal.nextExtent + 1
                  attempts := 0 } }
              stat := { s.stat with
                flags := s.stat.flags ||| Flag.eraseBad.mask
                reported := s.stat.reported &&& ~~~Flag.eraseBad.mask
                store := s.stat.store.put (s.stat.flags ||| Flag.eraseBad.mask) }
              eng := { s.eng with round := s.eng.round.map (·.uncarry .eraseBad) } })))
end

