-- ==== Sys2Proof/Laws/Config.lean ====
section
/-! SUPPORT. What the manual states of the fold (R82) and of the policy check value (R113). -/

namespace Sys2Proof

/-- Two words put together alike are alike. -/
theorem append_parts {m n : Nat} {a a' : BitVec m} {b b' : BitVec n} (h : a ++ b = a' ++ b') : a = a' ∧ b = b' := by
  constructor
  · apply BitVec.eq_of_getLsbD_eq
    intro i hi
    have := congrArg (fun v => v.getLsbD (i + n)) h
    simpa [BitVec.getLsbD_append] using this
  · apply BitVec.eq_of_getLsbD_eq
    intro i hi
    have := congrArg (fun v => v.getLsbD i) h
    simpa [BitVec.getLsbD_append, hi] using this

/-- Entries of different length give different fingerprints, whatever their rounds (R82). -/
theorem Config.fingerprintOf_length {e e' : List FoldSymbol} (a a' : Arg) (h : e.length < 32) (h' : e'.length < 32)
    (hne : e.length ≠ e'.length) : Config.fingerprintOf e a ≠ Config.fingerprintOf e' a' := by
  intro heq
  have h3 := congrArg BitVec.toNat (append_parts (Config.foldMix.injective heq)).1
  simp only [BitVec.toNat_ofNat] at h3
  omega

/-- One entry gives different fingerprints under different ARGs (R82). -/
theorem Config.fingerprintOf_arg (e : List FoldSymbol) {a a' : Arg} (hne : a ≠ a') :
    Config.fingerprintOf e a ≠ Config.fingerprintOf e a' := by
  intro heq
  have h2 := (append_parts (Config.foldMix.injective heq)).2
  have h3 := congrArg BitVec.toNat ((Config.foldRest e).injective h2)
  apply hne
  apply BitVec.eq_of_toNat_eq
  simp only [BitVec.toNat_setWidth] at h3
  have := a.isLt; have := a'.isLt
  omega

/-- The substitute's check value differs from that of any programmed table (R113). -/
theorem Config.policyCheckOf_programmed (fd fr : Bool) (es : Vector PolicyEntry 8)
    (h : ¬(fd = false ∧ fr = false ∧ es = Config.idleEntries)) :
    Config.policyCheckOf fd fr es ≠ Machine.PolicyTable.idle.check := by
  have hi : Machine.PolicyTable.idle.check = Config.policyIdleCheck := by
    simp [Machine.PolicyTable.idle, Config.policyCheckOf]
  rw [hi, Config.policyCheckOf, if_neg h]
  intro heq
  have h1 := congrArg BitVec.toNat heq
  simp only [BitVec.toNat_add, BitVec.toNat_ofNat] at h1
  have := (Config.policyRest fd fr es).isLt
  have := Config.policyIdleCheck.isLt
  omega

end Sys2Proof
end

