-- ==== Sys2Proof/Laws/Frames.lean ====
section
/-! SUPPORT. Frames: for each shared operation, the blocks of State it leaves alone. -/

namespace Sys2Proof.Machine

set_option linter.all false

@[simp] theorem State.note_frame (s : State) (n : Notice) :
    (s.note n).pending = s.pending ∧ (s.note n).now = s.now ∧ (s.note n).draws = s.draws ∧
      (s.note n).toBridge = s.toBridge ∧ (s.note n).toBank = s.toBank ∧ (s.note n).nv = s.nv ∧
      (s.note n).pins = s.pins ∧ (s.note n).sup = s.sup ∧ (s.note n).grd = s.grd ∧ (s.note n).line = s.line ∧
      (s.note n).eng = s.eng ∧ (s.note n).key = s.key ∧ (s.note n).cred = s.cred ∧ (s.note n).tal = s.tal ∧
      (s.note n).pol = s.pol ∧ (s.note n).gate = s.gate ∧ (s.note n).wipe = s.wipe ∧ (s.note n).stat = s.stat := by
  simp only [State.note]
  repeat' split
  all_goals first | rfl | (simp; done) | (simp_all; done)

@[simp] theorem State.setFlag_frame (s : State) (f : Flag) :
    (s.setFlag f).pending = s.pending ∧ (s.setFlag f).now = s.now ∧ (s.setFlag f).draws = s.draws ∧
      (s.setFlag f).toBridge = s.toBridge ∧ (s.setFlag f).toBank = s.toBank ∧ (s.setFlag f).nv = s.nv ∧
      (s.setFlag f).pins = s.pins ∧ (s.setFlag f).sup = s.sup ∧ (s.setFlag f).grd = s.grd ∧
      (s.setFlag f).line = s.line ∧ (s.setFlag f).key = s.key ∧ (s.setFlag f).cred = s.cred ∧
      (s.setFlag f).tal = s.tal ∧ (s.setFlag f).pol = s.pol ∧ (s.setFlag f).gate = s.gate ∧
      (s.setFlag f).wipe = s.wipe := by
  simp only [State.setFlag]
  repeat' split
  all_goals first | rfl | (simp; done) | (simp_all; done)

@[simp] theorem State.clearFlags_frame (s : State) (named : FlagSet) :
    (s.clearFlags named).pending = s.pending ∧ (s.clearFlags named).now = s.now ∧
      (s.clearFlags named).draws = s.draws ∧ (s.clearFlags named).notices = s.notices ∧
      (s.clearFlags named).toBridge = s.toBridge ∧ (s.clearFlags named).toBank = s.toBank ∧
      (s.clearFlags named).nv = s.nv ∧ (s.clearFlags named).pins = s.pins ∧ (s.clearFlags named).sup = s.sup ∧
      (s.clearFlags named).grd = s.grd ∧ (s.clearFlags named).line = s.line ∧ (s.clearFlags named).eng = s.eng ∧
      (s.clearFlags named).key = s.key ∧ (s.clearFlags named).cred = s.cred ∧ (s.clearFlags named).tal = s.tal ∧
      (s.clearFlags named).gate = s.gate ∧ (s.clearFlags named).wipe = s.wipe := by
  simp only [State.clearFlags]
  repeat' split
  all_goals first | rfl | (simp; done) | (simp_all; done)

@[simp] theorem State.reach_frame (s : State) (moment : Nat) :
    (s.reach moment).pending = s.pending ∧ (s.reach moment).draws = s.draws ∧ (s.reach moment).notices = s.notices ∧
      (s.reach moment).toBridge = s.toBridge ∧ (s.reach moment).toBank = s.toBank ∧ (s.reach moment).nv = s.nv ∧
      (s.reach moment).pins = s.pins ∧ (s.reach moment).sup = s.sup ∧ (s.reach moment).grd = s.grd ∧
      (s.reach moment).line = s.line ∧ (s.reach moment).eng = s.eng ∧ (s.reach moment).key = s.key ∧
      (s.reach moment).cred = s.cred ∧ (s.reach moment).tal = s.tal ∧ (s.reach moment).pol = s.pol ∧
      (s.reach moment).gate = s.gate ∧ (s.reach moment).wipe = s.wipe ∧ (s.reach moment).stat = s.stat := by
  simp only [State.reach]
  repeat' split
  all_goals first | rfl | (simp; done) | (simp_all; done)

@[simp] theorem State.tick_frame (s : State) :
    (s.tick).pending = s.pending ∧ (s.tick).draws = s.draws ∧ (s.tick).notices = s.notices ∧
      (s.tick).toBridge = s.toBridge ∧ (s.tick).toBank = s.toBank ∧ (s.tick).nv = s.nv ∧ (s.tick).pins = s.pins ∧
      (s.tick).sup = s.sup ∧ (s.tick).grd = s.grd ∧ (s.tick).line = s.line ∧ (s.tick).eng = s.eng ∧
      (s.tick).key = s.key ∧ (s.tick).cred = s.cred ∧ (s.tick).tal = s.tal ∧ (s.tick).pol = s.pol ∧
      (s.tick).gate = s.gate ∧ (s.tick).wipe = s.wipe ∧ (s.tick).stat = s.stat := by
  simp only [State.tick]
  repeat' split
  all_goals first | rfl | (simp; done) | (simp_all; done)

@[simp] theorem State.post_frame (s : State) (k : RoundKind) (arg : Arg) :
    (s.post k arg).pending = s.pending ∧ (s.post k arg).now = s.now ∧ (s.post k arg).draws = s.draws ∧
      (s.post k arg).notices = s.notices ∧ (s.post k arg).toBridge = s.toBridge ∧ (s.post k arg).toBank = s.toBank ∧
      (s.post k arg).nv = s.nv ∧ (s.post k arg).pins = s.pins ∧ (s.post k arg).sup = s.sup ∧
      (s.post k arg).grd = s.grd ∧ (s.post k arg).line = s.line ∧ (s.post k arg).key = s.key ∧
      (s.post k arg).cred = s.cred ∧ (s.post k arg).tal = s.tal ∧ (s.post k arg).pol = s.pol ∧
      (s.post k arg).gate = s.gate ∧ (s.post k arg).wipe = s.wipe ∧ (s.post k arg).stat = s.stat := by
  simp only [State.post]
  repeat' split
  all_goals first | rfl | (simp; done) | (simp_all; done)

@[simp] theorem State.withdraw_frame (s : State) (k : RoundKind) :
    (s.withdraw k).pending = s.pending ∧ (s.withdraw k).now = s.now ∧ (s.withdraw k).draws = s.draws ∧
      (s.withdraw k).notices = s.notices ∧ (s.withdraw k).toBridge = s.toBridge ∧ (s.withdraw k).toBank = s.toBank ∧
      (s.withdraw k).nv = s.nv ∧ (s.withdraw k).pins = s.pins ∧ (s.withdraw k).sup = s.sup ∧
      (s.withdraw k).grd = s.grd ∧ (s.withdraw k).line = s.line ∧ (s.withdraw k).key = s.key ∧
      (s.withdraw k).cred = s.cred ∧ (s.withdraw k).tal = s.tal ∧ (s.withdraw k).pol = s.pol ∧
      (s.withdraw k).gate = s.gate ∧ (s.withdraw k).wipe = s.wipe ∧ (s.withdraw k).stat = s.stat := by
  simp only [State.withdraw]
  repeat' split
  all_goals first | rfl | (simp; done) | (simp_all; done)

@[simp] theorem State.unqueue_frame (s : State) (k : RoundKind) :
    (s.unqueue k).pending = s.pending ∧ (s.unqueue k).now = s.now ∧ (s.unqueue k).draws = s.draws ∧
      (s.unqueue k).notices = s.notices ∧ (s.unqueue k).toBridge = s.toBridge ∧ (s.unqueue k).toBank = s.toBank ∧
      (s.unqueue k).nv = s.nv ∧ (s.unqueue k).pins = s.pins ∧ (s.unqueue k).sup = s.sup ∧ (s.unqueue k).grd = s.grd ∧
      (s.unqueue k).line = s.line ∧ (s.unqueue k).key = s.key ∧ (s.unqueue k).cred = s.cred ∧
      (s.unqueue k).tal = s.tal ∧ (s.unqueue k).pol = s.pol ∧ (s.unqueue k).gate = s.gate ∧
      (s.unqueue k).wipe = s.wipe ∧ (s.unqueue k).stat = s.stat := by
  simp only [State.unqueue]
  repeat' split
  all_goals first | rfl | (simp; done) | (simp_all; done)

@[simp] theorem State.activityEvent_frame (s : State) :
    (s.activityEvent).pending = s.pending ∧ (s.activityEvent).now = s.now ∧ (s.activityEvent).draws = s.draws ∧
      (s.activityEvent).notices = s.notices ∧ (s.activityEvent).toBridge = s.toBridge ∧
      (s.activityEvent).toBank = s.toBank ∧ (s.activityEvent).nv = s.nv ∧ (s.activityEvent).pins = s.pins ∧
      (s.activityEvent).grd = s.grd ∧ (s.activityEvent).line = s.line ∧ (s.activityEvent).eng = s.eng ∧
      (s.activityEvent).key = s.key ∧ (s.activityEvent).cred = s.cred ∧ (s.activityEvent).tal = s.tal ∧
      (s.activityEvent).pol = s.pol ∧ (s.activityEvent).gate = s.gate ∧ (s.activityEvent).wipe = s.wipe ∧
      (s.activityEvent).stat = s.stat := by
  simp only [State.activityEvent]
  repeat' split
  all_goals first | rfl | (simp; done) | (simp_all; done)

@[simp] theorem State.stayAwake_frame (s : State) :
    (s.stayAwake).pending = s.pending ∧ (s.stayAwake).now = s.now ∧ (s.stayAwake).draws = s.draws ∧
      (s.stayAwake).notices = s.notices ∧ (s.stayAwake).toBridge = s.toBridge ∧ (s.stayAwake).toBank = s.toBank ∧
      (s.stayAwake).nv = s.nv ∧ (s.stayAwake).pins = s.pins ∧ (s.stayAwake).grd = s.grd ∧
      (s.stayAwake).line = s.line ∧ (s.stayAwake).eng = s.eng ∧ (s.stayAwake).key = s.key ∧
      (s.stayAwake).cred = s.cred ∧ (s.stayAwake).tal = s.tal ∧ (s.stayAwake).pol = s.pol ∧
      (s.stayAwake).gate = s.gate ∧ (s.stayAwake).wipe = s.wipe ∧ (s.stayAwake).stat = s.stat := by
  simp only [State.stayAwake]
  repeat' split
  all_goals first | rfl | (simp; done) | (simp_all; done)

@[simp] theorem State.regate_frame (s : State) :
    (s.regate).pending = s.pending ∧ (s.regate).now = s.now ∧ (s.regate).draws = s.draws ∧
      (s.regate).notices = s.notices ∧ (s.regate).toBank = s.toBank ∧ (s.regate).nv = s.nv ∧
      (s.regate).pins = s.pins ∧ (s.regate).sup = s.sup ∧ (s.regate).grd = s.grd ∧ (s.regate).line = s.line ∧
      (s.regate).eng = s.eng ∧ (s.regate).key = s.key ∧ (s.regate).cred = s.cred ∧ (s.regate).tal = s.tal ∧
      (s.regate).pol = s.pol ∧ (s.regate).wipe = s.wipe ∧ (s.regate).stat = s.stat := by
  simp only [State.regate]
  repeat' split
  all_goals first | rfl | (simp; done) | (simp_all; done)

@[simp] theorem State.issueAccess_frame (s : State) (r : BridgeRequest) :
    (s.issueAccess r).pending = s.pending ∧ (s.issueAccess r).now = s.now ∧ (s.issueAccess r).draws = s.draws ∧
      (s.issueAccess r).notices = s.notices ∧ (s.issueAccess r).toBridge = s.toBridge ∧ (s.issueAccess r).nv = s.nv ∧
      (s.issueAccess r).pins = s.pins ∧ (s.issueAccess r).sup = s.sup ∧ (s.issueAccess r).grd = s.grd ∧
      (s.issueAccess r).line = s.line ∧ (s.issueAccess r).eng = s.eng ∧ (s.issueAccess r).key = s.key ∧
      (s.issueAccess r).cred = s.cred ∧ (s.issueAccess r).tal = s.tal ∧ (s.issueAccess r).pol = s.pol ∧
      (s.issueAccess r).wipe = s.wipe ∧ (s.issueAccess r).stat = s.stat := by
  simp only [State.issueAccess]
  repeat' split
  all_goals first | rfl | (simp; done) | (simp_all; done)

@[simp] theorem State.issueErase_frame (s : State) (e : Nat) :
    (s.issueErase e).pending = s.pending ∧ (s.issueErase e).now = s.now ∧ (s.issueErase e).draws = s.draws ∧
      (s.issueErase e).notices = s.notices ∧ (s.issueErase e).toBridge = s.toBridge ∧ (s.issueErase e).nv = s.nv ∧
      (s.issueErase e).pins = s.pins ∧ (s.issueErase e).sup = s.sup ∧ (s.issueErase e).grd = s.grd ∧
      (s.issueErase e).line = s.line ∧ (s.issueErase e).eng = s.eng ∧ (s.issueErase e).key = s.key ∧
      (s.issueErase e).cred = s.cred ∧ (s.issueErase e).tal = s.tal ∧ (s.issueErase e).pol = s.pol ∧
      (s.issueErase e).stat = s.stat := by
  simp only [State.issueErase]
  repeat' split
  all_goals first | rfl | (simp; done) | (simp_all; done)

@[simp] theorem State.grantPort_frame (s : State) :
    (s.grantPort).pending = s.pending ∧ (s.grantPort).now = s.now ∧ (s.grantPort).draws = s.draws ∧
      (s.grantPort).notices = s.notices ∧ (s.grantPort).toBridge = s.toBridge ∧ (s.grantPort).nv = s.nv ∧
      (s.grantPort).pins = s.pins ∧ (s.grantPort).sup = s.sup ∧ (s.grantPort).grd = s.grd ∧
      (s.grantPort).line = s.line ∧ (s.grantPort).eng = s.eng ∧ (s.grantPort).key = s.key ∧
      (s.grantPort).cred = s.cred ∧ (s.grantPort).tal = s.tal ∧ (s.grantPort).pol = s.pol ∧
      (s.grantPort).stat = s.stat := by
  simp only [State.grantPort]
  repeat' split
  all_goals first | rfl | (simp; done) | (simp_all; done)

@[simp] theorem State.dropErase_frame (s : State) :
    (s.dropErase).pending = s.pending ∧ (s.dropErase).now = s.now ∧ (s.dropErase).draws = s.draws ∧
      (s.dropErase).notices = s.notices ∧ (s.dropErase).toBridge = s.toBridge ∧ (s.dropErase).toBank = s.toBank ∧
      (s.dropErase).nv = s.nv ∧ (s.dropErase).pins = s.pins ∧ (s.dropErase).sup = s.sup ∧ (s.dropErase).grd = s.grd ∧
      (s.dropErase).line = s.line ∧ (s.dropErase).eng = s.eng ∧ (s.dropErase).key = s.key ∧
      (s.dropErase).cred = s.cred ∧ (s.dropErase).tal = s.tal ∧ (s.dropErase).pol = s.pol ∧
      (s.dropErase).wipe = s.wipe ∧ (s.dropErase).stat = s.stat := by
  simp only [State.dropErase]
  repeat' split
  all_goals first | rfl | (simp; done) | (simp_all; done)

@[simp] theorem State.keypadReset_frame (s : State) :
    (s.keypadReset).pending = s.pending ∧ (s.keypadReset).now = s.now ∧ (s.keypadReset).draws = s.draws ∧
      (s.keypadReset).notices = s.notices ∧ (s.keypadReset).toBridge = s.toBridge ∧
      (s.keypadReset).toBank = s.toBank ∧ (s.keypadReset).nv = s.nv ∧ (s.keypadReset).pins = s.pins ∧
      (s.keypadReset).sup = s.sup ∧ (s.keypadReset).grd = s.grd ∧ (s.keypadReset).line = s.line ∧
      (s.keypadReset).cred = s.cred ∧ (s.keypadReset).tal = s.tal ∧ (s.keypadReset).pol = s.pol ∧
      (s.keypadReset).gate = s.gate ∧ (s.keypadReset).wipe = s.wipe ∧ (s.keypadReset).stat = s.stat := by
  simp only [State.keypadReset]
  repeat' split
  all_goals first | rfl | (simp; done) | (simp_all; done)

@[simp] theorem State.setGuard_frame (s : State) (g : GuardState) :
    (s.setGuard g).pending = s.pending ∧ (s.setGuard g).now = s.now ∧ (s.setGuard g).draws = s.draws ∧
      (s.setGuard g).toBank = s.toBank ∧ (s.setGuard g).nv = s.nv ∧ (s.setGuard g).pins = s.pins ∧
      (s.setGuard g).line = s.line ∧ (s.setGuard g).cred = s.cred ∧ (s.setGuard g).tal = s.tal ∧
      (s.setGuard g).pol = s.pol ∧ (s.setGuard g).wipe = s.wipe ∧ (s.setGuard g).stat = s.stat := by
  simp only [State.setGuard]
  repeat' split
  all_goals first | rfl | (simp; done) | (simp_all; done)

@[simp] theorem State.endClosing_frame (s : State) :
    (s.endClosing).pending = s.pending ∧ (s.endClosing).now = s.now ∧ (s.endClosing).draws = s.draws ∧
      (s.endClosing).toBank = s.toBank ∧ (s.endClosing).nv = s.nv ∧ (s.endClosing).pins = s.pins ∧
      (s.endClosing).line = s.line ∧ (s.endClosing).tal = s.tal ∧ (s.endClosing).pol = s.pol ∧
      (s.endClosing).wipe = s.wipe ∧ (s.endClosing).stat = s.stat := by
  simp only [State.endClosing]
  repeat' split
  all_goals first | rfl | (simp; done) | (simp_all; done)

@[simp] theorem State.drained_frame (s : State) :
    (s.drained).pending = s.pending ∧ (s.drained).now = s.now ∧ (s.drained).draws = s.draws ∧
      (s.drained).toBank = s.toBank ∧ (s.drained).nv = s.nv ∧ (s.drained).pins = s.pins ∧ (s.drained).line = s.line ∧
      (s.drained).tal = s.tal ∧ (s.drained).pol = s.pol ∧ (s.drained).wipe = s.wipe ∧ (s.drained).stat = s.stat := by
  simp only [State.drained]
  repeat' split
  all_goals first | rfl | (simp; done) | (simp_all; done)

@[simp] theorem State.lockLocally_frame (s : State) :
    (s.lockLocally).pending = s.pending ∧ (s.lockLocally).now = s.now ∧ (s.lockLocally).draws = s.draws ∧
      (s.lockLocally).toBank = s.toBank ∧ (s.lockLocally).nv = s.nv ∧ (s.lockLocally).pins = s.pins ∧
      (s.lockLocally).line = s.line ∧ (s.lockLocally).tal = s.tal ∧ (s.lockLocally).pol = s.pol ∧
      (s.lockLocally).wipe = s.wipe ∧ (s.lockLocally).stat = s.stat := by
  simp only [State.lockLocally]
  repeat' split
  all_goals first | rfl | (simp; done) | (simp_all; done)

@[simp] theorem State.lockForLine_frame (s : State) :
    (s.lockForLine).pending = s.pending ∧ (s.lockForLine).now = s.now ∧ (s.lockForLine).draws = s.draws ∧
      (s.lockForLine).toBank = s.toBank ∧ (s.lockForLine).nv = s.nv ∧ (s.lockForLine).pins = s.pins ∧
      (s.lockForLine).line = s.line ∧ (s.lockForLine).tal = s.tal ∧ (s.lockForLine).pol = s.pol ∧
      (s.lockForLine).wipe = s.wipe ∧ (s.lockForLine).stat = s.stat := by
  simp only [State.lockForLine]
  repeat' split
  all_goals first | rfl | (simp; done) | (simp_all; done)

@[simp] theorem State.openStation_frame (s : State) (slot : CodeSlotNo) (mustChange : Bool) (plain : Option BankKey) :
    (s.openStation slot mustChange plain).pending = s.pending ∧ (s.openStation slot mustChange plain).now = s.now ∧
      (s.openStation slot mustChange plain).draws = s.draws ∧
      (s.openStation slot mustChange plain).toBank = s.toBank ∧ (s.openStation slot mustChange plain).nv = s.nv ∧
      (s.openStation slot mustChange plain).pins = s.pins ∧ (s.openStation slot mustChange plain).line = s.line ∧
      (s.openStation slot mustChange plain).tal = s.tal ∧ (s.openStation slot mustChange plain).pol = s.pol ∧
      (s.openStation slot mustChange plain).wipe = s.wipe ∧ (s.openStation slot mustChange plain).stat = s.stat := by
  simp only [State.openStation]
  repeat' split
  all_goals first | rfl | (simp; done) | (simp_all; done)

@[simp] theorem State.pulse_frame (s : State) (seconds : Nat) :
    (s.pulse seconds).pending = s.pending ∧ (s.pulse seconds).now = s.now ∧ (s.pulse seconds).draws = s.draws ∧
      (s.pulse seconds).notices = s.notices ∧ (s.pulse seconds).toBridge = s.toBridge ∧
      (s.pulse seconds).toBank = s.toBank ∧ (s.pulse seconds).nv = s.nv ∧ (s.pulse seconds).pins = s.pins ∧
      (s.pulse seconds).sup = s.sup ∧ (s.pulse seconds).line = s.line ∧ (s.pulse seconds).eng = s.eng ∧
      (s.pulse seconds).key = s.key ∧ (s.pulse seconds).cred = s.cred ∧ (s.pulse seconds).tal = s.tal ∧
      (s.pulse seconds).pol = s.pol ∧ (s.pulse seconds).gate = s.gate ∧ (s.pulse seconds).wipe = s.wipe ∧
      (s.pulse seconds).stat = s.stat := by
  simp only [State.pulse]
  repeat' split
  all_goals first | rfl | (simp; done) | (simp_all; done)

@[simp] theorem State.setOwed_frame (s : State) (seconds : Nat) :
    (s.setOwed seconds).pending = s.pending ∧ (s.setOwed seconds).now = s.now ∧ (s.setOwed seconds).draws = s.draws ∧
      (s.setOwed seconds).notices = s.notices ∧ (s.setOwed seconds).toBridge = s.toBridge ∧
      (s.setOwed seconds).toBank = s.toBank ∧ (s.setOwed seconds).nv = s.nv ∧ (s.setOwed seconds).pins = s.pins ∧
      (s.setOwed seconds).sup = s.sup ∧ (s.setOwed seconds).grd = s.grd ∧ (s.setOwed seconds).line = s.line ∧
      (s.setOwed seconds).eng = s.eng ∧ (s.setOwed seconds).key = s.key ∧ (s.setOwed seconds).cred = s.cred ∧
      (s.setOwed seconds).pol = s.pol ∧ (s.setOwed seconds).gate = s.gate ∧ (s.setOwed seconds).wipe = s.wipe ∧
      (s.setOwed seconds).stat = s.stat := by
  simp only [State.setOwed]
  repeat' split
  all_goals first | rfl | (simp; done) | (simp_all; done)

@[simp] theorem State.clearHold_frame (s : State) :
    (s.clearHold).pending = s.pending ∧ (s.clearHold).now = s.now ∧ (s.clearHold).draws = s.draws ∧
      (s.clearHold).notices = s.notices ∧ (s.clearHold).toBridge = s.toBridge ∧ (s.clearHold).toBank = s.toBank ∧
      (s.clearHold).nv = s.nv ∧ (s.clearHold).pins = s.pins ∧ (s.clearHold).sup = s.sup ∧ (s.clearHold).grd = s.grd ∧
      (s.clearHold).line = s.line ∧ (s.clearHold).eng = s.eng ∧ (s.clearHold).key = s.key ∧
      (s.clearHold).cred = s.cred ∧ (s.clearHold).pol = s.pol ∧ (s.clearHold).gate = s.gate ∧
      (s.clearHold).wipe = s.wipe ∧ (s.clearHold).stat = s.stat := by
  simp only [State.clearHold]
  repeat' split
  all_goals first | rfl | (simp; done) | (simp_all; done)

@[simp] theorem State.takeDeadline_frame (s : State) :
    (s.takeDeadline).pending = s.pending ∧ (s.takeDeadline).now = s.now ∧ (s.takeDeadline).draws = s.draws ∧
      (s.takeDeadline).toBank = s.toBank ∧ (s.takeDeadline).nv = s.nv ∧ (s.takeDeadline).pins = s.pins ∧
      (s.takeDeadline).line = s.line ∧ (s.takeDeadline).cred = s.cred ∧ (s.takeDeadline).tal = s.tal ∧
      (s.takeDeadline).pol = s.pol ∧ (s.takeDeadline).wipe = s.wipe ∧ (s.takeDeadline).stat = s.stat := by
  simp only [State.takeDeadline]
  repeat' split
  all_goals first | rfl | (simp; done) | (simp_all; done)

@[simp] theorem State.moveDeadline_frame (s : State) (deadline : Nat) (seconds : Nat) :
    (s.moveDeadline deadline seconds).pending = s.pending ∧ (s.moveDeadline deadline seconds).now = s.now ∧
      (s.moveDeadline deadline seconds).draws = s.draws ∧ (s.moveDeadline deadline seconds).toBank = s.toBank ∧
      (s.moveDeadline deadline seconds).nv = s.nv ∧ (s.moveDeadline deadline seconds).pins = s.pins ∧
      (s.moveDeadline deadline seconds).line = s.line ∧ (s.moveDeadline deadline seconds).cred = s.cred ∧
      (s.moveDeadline deadline seconds).pol = s.pol ∧ (s.moveDeadline deadline seconds).wipe = s.wipe ∧
      (s.moveDeadline deadline seconds).stat = s.stat := by
  simp only [State.moveDeadline]
  repeat' split
  all_goals first | rfl | (simp; done) | (simp_all; done)

@[simp] theorem State.holdRequest_frame (s : State) (seconds : Nat) :
    (s.holdRequest seconds).pending = s.pending ∧ (s.holdRequest seconds).now = s.now ∧
      (s.holdRequest seconds).draws = s.draws ∧ (s.holdRequest seconds).toBank = s.toBank ∧
      (s.holdRequest seconds).nv = s.nv ∧ (s.holdRequest seconds).pins = s.pins ∧
      (s.holdRequest seconds).line = s.line ∧ (s.holdRequest seconds).cred = s.cred ∧
      (s.holdRequest seconds).pol = s.pol ∧ (s.holdRequest seconds).wipe = s.wipe ∧
      (s.holdRequest seconds).stat = s.stat := by
  simp only [State.holdRequest]
  repeat' split
  all_goals first | rfl | (simp; done) | (simp_all; done)

@[simp] theorem State.takeGap_frame (s : State) :
    (s.takeGap).pending = s.pending ∧ (s.takeGap).now = s.now ∧ (s.takeGap).draws = s.draws ∧
      (s.takeGap).toBank = s.toBank ∧ (s.takeGap).nv = s.nv ∧ (s.takeGap).pins = s.pins ∧ (s.takeGap).line = s.line ∧
      (s.takeGap).cred = s.cred ∧ (s.takeGap).pol = s.pol ∧ (s.takeGap).wipe = s.wipe ∧ (s.takeGap).stat = s.stat := by
  simp only [State.takeGap]
  repeat' split
  all_goals first | rfl | (simp; done) | (simp_all; done)

@[simp] theorem State.takeDueDeadline_frame (s : State) :
    (s.takeDueDeadline).pending = s.pending ∧ (s.takeDueDeadline).now = s.now ∧ (s.takeDueDeadline).draws = s.draws ∧
      (s.takeDueDeadline).toBank = s.toBank ∧ (s.takeDueDeadline).nv = s.nv ∧ (s.takeDueDeadline).pins = s.pins ∧
      (s.takeDueDeadline).line = s.line ∧ (s.takeDueDeadline).cred = s.cred ∧ (s.takeDueDeadline).tal = s.tal ∧
      (s.takeDueDeadline).pol = s.pol ∧ (s.takeDueDeadline).wipe = s.wipe ∧ (s.takeDueDeadline).stat = s.stat := by
  simp only [State.takeDueDeadline]
  repeat' split
  all_goals first | rfl | (simp; done) | (simp_all; done)

@[simp] theorem State.setTally_frame (s : State) (v : Nat) :
    (s.setTally v).pending = s.pending ∧ (s.setTally v).now = s.now ∧ (s.setTally v).draws = s.draws ∧
      (s.setTally v).toBridge = s.toBridge ∧ (s.setTally v).toBank = s.toBank ∧ (s.setTally v).nv = s.nv ∧
      (s.setTally v).pins = s.pins ∧ (s.setTally v).sup = s.sup ∧ (s.setTally v).grd = s.grd ∧
      (s.setTally v).line = s.line ∧ (s.setTally v).eng = s.eng ∧ (s.setTally v).key = s.key ∧
      (s.setTally v).cred = s.cred ∧ (s.setTally v).pol = s.pol ∧ (s.setTally v).gate = s.gate ∧
      (s.setTally v).wipe = s.wipe ∧ (s.setTally v).stat = s.stat := by
  simp only [State.setTally]
  repeat' split
  all_goals first | rfl | (simp; done) | (simp_all; done)

@[simp] theorem State.enterWiping_frame (s : State) :
    (s.enterWiping).pending = s.pending ∧ (s.enterWiping).now = s.now ∧ (s.enterWiping).draws = s.draws ∧
      (s.enterWiping).toBank = s.toBank ∧ (s.enterWiping).nv = s.nv ∧ (s.enterWiping).pins = s.pins ∧
      (s.enterWiping).line = s.line ∧ (s.enterWiping).pol = s.pol ∧ (s.enterWiping).wipe = s.wipe ∧
      (s.enterWiping).stat = s.stat := by
  simp only [State.enterWiping]
  repeat' split
  all_goals first | rfl | (simp; done) | (simp_all; done)

@[simp] theorem State.enterStrapFault_frame (s : State) :
    (s.enterStrapFault).pending = s.pending ∧ (s.enterStrapFault).now = s.now ∧ (s.enterStrapFault).draws = s.draws ∧
      (s.enterStrapFault).toBank = s.toBank ∧ (s.enterStrapFault).nv = s.nv ∧ (s.enterStrapFault).pins = s.pins ∧
      (s.enterStrapFault).tal = s.tal := by
  simp only [State.enterStrapFault]
  repeat' split
  all_goals first | rfl | (simp; done) | (simp_all; done)

@[simp] theorem State.runAction_frame (s : State) (e : EntryNo) :
    (s.runAction e).pending = s.pending ∧ (s.runAction e).now = s.now ∧ (s.runAction e).draws = s.draws ∧
      (s.runAction e).toBank = s.toBank ∧ (s.runAction e).nv = s.nv ∧ (s.runAction e).pins = s.pins ∧
      (s.runAction e).line = s.line ∧ (s.runAction e).wipe = s.wipe ∧ (s.runAction e).stat = s.stat := by
  simp only [State.runAction]
  repeat' split
  all_goals first | rfl | (simp; done) | (simp_all; done)

@[simp] theorem State.disarm_frame (s : State) (set : BitVec 8) :
    (s.disarm set).pending = s.pending ∧ (s.disarm set).now = s.now ∧ (s.disarm set).draws = s.draws ∧
      (s.disarm set).notices = s.notices ∧ (s.disarm set).toBridge = s.toBridge ∧ (s.disarm set).toBank = s.toBank ∧
      (s.disarm set).nv = s.nv ∧ (s.disarm set).pins = s.pins ∧ (s.disarm set).sup = s.sup ∧
      (s.disarm set).grd = s.grd ∧ (s.disarm set).line = s.line ∧ (s.disarm set).eng = s.eng ∧
      (s.disarm set).key = s.key ∧ (s.disarm set).cred = s.cred ∧ (s.disarm set).tal = s.tal ∧
      (s.disarm set).gate = s.gate ∧ (s.disarm set).wipe = s.wipe ∧ (s.disarm set).stat = s.stat := by
  simp only [State.disarm]
  repeat' split
  all_goals first | rfl | (simp; done) | (simp_all; done)

@[simp] theorem foldl_runAction_frame (l : List EntryNo) (s : State) :
    (l.foldl State.runAction s).pending = s.pending ∧ (l.foldl State.runAction s).now = s.now ∧
      (l.foldl State.runAction s).draws = s.draws ∧ (l.foldl State.runAction s).toBank = s.toBank ∧
      (l.foldl State.runAction s).nv = s.nv ∧ (l.foldl State.runAction s).pins = s.pins ∧
      (l.foldl State.runAction s).line = s.line ∧ (l.foldl State.runAction s).wipe = s.wipe ∧
      (l.foldl State.runAction s).stat = s.stat := by
  induction l generalizing s with
  | nil => simp
  | cons x l ih => simp [ih]

@[simp] theorem State.fire_frame (s : State) (e : EntryNo) :
    (s.fire e).pending = s.pending ∧ (s.fire e).now = s.now ∧ (s.fire e).draws = s.draws ∧
      (s.fire e).toBank = s.toBank ∧ (s.fire e).nv = s.nv ∧ (s.fire e).pins = s.pins ∧ (s.fire e).line = s.line ∧
      (s.fire e).wipe = s.wipe ∧ (s.fire e).stat = s.stat := by
  simp only [State.fire]
  repeat' split
  all_goals first | rfl | (simp; done) | (simp_all; done)

@[simp] theorem State.faultDisarm_frame (s : State) :
    (s.faultDisarm).pending = s.pending ∧ (s.faultDisarm).now = s.now ∧ (s.faultDisarm).draws = s.draws ∧
      (s.faultDisarm).notices = s.notices ∧ (s.faultDisarm).toBridge = s.toBridge ∧
      (s.faultDisarm).toBank = s.toBank ∧ (s.faultDisarm).nv = s.nv ∧ (s.faultDisarm).pins = s.pins ∧
      (s.faultDisarm).sup = s.sup ∧ (s.faultDisarm).grd = s.grd ∧ (s.faultDisarm).line = s.line ∧
      (s.faultDisarm).eng = s.eng ∧ (s.faultDisarm).key = s.key ∧ (s.faultDisarm).cred = s.cred ∧
      (s.faultDisarm).tal = s.tal ∧ (s.faultDisarm).gate = s.gate ∧ (s.faultDisarm).wipe = s.wipe ∧
      (s.faultDisarm).stat = s.stat := by
  simp only [State.faultDisarm]
  repeat' split
  all_goals first | rfl | (simp; done) | (simp_all; done)

@[simp] theorem State.armAtStart_frame (s : State) :
    (s.armAtStart).pending = s.pending ∧ (s.armAtStart).now = s.now ∧ (s.armAtStart).draws = s.draws ∧
      (s.armAtStart).notices = s.notices ∧ (s.armAtStart).toBridge = s.toBridge ∧ (s.armAtStart).toBank = s.toBank ∧
      (s.armAtStart).nv = s.nv ∧ (s.armAtStart).pins = s.pins ∧ (s.armAtStart).sup = s.sup ∧
      (s.armAtStart).grd = s.grd ∧ (s.armAtStart).line = s.line ∧ (s.armAtStart).eng = s.eng ∧
      (s.armAtStart).key = s.key ∧ (s.armAtStart).cred = s.cred ∧ (s.armAtStart).tal = s.tal ∧
      (s.armAtStart).gate = s.gate ∧ (s.armAtStart).wipe = s.wipe ∧ (s.armAtStart).stat = s.stat := by
  simp only [State.armAtStart]
  repeat' split
  all_goals first | rfl | (simp; done) | (simp_all; done)

@[simp] theorem State.armAll_frame (s : State) :
    (s.armAll).pending = s.pending ∧ (s.armAll).now = s.now ∧ (s.armAll).draws = s.draws ∧
      (s.armAll).notices = s.notices ∧ (s.armAll).toBridge = s.toBridge ∧ (s.armAll).toBank = s.toBank ∧
      (s.armAll).nv = s.nv ∧ (s.armAll).pins = s.pins ∧ (s.armAll).sup = s.sup ∧ (s.armAll).line = s.line ∧
      (s.armAll).eng = s.eng ∧ (s.armAll).key = s.key ∧ (s.armAll).cred = s.cred ∧ (s.armAll).tal = s.tal ∧
      (s.armAll).gate = s.gate ∧ (s.armAll).wipe = s.wipe ∧ (s.armAll).stat = s.stat := by
  simp only [State.armAll]
  repeat' split
  all_goals first | rfl | (simp; done) | (simp_all; done)

@[simp] theorem foldl_fire_frame (l : List EntryNo) (s : State) :
    (l.foldl State.fire s).pending = s.pending ∧ (l.foldl State.fire s).now = s.now ∧
      (l.foldl State.fire s).draws = s.draws ∧ (l.foldl State.fire s).toBank = s.toBank ∧
      (l.foldl State.fire s).nv = s.nv ∧ (l.foldl State.fire s).pins = s.pins ∧
      (l.foldl State.fire s).line = s.line ∧ (l.foldl State.fire s).wipe = s.wipe ∧
      (l.foldl State.fire s).stat = s.stat := by
  induction l generalizing s with
  | nil => simp
  | cons x l ih => simp [ih]

@[simp] theorem State.takeNotice_frame (s : State) (n : Notice) :
    (s.takeNotice n).pending = s.pending ∧ (s.takeNotice n).now = s.now ∧ (s.takeNotice n).draws = s.draws ∧
      (s.takeNotice n).toBank = s.toBank ∧ (s.takeNotice n).nv = s.nv ∧ (s.takeNotice n).pins = s.pins ∧
      (s.takeNotice n).line = s.line ∧ (s.takeNotice n).wipe = s.wipe ∧ (s.takeNotice n).stat = s.stat := by
  simp only [State.takeNotice]
  repeat' split
  all_goals first | rfl | (simp; done) | (simp_all; done)

@[simp] theorem drainNotices_frame (n : Nat) (s : State) :
    (drainNotices n s).pending = s.pending ∧ (drainNotices n s).now = s.now ∧ (drainNotices n s).draws = s.draws ∧
      (drainNotices n s).toBank = s.toBank ∧ (drainNotices n s).nv = s.nv ∧ (drainNotices n s).pins = s.pins ∧
      (drainNotices n s).line = s.line ∧ (drainNotices n s).wipe = s.wipe ∧ (drainNotices n s).stat = s.stat := by
  induction n generalizing s with
  | zero => simp [drainNotices]
  | succ n ih =>
    simp only [drainNotices]
    split <;> simp [ih]

@[simp] theorem State.drain_frame (s : State) :
    (s.drain).pending = s.pending ∧ (s.drain).now = s.now ∧ (s.drain).draws = s.draws ∧ (s.drain).toBank = s.toBank ∧
      (s.drain).nv = s.nv ∧ (s.drain).pins = s.pins ∧ (s.drain).line = s.line ∧ (s.drain).wipe = s.wipe ∧
      (s.drain).stat = s.stat := by
  simp only [State.drain]
  repeat' split
  all_goals first | rfl | (simp; done) | (simp_all; done)

@[simp] theorem State.enterDormant_frame (s : State) :
    (s.enterDormant).pending = s.pending ∧ (s.enterDormant).now = s.now ∧ (s.enterDormant).draws = s.draws ∧
      (s.enterDormant).notices = s.notices ∧ (s.enterDormant).toBridge = s.toBridge ∧
      (s.enterDormant).toBank = s.toBank ∧ (s.enterDormant).nv = s.nv ∧ (s.enterDormant).pins = s.pins ∧
      (s.enterDormant).grd = s.grd ∧ (s.enterDormant).eng = s.eng ∧ (s.enterDormant).cred = s.cred ∧
      (s.enterDormant).tal = s.tal ∧ (s.enterDormant).pol = s.pol ∧ (s.enterDormant).gate = s.gate ∧
      (s.enterDormant).wipe = s.wipe ∧ (s.enterDormant).stat = s.stat := by
  simp only [State.enterDormant]
  repeat' split
  all_goals first | rfl | (simp; done) | (simp_all; done)

@[simp] theorem State.dormantIfQuiet_frame (s : State) :
    (s.dormantIfQuiet).pending = s.pending ∧ (s.dormantIfQuiet).now = s.now ∧ (s.dormantIfQuiet).draws = s.draws ∧
      (s.dormantIfQuiet).notices = s.notices ∧ (s.dormantIfQuiet).toBridge = s.toBridge ∧
      (s.dormantIfQuiet).toBank = s.toBank ∧ (s.dormantIfQuiet).nv = s.nv ∧ (s.dormantIfQuiet).pins = s.pins ∧
      (s.dormantIfQuiet).grd = s.grd ∧ (s.dormantIfQuiet).eng = s.eng ∧ (s.dormantIfQuiet).cred = s.cred ∧
      (s.dormantIfQuiet).tal = s.tal ∧ (s.dormantIfQuiet).pol = s.pol ∧ (s.dormantIfQuiet).gate = s.gate ∧
      (s.dormantIfQuiet).wipe = s.wipe ∧ (s.dormantIfQuiet).stat = s.stat := by
  simp only [State.dormantIfQuiet]
  repeat' split
  all_goals first | rfl | (simp; done) | (simp_all; done)

@[simp] theorem State.settle_frame (s : State) :
    (s.settle).pending = s.pending ∧ (s.settle).now = s.now ∧ (s.settle).draws = s.draws ∧ (s.settle).nv = s.nv ∧
      (s.settle).pins = s.pins ∧ (s.settle).stat = s.stat := by
  simp only [State.settle]
  repeat' split
  all_goals first | rfl | (simp; done) | (simp_all; done)

@[simp] theorem State.beginCred_frame (s : State) (j : CredJob) :
    (s.beginCred j).pending = s.pending ∧ (s.beginCred j).now = s.now ∧ (s.beginCred j).draws = s.draws ∧
      (s.beginCred j).notices = s.notices ∧ (s.beginCred j).toBridge = s.toBridge ∧
      (s.beginCred j).toBank = s.toBank ∧ (s.beginCred j).pins = s.pins ∧ (s.beginCred j).sup = s.sup ∧
      (s.beginCred j).grd = s.grd ∧ (s.beginCred j).line = s.line ∧ (s.beginCred j).eng = s.eng ∧
      (s.beginCred j).key = s.key ∧ (s.beginCred j).tal = s.tal ∧ (s.beginCred j).pol = s.pol ∧
      (s.beginCred j).gate = s.gate ∧ (s.beginCred j).wipe = s.wipe ∧ (s.beginCred j).stat = s.stat := by
  simp only [State.beginCred]
  repeat' split
  all_goals first | rfl | (simp; done) | (simp_all; done)

@[simp] theorem State.nextCred_frame (s : State) :
    (s.nextCred).pending = s.pending ∧ (s.nextCred).now = s.now ∧ (s.nextCred).draws = s.draws ∧
      (s.nextCred).notices = s.notices ∧ (s.nextCred).toBridge = s.toBridge ∧ (s.nextCred).toBank = s.toBank ∧
      (s.nextCred).pins = s.pins ∧ (s.nextCred).sup = s.sup ∧ (s.nextCred).grd = s.grd ∧ (s.nextCred).line = s.line ∧
      (s.nextCred).eng = s.eng ∧ (s.nextCred).key = s.key ∧ (s.nextCred).tal = s.tal ∧ (s.nextCred).pol = s.pol ∧
      (s.nextCred).gate = s.gate ∧ (s.nextCred).wipe = s.wipe ∧ (s.nextCred).stat = s.stat := by
  simp only [State.nextCred]
  repeat' split
  all_goals first | rfl | (simp; done) | (simp_all; done)

@[simp] theorem State.askCred_frame (s : State) (j : CredJob) :
    (s.askCred j).pending = s.pending ∧ (s.askCred j).now = s.now ∧ (s.askCred j).draws = s.draws ∧
      (s.askCred j).notices = s.notices ∧ (s.askCred j).toBridge = s.toBridge ∧ (s.askCred j).toBank = s.toBank ∧
      (s.askCred j).pins = s.pins ∧ (s.askCred j).sup = s.sup ∧ (s.askCred j).grd = s.grd ∧
      (s.askCred j).line = s.line ∧ (s.askCred j).eng = s.eng ∧ (s.askCred j).key = s.key ∧
      (s.askCred j).tal = s.tal ∧ (s.askCred j).pol = s.pol ∧ (s.askCred j).gate = s.gate ∧
      (s.askCred j).wipe = s.wipe ∧ (s.askCred j).stat = s.stat := by
  simp only [State.askCred]
  repeat' split
  all_goals first | rfl | (simp; done) | (simp_all; done)

@[simp] theorem State.askDestruction_frame (s : State) :
    (s.askDestruction).pending = s.pending ∧ (s.askDestruction).now = s.now ∧ (s.askDestruction).draws = s.draws ∧
      (s.askDestruction).notices = s.notices ∧ (s.askDestruction).toBridge = s.toBridge ∧
      (s.askDestruction).toBank = s.toBank ∧ (s.askDestruction).pins = s.pins ∧ (s.askDestruction).sup = s.sup ∧
      (s.askDestruction).grd = s.grd ∧ (s.askDestruction).line = s.line ∧ (s.askDestruction).eng = s.eng ∧
      (s.askDestruction).key = s.key ∧ (s.askDestruction).tal = s.tal ∧ (s.askDestruction).pol = s.pol ∧
      (s.askDestruction).gate = s.gate ∧ (s.askDestruction).wipe = s.wipe ∧ (s.askDestruction).stat = s.stat := by
  simp only [State.askDestruction]
  repeat' split
  all_goals first | rfl | (simp; done) | (simp_all; done)

@[simp] theorem State.credMade_frame (s : State) :
    (s.credMade).pending = s.pending ∧ (s.credMade).now = s.now ∧ (s.credMade).draws = s.draws ∧
      (s.credMade).notices = s.notices ∧ (s.credMade).toBridge = s.toBridge ∧ (s.credMade).toBank = s.toBank ∧
      (s.credMade).pins = s.pins ∧ (s.credMade).sup = s.sup ∧ (s.credMade).grd = s.grd ∧ (s.credMade).line = s.line ∧
      (s.credMade).eng = s.eng ∧ (s.credMade).key = s.key ∧ (s.credMade).tal = s.tal ∧ (s.credMade).pol = s.pol ∧
      (s.credMade).gate = s.gate ∧ (s.credMade).wipe = s.wipe ∧ (s.credMade).stat = s.stat := by
  simp only [State.credMade]
  repeat' split
  all_goals first | rfl | (simp; done) | (simp_all; done)

@[simp] theorem State.credFailed_frame (s : State) :
    (s.credFailed).pending = s.pending ∧ (s.credFailed).now = s.now ∧ (s.credFailed).draws = s.draws ∧
      (s.credFailed).toBridge = s.toBridge ∧ (s.credFailed).toBank = s.toBank ∧ (s.credFailed).pins = s.pins ∧
      (s.credFailed).sup = s.sup ∧ (s.credFailed).grd = s.grd ∧ (s.credFailed).line = s.line ∧
      (s.credFailed).key = s.key ∧ (s.credFailed).tal = s.tal ∧ (s.credFailed).pol = s.pol ∧
      (s.credFailed).gate = s.gate ∧ (s.credFailed).wipe = s.wipe := by
  simp only [State.credFailed]
  repeat' split
  all_goals first | rfl | (simp; done) | (simp_all; done)

@[simp] theorem State.promote_frame (s : State) (p : PendingChange) :
    (s.promote p).pending = s.pending ∧ (s.promote p).now = s.now ∧ (s.promote p).draws = s.draws ∧
      (s.promote p).notices = s.notices ∧ (s.promote p).toBridge = s.toBridge ∧ (s.promote p).toBank = s.toBank ∧
      (s.promote p).pins = s.pins ∧ (s.promote p).sup = s.sup ∧ (s.promote p).grd = s.grd ∧
      (s.promote p).line = s.line ∧ (s.promote p).eng = s.eng ∧ (s.promote p).key = s.key ∧
      (s.promote p).tal = s.tal ∧ (s.promote p).pol = s.pol ∧ (s.promote p).gate = s.gate ∧
      (s.promote p).wipe = s.wipe ∧ (s.promote p).stat = s.stat := by
  simp only [State.promote]
  repeat' split
  all_goals first | rfl | (simp; done) | (simp_all; done)

@[simp] theorem State.discardPending_frame (s : State) :
    (s.discardPending).pending = s.pending ∧ (s.discardPending).now = s.now ∧ (s.discardPending).draws = s.draws ∧
      (s.discardPending).notices = s.notices ∧ (s.discardPending).toBridge = s.toBridge ∧
      (s.discardPending).toBank = s.toBank ∧ (s.discardPending).pins = s.pins ∧ (s.discardPending).sup = s.sup ∧
      (s.discardPending).grd = s.grd ∧ (s.discardPending).line = s.line ∧ (s.discardPending).eng = s.eng ∧
      (s.discardPending).key = s.key ∧ (s.discardPending).tal = s.tal ∧ (s.discardPending).pol = s.pol ∧
      (s.discardPending).gate = s.gate ∧ (s.discardPending).wipe = s.wipe ∧ (s.discardPending).stat = s.stat := by
  simp only [State.discardPending]
  repeat' split
  all_goals first | rfl | (simp; done) | (simp_all; done)

@[simp] theorem State.putMarks_frame (s : State) (marks : Vector FixedMark 64) (empties : Bool) :
    (s.putMarks marks empties).pending = s.pending ∧ (s.putMarks marks empties).now = s.now ∧
      (s.putMarks marks empties).draws = s.draws ∧ (s.putMarks marks empties).notices = s.notices ∧
      (s.putMarks marks empties).toBridge = s.toBridge ∧ (s.putMarks marks empties).toBank = s.toBank ∧
      (s.putMarks marks empties).nv = s.nv ∧ (s.putMarks marks empties).pins = s.pins ∧
      (s.putMarks marks empties).sup = s.sup ∧ (s.putMarks marks empties).grd = s.grd ∧
      (s.putMarks marks empties).line = s.line ∧ (s.putMarks marks empties).eng = s.eng ∧
      (s.putMarks marks empties).key = s.key ∧ (s.putMarks marks empties).cred = s.cred ∧
      (s.putMarks marks empties).tal = s.tal ∧ (s.putMarks marks empties).pol = s.pol ∧
      (s.putMarks marks empties).wipe = s.wipe ∧ (s.putMarks marks empties).stat = s.stat := by
  simp only [State.putMarks]
  repeat' split
  all_goals first | rfl | (simp; done) | (simp_all; done)

@[simp] theorem State.marksMade_frame (s : State) :
    (s.marksMade).pending = s.pending ∧ (s.marksMade).now = s.now ∧ (s.marksMade).draws = s.draws ∧
      (s.marksMade).notices = s.notices ∧ (s.marksMade).toBridge = s.toBridge ∧ (s.marksMade).toBank = s.toBank ∧
      (s.marksMade).pins = s.pins ∧ (s.marksMade).sup = s.sup ∧ (s.marksMade).grd = s.grd ∧
      (s.marksMade).line = s.line ∧ (s.marksMade).eng = s.eng ∧ (s.marksMade).key = s.key ∧
      (s.marksMade).cred = s.cred ∧ (s.marksMade).tal = s.tal ∧ (s.marksMade).pol = s.pol ∧
      (s.marksMade).wipe = s.wipe ∧ (s.marksMade).stat = s.stat := by
  simp only [State.marksMade]
  repeat' split
  all_goals first | rfl | (simp; done) | (simp_all; done)

@[simp] theorem State.marksFailed_frame (s : State) :
    (s.marksFailed).pending = s.pending ∧ (s.marksFailed).now = s.now ∧ (s.marksFailed).draws = s.draws ∧
      (s.marksFailed).toBridge = s.toBridge ∧ (s.marksFailed).toBank = s.toBank ∧ (s.marksFailed).nv = s.nv ∧
      (s.marksFailed).pins = s.pins ∧ (s.marksFailed).sup = s.sup ∧ (s.marksFailed).grd = s.grd ∧
      (s.marksFailed).line = s.line ∧ (s.marksFailed).key = s.key ∧ (s.marksFailed).cred = s.cred ∧
      (s.marksFailed).tal = s.tal ∧ (s.marksFailed).pol = s.pol ∧ (s.marksFailed).wipe = s.wipe := by
  simp only [State.marksFailed]
  repeat' split
  all_goals first | rfl | (simp; done) | (simp_all; done)

@[simp] theorem State.beginPm_frame (s : State) (j : PendingMarkJob) :
    (s.beginPm j).pending = s.pending ∧ (s.beginPm j).now = s.now ∧ (s.beginPm j).draws = s.draws ∧
      (s.beginPm j).notices = s.notices ∧ (s.beginPm j).toBridge = s.toBridge ∧ (s.beginPm j).toBank = s.toBank ∧
      (s.beginPm j).pins = s.pins ∧ (s.beginPm j).sup = s.sup ∧ (s.beginPm j).grd = s.grd ∧
      (s.beginPm j).line = s.line ∧ (s.beginPm j).eng = s.eng ∧ (s.beginPm j).key = s.key ∧
      (s.beginPm j).cred = s.cred ∧ (s.beginPm j).tal = s.tal ∧ (s.beginPm j).pol = s.pol ∧
      (s.beginPm j).wipe = s.wipe ∧ (s.beginPm j).stat = s.stat := by
  simp only [State.beginPm]
  repeat' split
  all_goals first | rfl | (simp; done) | (simp_all; done)

@[simp] theorem State.askPm_frame (s : State) (j : PendingMarkJob) :
    (s.askPm j).pending = s.pending ∧ (s.askPm j).now = s.now ∧ (s.askPm j).draws = s.draws ∧
      (s.askPm j).notices = s.notices ∧ (s.askPm j).toBridge = s.toBridge ∧ (s.askPm j).toBank = s.toBank ∧
      (s.askPm j).pins = s.pins ∧ (s.askPm j).sup = s.sup ∧ (s.askPm j).grd = s.grd ∧ (s.askPm j).line = s.line ∧
      (s.askPm j).eng = s.eng ∧ (s.askPm j).key = s.key ∧ (s.askPm j).cred = s.cred ∧ (s.askPm j).tal = s.tal ∧
      (s.askPm j).pol = s.pol ∧ (s.askPm j).wipe = s.wipe ∧ (s.askPm j).stat = s.stat := by
  simp only [State.askPm]
  repeat' split
  all_goals first | rfl | (simp; done) | (simp_all; done)

@[simp] theorem State.nextPm_frame (s : State) :
    (s.nextPm).pending = s.pending ∧ (s.nextPm).now = s.now ∧ (s.nextPm).draws = s.draws ∧
      (s.nextPm).notices = s.notices ∧ (s.nextPm).toBridge = s.toBridge ∧ (s.nextPm).toBank = s.toBank ∧
      (s.nextPm).pins = s.pins ∧ (s.nextPm).sup = s.sup ∧ (s.nextPm).grd = s.grd ∧ (s.nextPm).line = s.line ∧
      (s.nextPm).eng = s.eng ∧ (s.nextPm).key = s.key ∧ (s.nextPm).cred = s.cred ∧ (s.nextPm).tal = s.tal ∧
      (s.nextPm).pol = s.pol ∧ (s.nextPm).wipe = s.wipe ∧ (s.nextPm).stat = s.stat := by
  simp only [State.nextPm]
  repeat' split
  all_goals first | rfl | (simp; done) | (simp_all; done)

@[simp] theorem State.pmMade_frame (s : State) :
    (s.pmMade).pending = s.pending ∧ (s.pmMade).now = s.now ∧ (s.pmMade).draws = s.draws ∧
      (s.pmMade).notices = s.notices ∧ (s.pmMade).toBridge = s.toBridge ∧ (s.pmMade).toBank = s.toBank ∧
      (s.pmMade).pins = s.pins ∧ (s.pmMade).sup = s.sup ∧ (s.pmMade).grd = s.grd ∧ (s.pmMade).line = s.line ∧
      (s.pmMade).eng = s.eng ∧ (s.pmMade).key = s.key ∧ (s.pmMade).cred = s.cred ∧ (s.pmMade).tal = s.tal ∧
      (s.pmMade).pol = s.pol ∧ (s.pmMade).wipe = s.wipe ∧ (s.pmMade).stat = s.stat := by
  simp only [State.pmMade]
  repeat' split
  all_goals first | rfl | (simp; done) | (simp_all; done)

@[simp] theorem State.pmFailed_frame (s : State) :
    (s.pmFailed).pending = s.pending ∧ (s.pmFailed).now = s.now ∧ (s.pmFailed).draws = s.draws ∧
      (s.pmFailed).toBridge = s.toBridge ∧ (s.pmFailed).toBank = s.toBank ∧ (s.pmFailed).pins = s.pins ∧
      (s.pmFailed).sup = s.sup ∧ (s.pmFailed).grd = s.grd ∧ (s.pmFailed).line = s.line ∧ (s.pmFailed).key = s.key ∧
      (s.pmFailed).cred = s.cred ∧ (s.pmFailed).tal = s.tal ∧ (s.pmFailed).pol = s.pol ∧ (s.pmFailed).wipe = s.wipe := by
  simp only [State.pmFailed]
  repeat' split
  all_goals first | rfl | (simp; done) | (simp_all; done)

@[simp] theorem State.discardMark_frame (s : State) :
    (s.discardMark).pending = s.pending ∧ (s.discardMark).now = s.now ∧ (s.discardMark).draws = s.draws ∧
      (s.discardMark).notices = s.notices ∧ (s.discardMark).toBridge = s.toBridge ∧
      (s.discardMark).toBank = s.toBank ∧ (s.discardMark).pins = s.pins ∧ (s.discardMark).sup = s.sup ∧
      (s.discardMark).grd = s.grd ∧ (s.discardMark).line = s.line ∧ (s.discardMark).eng = s.eng ∧
      (s.discardMark).key = s.key ∧ (s.discardMark).cred = s.cred ∧ (s.discardMark).tal = s.tal ∧
      (s.discardMark).pol = s.pol ∧ (s.discardMark).wipe = s.wipe ∧ (s.discardMark).stat = s.stat := by
  simp only [State.discardMark]
  repeat' split
  all_goals first | rfl | (simp; done) | (simp_all; done)

@[simp] theorem State.askJournal_frame (s : State) (j : Journal) :
    (s.askJournal j).pending = s.pending ∧ (s.askJournal j).now = s.now ∧ (s.askJournal j).draws = s.draws ∧
      (s.askJournal j).notices = s.notices ∧ (s.askJournal j).toBridge = s.toBridge ∧
      (s.askJournal j).toBank = s.toBank ∧ (s.askJournal j).nv = s.nv ∧ (s.askJournal j).pins = s.pins ∧
      (s.askJournal j).sup = s.sup ∧ (s.askJournal j).grd = s.grd ∧ (s.askJournal j).line = s.line ∧
      (s.askJournal j).eng = s.eng ∧ (s.askJournal j).key = s.key ∧ (s.askJournal j).cred = s.cred ∧
      (s.askJournal j).tal = s.tal ∧ (s.askJournal j).pol = s.pol ∧ (s.askJournal j).gate = s.gate ∧
      (s.askJournal j).stat = s.stat := by
  simp only [State.askJournal]
  repeat' split
  all_goals first | rfl | (simp; done) | (simp_all; done)

@[simp] theorem State.takeOrder_frame (s : State) (cause : WipeCause) :
    (s.takeOrder cause).pending = s.pending ∧ (s.takeOrder cause).now = s.now ∧ (s.takeOrder cause).draws = s.draws ∧
      (s.takeOrder cause).notices = s.notices ∧ (s.takeOrder cause).toBridge = s.toBridge ∧
      (s.takeOrder cause).toBank = s.toBank ∧ (s.takeOrder cause).nv = s.nv ∧ (s.takeOrder cause).pins = s.pins ∧
      (s.takeOrder cause).sup = s.sup ∧ (s.takeOrder cause).grd = s.grd ∧ (s.takeOrder cause).line = s.line ∧
      (s.takeOrder cause).eng = s.eng ∧ (s.takeOrder cause).key = s.key ∧ (s.takeOrder cause).cred = s.cred ∧
      (s.takeOrder cause).tal = s.tal ∧ (s.takeOrder cause).pol = s.pol ∧ (s.takeOrder cause).gate = s.gate ∧
      (s.takeOrder cause).stat = s.stat := by
  simp only [State.takeOrder]
  repeat' split
  all_goals first | rfl | (simp; done) | (simp_all; done)

@[simp] theorem State.repeatJournal_frame (s : State) :
    (s.repeatJournal).pending = s.pending ∧ (s.repeatJournal).now = s.now ∧ (s.repeatJournal).draws = s.draws ∧
      (s.repeatJournal).notices = s.notices ∧ (s.repeatJournal).toBridge = s.toBridge ∧
      (s.repeatJournal).toBank = s.toBank ∧ (s.repeatJournal).nv = s.nv ∧ (s.repeatJournal).pins = s.pins ∧
      (s.repeatJournal).sup = s.sup ∧ (s.repeatJournal).grd = s.grd ∧ (s.repeatJournal).line = s.line ∧
      (s.repeatJournal).eng = s.eng ∧ (s.repeatJournal).key = s.key ∧ (s.repeatJournal).cred = s.cred ∧
      (s.repeatJournal).tal = s.tal ∧ (s.repeatJournal).pol = s.pol ∧ (s.repeatJournal).gate = s.gate ∧
      (s.repeatJournal).stat = s.stat := by
  simp only [State.repeatJournal]
  repeat' split
  all_goals first | rfl | (simp; done) | (simp_all; done)

@[simp] theorem State.passStep_frame (s : State) :
    (s.passStep).pending = s.pending ∧ (s.passStep).now = s.now ∧ (s.passStep).draws = s.draws ∧
      (s.passStep).notices = s.notices ∧ (s.passStep).toBridge = s.toBridge ∧ (s.passStep).toBank = s.toBank ∧
      (s.passStep).nv = s.nv ∧ (s.passStep).pins = s.pins ∧ (s.passStep).sup = s.sup ∧ (s.passStep).grd = s.grd ∧
      (s.passStep).line = s.line ∧ (s.passStep).eng = s.eng ∧ (s.passStep).key = s.key ∧ (s.passStep).cred = s.cred ∧
      (s.passStep).tal = s.tal ∧ (s.passStep).pol = s.pol ∧ (s.passStep).stat = s.stat := by
  simp only [State.passStep]
  repeat' split
  all_goals first | rfl | (simp; done) | (simp_all; done)

@[simp] theorem State.engineStep_frame (s : State) :
    (s.engineStep).pending = s.pending ∧ (s.engineStep).now = s.now ∧ (s.engineStep).draws = s.draws ∧
      (s.engineStep).notices = s.notices ∧ (s.engineStep).toBridge = s.toBridge ∧ (s.engineStep).toBank = s.toBank ∧
      (s.engineStep).nv = s.nv ∧ (s.engineStep).pins = s.pins ∧ (s.engineStep).sup = s.sup ∧
      (s.engineStep).grd = s.grd ∧ (s.engineStep).line = s.line ∧ (s.engineStep).eng = s.eng ∧
      (s.engineStep).key = s.key ∧ (s.engineStep).cred = s.cred ∧ (s.engineStep).tal = s.tal ∧
      (s.engineStep).pol = s.pol ∧ (s.engineStep).stat = s.stat := by
  simp only [State.engineStep]
  repeat' split
  all_goals first | rfl | (simp; done) | (simp_all; done)

@[simp] theorem State.reachDone_frame (s : State) :
    (s.reachDone).pending = s.pending ∧ (s.reachDone).now = s.now ∧ (s.reachDone).draws = s.draws ∧
      (s.reachDone).notices = s.notices ∧ (s.reachDone).toBridge = s.toBridge ∧ (s.reachDone).toBank = s.toBank ∧
      (s.reachDone).nv = s.nv ∧ (s.reachDone).pins = s.pins ∧ (s.reachDone).sup = s.sup ∧ (s.reachDone).grd = s.grd ∧
      (s.reachDone).line = s.line ∧ (s.reachDone).key = s.key ∧ (s.reachDone).cred = s.cred ∧
      (s.reachDone).tal = s.tal ∧ (s.reachDone).pol = s.pol ∧ (s.reachDone).stat = s.stat := by
  simp only [State.reachDone]
  repeat' split
  all_goals first | rfl | (simp; done) | (simp_all; done)

@[simp] theorem State.orderInForce_frame (s : State) :
    (s.orderInForce).pending = s.pending ∧ (s.orderInForce).now = s.now ∧ (s.orderInForce).draws = s.draws ∧
      (s.orderInForce).toBank = s.toBank ∧ (s.orderInForce).pins = s.pins ∧ (s.orderInForce).line = s.line ∧
      (s.orderInForce).pol = s.pol ∧ (s.orderInForce).stat = s.stat := by
  simp only [State.orderInForce]
  repeat' split
  all_goals first | rfl | (simp; done) | (simp_all; done)

@[simp] theorem State.journalMade_frame (s : State) :
    (s.journalMade).pending = s.pending ∧ (s.journalMade).now = s.now ∧ (s.journalMade).draws = s.draws ∧
      (s.journalMade).toBank = s.toBank ∧ (s.journalMade).pins = s.pins ∧ (s.journalMade).line = s.line ∧
      (s.journalMade).pol = s.pol ∧ (s.journalMade).stat = s.stat := by
  simp only [State.journalMade]
  repeat' split
  all_goals first | rfl | (simp; done) | (simp_all; done)

@[simp] theorem State.journalFailed_frame (s : State) (now : Bool) :
    (s.journalFailed now).pending = s.pending ∧ (s.journalFailed now).now = s.now ∧
      (s.journalFailed now).draws = s.draws ∧ (s.journalFailed now).toBridge = s.toBridge ∧
      (s.journalFailed now).toBank = s.toBank ∧ (s.journalFailed now).nv = s.nv ∧
      (s.journalFailed now).pins = s.pins ∧ (s.journalFailed now).sup = s.sup ∧ (s.journalFailed now).grd = s.grd ∧
      (s.journalFailed now).line = s.line ∧ (s.journalFailed now).key = s.key ∧ (s.journalFailed now).cred = s.cred ∧
      (s.journalFailed now).tal = s.tal ∧ (s.journalFailed now).pol = s.pol ∧ (s.journalFailed now).gate = s.gate := by
  simp only [State.journalFailed]
  repeat' split
  all_goals first | rfl | (simp; done) | (simp_all; done)

@[simp] theorem State.credEndMade_frame (s : State) :
    (s.credEndMade).pending = s.pending ∧ (s.credEndMade).now = s.now ∧ (s.credEndMade).draws = s.draws ∧
      (s.credEndMade).notices = s.notices ∧ (s.credEndMade).toBridge = s.toBridge ∧
      (s.credEndMade).toBank = s.toBank ∧ (s.credEndMade).pins = s.pins ∧ (s.credEndMade).sup = s.sup ∧
      (s.credEndMade).grd = s.grd ∧ (s.credEndMade).line = s.line ∧ (s.credEndMade).eng = s.eng ∧
      (s.credEndMade).key = s.key ∧ (s.credEndMade).tal = s.tal ∧ (s.credEndMade).pol = s.pol ∧
      (s.credEndMade).gate = s.gate ∧ (s.credEndMade).stat = s.stat := by
  simp only [State.credEndMade]
  repeat' split
  all_goals first | rfl | (simp; done) | (simp_all; done)

@[simp] theorem State.eraseEnded_frame (s : State) (success : Bool) :
    (s.eraseEnded success).pending = s.pending ∧ (s.eraseEnded success).now = s.now ∧
      (s.eraseEnded success).draws = s.draws ∧ (s.eraseEnded success).toBridge = s.toBridge ∧
      (s.eraseEnded success).toBank = s.toBank ∧ (s.eraseEnded success).nv = s.nv ∧
      (s.eraseEnded success).pins = s.pins ∧ (s.eraseEnded success).sup = s.sup ∧
      (s.eraseEnded success).grd = s.grd ∧ (s.eraseEnded success).line = s.line ∧
      (s.eraseEnded success).key = s.key ∧ (s.eraseEnded success).cred = s.cred ∧
      (s.eraseEnded success).tal = s.tal ∧ (s.eraseEnded success).pol = s.pol ∧ (s.eraseEnded success).gate = s.gate := by
  simp only [State.eraseEnded]
  repeat' split
  all_goals first | rfl | (simp; done) | (simp_all; done)

@[simp] theorem State.abandonErase_frame (s : State) :
    (s.abandonErase).pending = s.pending ∧ (s.abandonErase).now = s.now ∧ (s.abandonErase).draws = s.draws ∧
      (s.abandonErase).notices = s.notices ∧ (s.abandonErase).toBridge = s.toBridge ∧
      (s.abandonErase).toBank = s.toBank ∧ (s.abandonErase).nv = s.nv ∧ (s.abandonErase).pins = s.pins ∧
      (s.abandonErase).sup = s.sup ∧ (s.abandonErase).grd = s.grd ∧ (s.abandonErase).line = s.line ∧
      (s.abandonErase).eng = s.eng ∧ (s.abandonErase).key = s.key ∧ (s.abandonErase).cred = s.cred ∧
      (s.abandonErase).tal = s.tal ∧ (s.abandonErase).pol = s.pol ∧ (s.abandonErase).stat = s.stat := by
  simp only [State.abandonErase]
  repeat' split
  all_goals first | rfl | (simp; done) | (simp_all; done)

@[simp] theorem State.returnToBlank_frame (s : State) (badHi : Nat) :
    (s.returnToBlank badHi).pending = s.pending ∧ (s.returnToBlank badHi).now = s.now ∧
      (s.returnToBlank badHi).draws = s.draws ∧ (s.returnToBlank badHi).toBank = s.toBank ∧
      (s.returnToBlank badHi).nv = s.nv ∧ (s.returnToBlank badHi).pins = s.pins ∧
      (s.returnToBlank badHi).line = s.line ∧ (s.returnToBlank badHi).cred = s.cred ∧
      (s.returnToBlank badHi).pol = s.pol := by
  simp only [State.returnToBlank]
  repeat' split
  all_goals first | rfl | (simp; done) | (simp_all; done)

@[simp] theorem State.endStarting_frame (s : State) (adopted : Bool) :
    (s.endStarting adopted).pending = s.pending ∧ (s.endStarting adopted).now = s.now ∧
      (s.endStarting adopted).draws = s.draws ∧ (s.endStarting adopted).toBank = s.toBank ∧
      (s.endStarting adopted).nv = s.nv ∧ (s.endStarting adopted).pins = s.pins ∧
      (s.endStarting adopted).line = s.line ∧ (s.endStarting adopted).pol = s.pol ∧
      (s.endStarting adopted).stat = s.stat := by
  simp only [State.endStarting]
  repeat' split
  all_goals first | rfl | (simp; done) | (simp_all; done)

@[simp] theorem State.appendDigit_frame (s : State) (d : Digit) :
    (s.appendDigit d).pending = s.pending ∧ (s.appendDigit d).now = s.now ∧ (s.appendDigit d).draws = s.draws ∧
      (s.appendDigit d).notices = s.notices ∧ (s.appendDigit d).toBridge = s.toBridge ∧
      (s.appendDigit d).toBank = s.toBank ∧ (s.appendDigit d).nv = s.nv ∧ (s.appendDigit d).pins = s.pins ∧
      (s.appendDigit d).sup = s.sup ∧ (s.appendDigit d).grd = s.grd ∧ (s.appendDigit d).line = s.line ∧
      (s.appendDigit d).eng = s.eng ∧ (s.appendDigit d).cred = s.cred ∧ (s.appendDigit d).tal = s.tal ∧
      (s.appendDigit d).pol = s.pol ∧ (s.appendDigit d).gate = s.gate ∧ (s.appendDigit d).wipe = s.wipe ∧
      (s.appendDigit d).stat = s.stat := by
  simp only [State.appendDigit]
  repeat' split
  all_goals first | rfl | (simp; done) | (simp_all; done)

@[simp] theorem State.keypadIdle_frame (s : State) :
    (s.keypadIdle).pending = s.pending ∧ (s.keypadIdle).now = s.now ∧ (s.keypadIdle).draws = s.draws ∧
      (s.keypadIdle).notices = s.notices ∧ (s.keypadIdle).toBridge = s.toBridge ∧ (s.keypadIdle).toBank = s.toBank ∧
      (s.keypadIdle).nv = s.nv ∧ (s.keypadIdle).pins = s.pins ∧ (s.keypadIdle).sup = s.sup ∧
      (s.keypadIdle).grd = s.grd ∧ (s.keypadIdle).line = s.line ∧ (s.keypadIdle).eng = s.eng ∧
      (s.keypadIdle).cred = s.cred ∧ (s.keypadIdle).tal = s.tal ∧ (s.keypadIdle).pol = s.pol ∧
      (s.keypadIdle).gate = s.gate ∧ (s.keypadIdle).wipe = s.wipe ∧ (s.keypadIdle).stat = s.stat := by
  simp only [State.keypadIdle]
  repeat' split
  all_goals first | rfl | (simp; done) | (simp_all; done)

@[simp] theorem State.keypadRefuse_frame (s : State) :
    (s.keypadRefuse).pending = s.pending ∧ (s.keypadRefuse).now = s.now ∧ (s.keypadRefuse).draws = s.draws ∧
      (s.keypadRefuse).notices = s.notices ∧ (s.keypadRefuse).toBridge = s.toBridge ∧
      (s.keypadRefuse).toBank = s.toBank ∧ (s.keypadRefuse).nv = s.nv ∧ (s.keypadRefuse).pins = s.pins ∧
      (s.keypadRefuse).sup = s.sup ∧ (s.keypadRefuse).line = s.line ∧ (s.keypadRefuse).eng = s.eng ∧
      (s.keypadRefuse).cred = s.cred ∧ (s.keypadRefuse).tal = s.tal ∧ (s.keypadRefuse).pol = s.pol ∧
      (s.keypadRefuse).gate = s.gate ∧ (s.keypadRefuse).wipe = s.wipe ∧ (s.keypadRefuse).stat = s.stat := by
  simp only [State.keypadRefuse]
  repeat' split
  all_goals first | rfl | (simp; done) | (simp_all; done)

@[simp] theorem State.submit_frame (s : State) :
    (s.submit).pending = s.pending ∧ (s.submit).now = s.now ∧ (s.submit).notices = s.notices ∧
      (s.submit).toBridge = s.toBridge ∧ (s.submit).toBank = s.toBank ∧ (s.submit).nv = s.nv ∧
      (s.submit).pins = s.pins ∧ (s.submit).sup = s.sup ∧ (s.submit).line = s.line ∧ (s.submit).cred = s.cred ∧
      (s.submit).tal = s.tal ∧ (s.submit).pol = s.pol ∧ (s.submit).gate = s.gate ∧ (s.submit).wipe = s.wipe ∧
      (s.submit).stat = s.stat := by
  simp only [State.submit]
  repeat' split
  all_goals first | rfl | (simp; done) | (simp_all; done)

@[simp] theorem State.newCode_frame (s : State) (target : CodeSlotNo) (role : Role) :
    (s.newCode target role).pending = s.pending ∧ (s.newCode target role).now = s.now ∧
      (s.newCode target role).draws = s.draws ∧ (s.newCode target role).notices = s.notices ∧
      (s.newCode target role).toBridge = s.toBridge ∧ (s.newCode target role).toBank = s.toBank ∧
      (s.newCode target role).nv = s.nv ∧ (s.newCode target role).pins = s.pins ∧
      (s.newCode target role).sup = s.sup ∧ (s.newCode target role).grd = s.grd ∧
      (s.newCode target role).line = s.line ∧ (s.newCode target role).eng = s.eng ∧
      (s.newCode target role).cred = s.cred ∧ (s.newCode target role).tal = s.tal ∧
      (s.newCode target role).pol = s.pol ∧ (s.newCode target role).gate = s.gate ∧
      (s.newCode target role).wipe = s.wipe ∧ (s.newCode target role).stat = s.stat := by
  simp only [State.newCode]
  repeat' split
  all_goals first | rfl | (simp; done) | (simp_all; done)

@[simp] theorem State.holdChange_frame (s : State) (target : CodeSlotNo) (role : Role) (code : List Digit) :
    (s.holdChange target role code).pending = s.pending ∧ (s.holdChange target role code).now = s.now ∧
      (s.holdChange target role code).draws = s.draws ∧ (s.holdChange target role code).notices = s.notices ∧
      (s.holdChange target role code).toBridge = s.toBridge ∧ (s.holdChange target role code).toBank = s.toBank ∧
      (s.holdChange target role code).nv = s.nv ∧ (s.holdChange target role code).pins = s.pins ∧
      (s.holdChange target role code).sup = s.sup ∧ (s.holdChange target role code).grd = s.grd ∧
      (s.holdChange target role code).line = s.line ∧ (s.holdChange target role code).cred = s.cred ∧
      (s.holdChange target role code).tal = s.tal ∧ (s.holdChange target role code).pol = s.pol ∧
      (s.holdChange target role code).gate = s.gate ∧ (s.holdChange target role code).wipe = s.wipe ∧
      (s.holdChange target role code).stat = s.stat := by
  simp only [State.holdChange]
  repeat' split
  all_goals first | rfl | (simp; done) | (simp_all; done)

@[simp] theorem State.firstCodeEntered_frame (s : State) :
    (s.firstCodeEntered).pending = s.pending ∧ (s.firstCodeEntered).now = s.now ∧
      (s.firstCodeEntered).draws = s.draws ∧ (s.firstCodeEntered).notices = s.notices ∧
      (s.firstCodeEntered).toBridge = s.toBridge ∧ (s.firstCodeEntered).toBank = s.toBank ∧
      (s.firstCodeEntered).nv = s.nv ∧ (s.firstCodeEntered).pins = s.pins ∧ (s.firstCodeEntered).sup = s.sup ∧
      (s.firstCodeEntered).grd = s.grd ∧ (s.firstCodeEntered).line = s.line ∧ (s.firstCodeEntered).eng = s.eng ∧
      (s.firstCodeEntered).cred = s.cred ∧ (s.firstCodeEntered).tal = s.tal ∧ (s.firstCodeEntered).pol = s.pol ∧
      (s.firstCodeEntered).gate = s.gate ∧ (s.firstCodeEntered).wipe = s.wipe ∧ (s.firstCodeEntered).stat = s.stat := by
  simp only [State.firstCodeEntered]
  repeat' split
  all_goals first | rfl | (simp; done) | (simp_all; done)

@[simp] theorem State.secondCodeEntered_frame (s : State) :
    (s.secondCodeEntered).pending = s.pending ∧ (s.secondCodeEntered).now = s.now ∧
      (s.secondCodeEntered).draws = s.draws ∧ (s.secondCodeEntered).notices = s.notices ∧
      (s.secondCodeEntered).toBridge = s.toBridge ∧ (s.secondCodeEntered).toBank = s.toBank ∧
      (s.secondCodeEntered).nv = s.nv ∧ (s.secondCodeEntered).pins = s.pins ∧ (s.secondCodeEntered).sup = s.sup ∧
      (s.secondCodeEntered).line = s.line ∧ (s.secondCodeEntered).cred = s.cred ∧ (s.secondCodeEntered).tal = s.tal ∧
      (s.secondCodeEntered).pol = s.pol ∧ (s.secondCodeEntered).gate = s.gate ∧ (s.secondCodeEntered).wipe = s.wipe ∧
      (s.secondCodeEntered).stat = s.stat := by
  simp only [State.secondCodeEntered]
  repeat' split
  all_goals first | rfl | (simp; done) | (simp_all; done)

@[simp] theorem State.openCommand_frame (s : State) (mode : KeypadMode) (chord : Digit) :
    (s.openCommand mode chord).pending = s.pending ∧ (s.openCommand mode chord).now = s.now ∧
      (s.openCommand mode chord).draws = s.draws ∧ (s.openCommand mode chord).notices = s.notices ∧
      (s.openCommand mode chord).toBridge = s.toBridge ∧ (s.openCommand mode chord).toBank = s.toBank ∧
      (s.openCommand mode chord).nv = s.nv ∧ (s.openCommand mode chord).pins = s.pins ∧
      (s.openCommand mode chord).sup = s.sup ∧ (s.openCommand mode chord).grd = s.grd ∧
      (s.openCommand mode chord).line = s.line ∧ (s.openCommand mode chord).eng = s.eng ∧
      (s.openCommand mode chord).cred = s.cred ∧ (s.openCommand mode chord).tal = s.tal ∧
      (s.openCommand mode chord).pol = s.pol ∧ (s.openCommand mode chord).gate = s.gate ∧
      (s.openCommand mode chord).wipe = s.wipe ∧ (s.openCommand mode chord).stat = s.stat := by
  simp only [State.openCommand]
  repeat' split
  all_goals first | rfl | (simp; done) | (simp_all; done)

@[simp] theorem State.commandDigit_frame (s : State) (d : Digit) :
    (s.commandDigit d).pending = s.pending ∧ (s.commandDigit d).now = s.now ∧ (s.commandDigit d).draws = s.draws ∧
      (s.commandDigit d).notices = s.notices ∧ (s.commandDigit d).toBridge = s.toBridge ∧
      (s.commandDigit d).toBank = s.toBank ∧ (s.commandDigit d).nv = s.nv ∧ (s.commandDigit d).pins = s.pins ∧
      (s.commandDigit d).sup = s.sup ∧ (s.commandDigit d).line = s.line ∧ (s.commandDigit d).cred = s.cred ∧
      (s.commandDigit d).tal = s.tal ∧ (s.commandDigit d).pol = s.pol ∧ (s.commandDigit d).gate = s.gate ∧
      (s.commandDigit d).wipe = s.wipe ∧ (s.commandDigit d).stat = s.stat := by
  simp only [State.commandDigit]
  repeat' split
  all_goals first | rfl | (simp; done) | (simp_all; done)

@[simp] theorem State.markDigit_frame (s : State) (d : Digit) :
    (s.markDigit d).pending = s.pending ∧ (s.markDigit d).now = s.now ∧ (s.markDigit d).draws = s.draws ∧
      (s.markDigit d).notices = s.notices ∧ (s.markDigit d).toBridge = s.toBridge ∧
      (s.markDigit d).toBank = s.toBank ∧ (s.markDigit d).nv = s.nv ∧ (s.markDigit d).pins = s.pins ∧
      (s.markDigit d).sup = s.sup ∧ (s.markDigit d).grd = s.grd ∧ (s.markDigit d).line = s.line ∧
      (s.markDigit d).eng = s.eng ∧ (s.markDigit d).cred = s.cred ∧ (s.markDigit d).tal = s.tal ∧
      (s.markDigit d).pol = s.pol ∧ (s.markDigit d).gate = s.gate ∧ (s.markDigit d).wipe = s.wipe ∧
      (s.markDigit d).stat = s.stat := by
  simp only [State.markDigit]
  repeat' split
  all_goals first | rfl | (simp; done) | (simp_all; done)

@[simp] theorem State.markEntered_frame (s : State) :
    (s.markEntered).pending = s.pending ∧ (s.markEntered).now = s.now ∧ (s.markEntered).draws = s.draws ∧
      (s.markEntered).notices = s.notices ∧ (s.markEntered).toBridge = s.toBridge ∧
      (s.markEntered).toBank = s.toBank ∧ (s.markEntered).nv = s.nv ∧ (s.markEntered).pins = s.pins ∧
      (s.markEntered).sup = s.sup ∧ (s.markEntered).line = s.line ∧ (s.markEntered).cred = s.cred ∧
      (s.markEntered).tal = s.tal ∧ (s.markEntered).pol = s.pol ∧ (s.markEntered).gate = s.gate ∧
      (s.markEntered).wipe = s.wipe ∧ (s.markEntered).stat = s.stat := by
  simp only [State.markEntered]
  repeat' split
  all_goals first | rfl | (simp; done) | (simp_all; done)

@[simp] theorem State.keypadLock_frame (s : State) :
    (s.keypadLock).pending = s.pending ∧ (s.keypadLock).now = s.now ∧ (s.keypadLock).draws = s.draws ∧
      (s.keypadLock).toBank = s.toBank ∧ (s.keypadLock).nv = s.nv ∧ (s.keypadLock).pins = s.pins ∧
      (s.keypadLock).line = s.line ∧ (s.keypadLock).tal = s.tal ∧ (s.keypadLock).pol = s.pol ∧
      (s.keypadLock).wipe = s.wipe ∧ (s.keypadLock).stat = s.stat := by
  simp only [State.keypadLock]
  repeat' split
  all_goals first | rfl | (simp; done) | (simp_all; done)

@[simp] theorem State.sessionToggle_frame (s : State) :
    (s.sessionToggle).pending = s.pending ∧ (s.sessionToggle).now = s.now ∧ (s.sessionToggle).draws = s.draws ∧
      (s.sessionToggle).notices = s.notices ∧ (s.sessionToggle).toBridge = s.toBridge ∧
      (s.sessionToggle).toBank = s.toBank ∧ (s.sessionToggle).nv = s.nv ∧ (s.sessionToggle).pins = s.pins ∧
      (s.sessionToggle).sup = s.sup ∧ (s.sessionToggle).grd = s.grd ∧ (s.sessionToggle).line = s.line ∧
      (s.sessionToggle).key = s.key ∧ (s.sessionToggle).cred = s.cred ∧ (s.sessionToggle).tal = s.tal ∧
      (s.sessionToggle).pol = s.pol ∧ (s.sessionToggle).gate = s.gate ∧ (s.sessionToggle).wipe = s.wipe ∧
      (s.sessionToggle).stat = s.stat := by
  simp only [State.sessionToggle]
  repeat' split
  all_goals first | rfl | (simp; done) | (simp_all; done)

@[simp] theorem State.toggleMarkLock_frame (s : State) :
    (s.toggleMarkLock).pending = s.pending ∧ (s.toggleMarkLock).now = s.now ∧ (s.toggleMarkLock).draws = s.draws ∧
      (s.toggleMarkLock).notices = s.notices ∧ (s.toggleMarkLock).toBridge = s.toBridge ∧
      (s.toggleMarkLock).toBank = s.toBank ∧ (s.toggleMarkLock).nv = s.nv ∧ (s.toggleMarkLock).pins = s.pins ∧
      (s.toggleMarkLock).sup = s.sup ∧ (s.toggleMarkLock).grd = s.grd ∧ (s.toggleMarkLock).line = s.line ∧
      (s.toggleMarkLock).eng = s.eng ∧ (s.toggleMarkLock).key = s.key ∧ (s.toggleMarkLock).cred = s.cred ∧
      (s.toggleMarkLock).tal = s.tal ∧ (s.toggleMarkLock).pol = s.pol ∧ (s.toggleMarkLock).wipe = s.wipe ∧
      (s.toggleMarkLock).stat = s.stat := by
  simp only [State.toggleMarkLock]
  repeat' split
  all_goals first | rfl | (simp; done) | (simp_all; done)

@[simp] theorem State.chordInIdle_frame (s : State) (d : Digit) :
    (s.chordInIdle d).pending = s.pending ∧ (s.chordInIdle d).now = s.now ∧ (s.chordInIdle d).draws = s.draws ∧
      (s.chordInIdle d).toBank = s.toBank ∧ (s.chordInIdle d).nv = s.nv ∧ (s.chordInIdle d).pins = s.pins ∧
      (s.chordInIdle d).line = s.line ∧ (s.chordInIdle d).tal = s.tal ∧ (s.chordInIdle d).wipe = s.wipe ∧
      (s.chordInIdle d).stat = s.stat := by
  simp only [State.chordInIdle]
  repeat' split
  all_goals first | rfl | (simp; done) | (simp_all; done)

@[simp] theorem State.takeChord_frame (s : State) (d : Digit) :
    (s.takeChord d).pending = s.pending ∧ (s.takeChord d).now = s.now ∧ (s.takeChord d).draws = s.draws ∧
      (s.takeChord d).toBank = s.toBank ∧ (s.takeChord d).nv = s.nv ∧ (s.takeChord d).pins = s.pins ∧
      (s.takeChord d).line = s.line ∧ (s.takeChord d).tal = s.tal ∧ (s.takeChord d).wipe = s.wipe ∧
      (s.takeChord d).stat = s.stat := by
  simp only [State.takeChord]
  repeat' split
  all_goals first | rfl | (simp; done) | (simp_all; done)

@[simp] theorem State.takeChordUnlock_frame (s : State) :
    (s.takeChordUnlock).pending = s.pending ∧ (s.takeChordUnlock).now = s.now ∧ (s.takeChordUnlock).draws = s.draws ∧
      (s.takeChordUnlock).notices = s.notices ∧ (s.takeChordUnlock).toBridge = s.toBridge ∧
      (s.takeChordUnlock).toBank = s.toBank ∧ (s.takeChordUnlock).nv = s.nv ∧ (s.takeChordUnlock).pins = s.pins ∧
      (s.takeChordUnlock).sup = s.sup ∧ (s.takeChordUnlock).line = s.line ∧ (s.takeChordUnlock).eng = s.eng ∧
      (s.takeChordUnlock).cred = s.cred ∧ (s.takeChordUnlock).tal = s.tal ∧ (s.takeChordUnlock).pol = s.pol ∧
      (s.takeChordUnlock).gate = s.gate ∧ (s.takeChordUnlock).wipe = s.wipe ∧ (s.takeChordUnlock).stat = s.stat := by
  simp only [State.takeChordUnlock]
  repeat' split
  all_goals first | rfl | (simp; done) | (simp_all; done)

@[simp] theorem State.takeDigit_frame (s : State) (d : Digit) :
    (s.takeDigit d).pending = s.pending ∧ (s.takeDigit d).now = s.now ∧ (s.takeDigit d).draws = s.draws ∧
      (s.takeDigit d).notices = s.notices ∧ (s.takeDigit d).toBridge = s.toBridge ∧
      (s.takeDigit d).toBank = s.toBank ∧ (s.takeDigit d).nv = s.nv ∧ (s.takeDigit d).pins = s.pins ∧
      (s.takeDigit d).sup = s.sup ∧ (s.takeDigit d).line = s.line ∧ (s.takeDigit d).cred = s.cred ∧
      (s.takeDigit d).tal = s.tal ∧ (s.takeDigit d).pol = s.pol ∧ (s.takeDigit d).gate = s.gate ∧
      (s.takeDigit d).wipe = s.wipe ∧ (s.takeDigit d).stat = s.stat := by
  simp only [State.takeDigit]
  repeat' split
  all_goals first | rfl | (simp; done) | (simp_all; done)

@[simp] theorem State.takeUnlock_frame (s : State) :
    (s.takeUnlock).pending = s.pending ∧ (s.takeUnlock).now = s.now ∧ (s.takeUnlock).notices = s.notices ∧
      (s.takeUnlock).toBridge = s.toBridge ∧ (s.takeUnlock).toBank = s.toBank ∧ (s.takeUnlock).nv = s.nv ∧
      (s.takeUnlock).pins = s.pins ∧ (s.takeUnlock).sup = s.sup ∧ (s.takeUnlock).line = s.line ∧
      (s.takeUnlock).cred = s.cred ∧ (s.takeUnlock).tal = s.tal ∧ (s.takeUnlock).pol = s.pol ∧
      (s.takeUnlock).gate = s.gate ∧ (s.takeUnlock).wipe = s.wipe ∧ (s.takeUnlock).stat = s.stat := by
  simp only [State.takeUnlock]
  repeat' split
  all_goals first | rfl | (simp; done) | (simp_all; done)

@[simp] theorem State.takePress_frame (s : State) (k : Key) :
    (s.takePress k).pending = s.pending ∧ (s.takePress k).now = s.now ∧ (s.takePress k).toBank = s.toBank ∧
      (s.takePress k).nv = s.nv ∧ (s.takePress k).pins = s.pins ∧ (s.takePress k).line = s.line ∧
      (s.takePress k).tal = s.tal ∧ (s.takePress k).wipe = s.wipe ∧ (s.takePress k).stat = s.stat := by
  simp only [State.takePress]
  repeat' split
  all_goals first | rfl | (simp; done) | (simp_all; done)

@[simp] theorem State.press_frame (s : State) (k : Key) :
    (s.press k).pending = s.pending ∧ (s.press k).now = s.now ∧ (s.press k).toBank = s.toBank ∧
      (s.press k).nv = s.nv ∧ (s.press k).pins = s.pins ∧ (s.press k).line = s.line ∧ (s.press k).tal = s.tal ∧
      (s.press k).wipe = s.wipe ∧ (s.press k).stat = s.stat := by
  simp only [State.press]
  repeat' split
  all_goals first | rfl | (simp; done) | (simp_all; done)

@[simp] theorem foldl_takePress_frame (l : List Key) (s : State) :
    (l.foldl State.takePress s).pending = s.pending ∧ (l.foldl State.takePress s).now = s.now ∧
      (l.foldl State.takePress s).toBank = s.toBank ∧ (l.foldl State.takePress s).nv = s.nv ∧
      (l.foldl State.takePress s).pins = s.pins ∧ (l.foldl State.takePress s).line = s.line ∧
      (l.foldl State.takePress s).tal = s.tal ∧ (l.foldl State.takePress s).wipe = s.wipe ∧
      (l.foldl State.takePress s).stat = s.stat := by
  induction l generalizing s with
  | nil => simp
  | cons x l ih => simp [ih]

@[simp] theorem State.takeSetAside_frame (s : State) :
    (s.takeSetAside).pending = s.pending ∧ (s.takeSetAside).now = s.now ∧ (s.takeSetAside).toBank = s.toBank ∧
      (s.takeSetAside).nv = s.nv ∧ (s.takeSetAside).pins = s.pins ∧ (s.takeSetAside).line = s.line ∧
      (s.takeSetAside).tal = s.tal ∧ (s.takeSetAside).wipe = s.wipe ∧ (s.takeSetAside).stat = s.stat := by
  simp only [State.takeSetAside]
  repeat' split
  all_goals first | rfl | (simp; done) | (simp_all; done)

@[simp] theorem State.dropSetAside_frame (s : State) :
    (s.dropSetAside).pending = s.pending ∧ (s.dropSetAside).now = s.now ∧ (s.dropSetAside).draws = s.draws ∧
      (s.dropSetAside).notices = s.notices ∧ (s.dropSetAside).toBridge = s.toBridge ∧
      (s.dropSetAside).toBank = s.toBank ∧ (s.dropSetAside).nv = s.nv ∧ (s.dropSetAside).pins = s.pins ∧
      (s.dropSetAside).sup = s.sup ∧ (s.dropSetAside).grd = s.grd ∧ (s.dropSetAside).line = s.line ∧
      (s.dropSetAside).eng = s.eng ∧ (s.dropSetAside).cred = s.cred ∧ (s.dropSetAside).tal = s.tal ∧
      (s.dropSetAside).pol = s.pol ∧ (s.dropSetAside).gate = s.gate ∧ (s.dropSetAside).wipe = s.wipe ∧
      (s.dropSetAside).stat = s.stat := by
  simp only [State.dropSetAside]
  repeat' split
  all_goals first | rfl | (simp; done) | (simp_all; done)

@[simp] theorem State.tallyMade_frame (s : State) :
    (s.tallyMade).pending = s.pending ∧ (s.tallyMade).now = s.now ∧ (s.tallyMade).draws = s.draws ∧
      (s.tallyMade).notices = s.notices ∧ (s.tallyMade).toBridge = s.toBridge ∧ (s.tallyMade).toBank = s.toBank ∧
      (s.tallyMade).pins = s.pins ∧ (s.tallyMade).sup = s.sup ∧ (s.tallyMade).grd = s.grd ∧
      (s.tallyMade).line = s.line ∧ (s.tallyMade).eng = s.eng ∧ (s.tallyMade).key = s.key ∧
      (s.tallyMade).cred = s.cred ∧ (s.tallyMade).pol = s.pol ∧ (s.tallyMade).gate = s.gate ∧
      (s.tallyMade).wipe = s.wipe ∧ (s.tallyMade).stat = s.stat := by
  simp only [State.tallyMade]
  repeat' split
  all_goals first | rfl | (simp; done) | (simp_all; done)

@[simp] theorem State.tallyFailed_frame (s : State) (now : Bool) :
    (s.tallyFailed now).pending = s.pending ∧ (s.tallyFailed now).now = s.now ∧ (s.tallyFailed now).draws = s.draws ∧
      (s.tallyFailed now).toBridge = s.toBridge ∧ (s.tallyFailed now).toBank = s.toBank ∧
      (s.tallyFailed now).nv = s.nv ∧ (s.tallyFailed now).pins = s.pins ∧ (s.tallyFailed now).sup = s.sup ∧
      (s.tallyFailed now).grd = s.grd ∧ (s.tallyFailed now).line = s.line ∧ (s.tallyFailed now).key = s.key ∧
      (s.tallyFailed now).cred = s.cred ∧ (s.tallyFailed now).pol = s.pol ∧ (s.tallyFailed now).gate = s.gate ∧
      (s.tallyFailed now).wipe = s.wipe := by
  simp only [State.tallyFailed]
  repeat' split
  all_goals first | rfl | (simp; done) | (simp_all; done)

@[simp] theorem State.repeatTallyAndOwed_frame (s : State) :
    (s.repeatTallyAndOwed).pending = s.pending ∧ (s.repeatTallyAndOwed).now = s.now ∧ (s.repeatTallyAndOwed).draws = s.draws ∧
      (s.repeatTallyAndOwed).notices = s.notices ∧ (s.repeatTallyAndOwed).toBridge = s.toBridge ∧
      (s.repeatTallyAndOwed).toBank = s.toBank ∧ (s.repeatTallyAndOwed).nv = s.nv ∧ (s.repeatTallyAndOwed).pins = s.pins ∧
      (s.repeatTallyAndOwed).sup = s.sup ∧ (s.repeatTallyAndOwed).grd = s.grd ∧ (s.repeatTallyAndOwed).line = s.line ∧
      (s.repeatTallyAndOwed).eng = s.eng ∧ (s.repeatTallyAndOwed).key = s.key ∧ (s.repeatTallyAndOwed).cred = s.cred ∧
      (s.repeatTallyAndOwed).pol = s.pol ∧ (s.repeatTallyAndOwed).gate = s.gate ∧ (s.repeatTallyAndOwed).wipe = s.wipe ∧
      (s.repeatTallyAndOwed).stat = s.stat := by
  simp only [State.repeatTallyAndOwed]
  repeat' split
  all_goals first | rfl | (simp; done) | (simp_all; done)

@[simp] theorem State.unsend_frame (s : State) :
    (s.unsend).pending = s.pending ∧ (s.unsend).now = s.now ∧ (s.unsend).draws = s.draws ∧
      (s.unsend).notices = s.notices ∧ (s.unsend).toBridge = s.toBridge ∧ (s.unsend).toBank = s.toBank ∧
      (s.unsend).nv = s.nv ∧ (s.unsend).pins = s.pins ∧ (s.unsend).sup = s.sup ∧ (s.unsend).grd = s.grd ∧
      (s.unsend).key = s.key ∧ (s.unsend).cred = s.cred ∧ (s.unsend).tal = s.tal ∧ (s.unsend).pol = s.pol ∧
      (s.unsend).gate = s.gate ∧ (s.unsend).wipe = s.wipe ∧ (s.unsend).stat = s.stat := by
  simp only [State.unsend]
  repeat' split
  all_goals first | rfl | (simp; done) | (simp_all; done)

@[simp] theorem State.offerRound_frame (s : State) :
    (s.offerRound).pending = s.pending ∧ (s.offerRound).now = s.now ∧ (s.offerRound).draws = s.draws ∧
      (s.offerRound).notices = s.notices ∧ (s.offerRound).toBridge = s.toBridge ∧ (s.offerRound).toBank = s.toBank ∧
      (s.offerRound).nv = s.nv ∧ (s.offerRound).pins = s.pins ∧ (s.offerRound).sup = s.sup ∧
      (s.offerRound).grd = s.grd ∧ (s.offerRound).key = s.key ∧ (s.offerRound).cred = s.cred ∧
      (s.offerRound).tal = s.tal ∧ (s.offerRound).pol = s.pol ∧ (s.offerRound).gate = s.gate ∧
      (s.offerRound).wipe = s.wipe ∧ (s.offerRound).stat = s.stat := by
  simp only [State.offerRound]
  repeat' split
  all_goals first | rfl | (simp; done) | (simp_all; done)

@[simp] theorem State.startRound_frame (s : State) :
    (s.startRound).pending = s.pending ∧ (s.startRound).now = s.now ∧ (s.startRound).draws = s.draws ∧
      (s.startRound).notices = s.notices ∧ (s.startRound).toBridge = s.toBridge ∧ (s.startRound).toBank = s.toBank ∧
      (s.startRound).nv = s.nv ∧ (s.startRound).pins = s.pins ∧ (s.startRound).grd = s.grd ∧
      (s.startRound).key = s.key ∧ (s.startRound).cred = s.cred ∧ (s.startRound).tal = s.tal ∧
      (s.startRound).pol = s.pol ∧ (s.startRound).gate = s.gate ∧ (s.startRound).wipe = s.wipe ∧
      (s.startRound).stat = s.stat := by
  simp only [State.startRound]
  repeat' split
  all_goals first | rfl | (simp; done) | (simp_all; done)

@[simp] theorem State.holds_frame (s : State) :
    (s.holds).pending = s.pending ∧ (s.holds).now = s.now ∧ (s.holds).draws = s.draws ∧
      (s.holds).notices = s.notices ∧ (s.holds).toBridge = s.toBridge ∧ (s.holds).toBank = s.toBank ∧
      (s.holds).nv = s.nv ∧ (s.holds).pins = s.pins ∧ (s.holds).sup = s.sup ∧ (s.holds).grd = s.grd ∧
      (s.holds).eng = s.eng ∧ (s.holds).key = s.key ∧ (s.holds).cred = s.cred ∧ (s.holds).tal = s.tal ∧
      (s.holds).pol = s.pol ∧ (s.holds).gate = s.gate ∧ (s.holds).wipe = s.wipe ∧ (s.holds).stat = s.stat := by
  simp only [State.holds]
  repeat' split
  all_goals first | rfl | (simp; done) | (simp_all; done)

@[simp] theorem State.mapRound_frame (s : State) (f : RoundRec → RoundRec) :
    (s.mapRound f).pending = s.pending ∧ (s.mapRound f).now = s.now ∧ (s.mapRound f).draws = s.draws ∧
      (s.mapRound f).notices = s.notices ∧ (s.mapRound f).toBridge = s.toBridge ∧ (s.mapRound f).toBank = s.toBank ∧
      (s.mapRound f).nv = s.nv ∧ (s.mapRound f).pins = s.pins ∧ (s.mapRound f).sup = s.sup ∧
      (s.mapRound f).grd = s.grd ∧ (s.mapRound f).line = s.line ∧ (s.mapRound f).key = s.key ∧
      (s.mapRound f).cred = s.cred ∧ (s.mapRound f).tal = s.tal ∧ (s.mapRound f).pol = s.pol ∧
      (s.mapRound f).gate = s.gate ∧ (s.mapRound f).wipe = s.wipe ∧ (s.mapRound f).stat = s.stat := by
  simp only [State.mapRound]
  repeat' split
  all_goals first | rfl | (simp; done) | (simp_all; done)

@[simp] theorem State.holdMarkCheck_frame (s : State) (r : RoundRec) :
    (s.holdMarkCheck r).pending = s.pending ∧ (s.holdMarkCheck r).now = s.now ∧ (s.holdMarkCheck r).draws = s.draws ∧
      (s.holdMarkCheck r).toBridge = s.toBridge ∧ (s.holdMarkCheck r).toBank = s.toBank ∧
      (s.holdMarkCheck r).nv = s.nv ∧ (s.holdMarkCheck r).pins = s.pins ∧ (s.holdMarkCheck r).sup = s.sup ∧
      (s.holdMarkCheck r).grd = s.grd ∧ (s.holdMarkCheck r).eng = s.eng ∧ (s.holdMarkCheck r).key = s.key ∧
      (s.holdMarkCheck r).cred = s.cred ∧ (s.holdMarkCheck r).pol = s.pol ∧ (s.holdMarkCheck r).gate = s.gate ∧
      (s.holdMarkCheck r).wipe = s.wipe ∧ (s.holdMarkCheck r).stat = s.stat := by
  simp only [State.holdMarkCheck]
  repeat' split
  all_goals first | rfl | (simp; done) | (simp_all; done)

@[simp] theorem State.holdMarkSetcode_frame (s : State) (r : RoundRec) :
    (s.holdMarkSetcode r).pending = s.pending ∧ (s.holdMarkSetcode r).now = s.now ∧
      (s.holdMarkSetcode r).notices = s.notices ∧ (s.holdMarkSetcode r).toBridge = s.toBridge ∧
      (s.holdMarkSetcode r).toBank = s.toBank ∧ (s.holdMarkSetcode r).pins = s.pins ∧
      (s.holdMarkSetcode r).sup = s.sup ∧ (s.holdMarkSetcode r).grd = s.grd ∧ (s.holdMarkSetcode r).key = s.key ∧
      (s.holdMarkSetcode r).tal = s.tal ∧ (s.holdMarkSetcode r).pol = s.pol ∧ (s.holdMarkSetcode r).gate = s.gate ∧
      (s.holdMarkSetcode r).wipe = s.wipe ∧ (s.holdMarkSetcode r).stat = s.stat := by
  simp only [State.holdMarkSetcode]
  repeat' split
  all_goals first | rfl | (simp; done) | (simp_all; done)

@[simp] theorem State.holdMarkSetmark_frame (s : State) (r : RoundRec) :
    (s.holdMarkSetmark r).pending = s.pending ∧ (s.holdMarkSetmark r).now = s.now ∧
      (s.holdMarkSetmark r).draws = s.draws ∧ (s.holdMarkSetmark r).notices = s.notices ∧
      (s.holdMarkSetmark r).toBridge = s.toBridge ∧ (s.holdMarkSetmark r).toBank = s.toBank ∧
      (s.holdMarkSetmark r).pins = s.pins ∧ (s.holdMarkSetmark r).sup = s.sup ∧ (s.holdMarkSetmark r).grd = s.grd ∧
      (s.holdMarkSetmark r).key = s.key ∧ (s.holdMarkSetmark r).cred = s.cred ∧ (s.holdMarkSetmark r).tal = s.tal ∧
      (s.holdMarkSetmark r).pol = s.pol ∧ (s.holdMarkSetmark r).wipe = s.wipe ∧ (s.holdMarkSetmark r).stat = s.stat := by
  simp only [State.holdMarkSetmark]
  repeat' split
  all_goals first | rfl | (simp; done) | (simp_all; done)

@[simp] theorem State.holdMarkWipe_frame (s : State) (r : RoundRec) :
    (s.holdMarkWipe r).pending = s.pending ∧ (s.holdMarkWipe r).now = s.now ∧ (s.holdMarkWipe r).draws = s.draws ∧
      (s.holdMarkWipe r).notices = s.notices ∧ (s.holdMarkWipe r).toBridge = s.toBridge ∧
      (s.holdMarkWipe r).toBank = s.toBank ∧ (s.holdMarkWipe r).nv = s.nv ∧ (s.holdMarkWipe r).pins = s.pins ∧
      (s.holdMarkWipe r).sup = s.sup ∧ (s.holdMarkWipe r).grd = s.grd ∧ (s.holdMarkWipe r).key = s.key ∧
      (s.holdMarkWipe r).cred = s.cred ∧ (s.holdMarkWipe r).tal = s.tal ∧ (s.holdMarkWipe r).pol = s.pol ∧
      (s.holdMarkWipe r).gate = s.gate ∧ (s.holdMarkWipe r).stat = s.stat := by
  simp only [State.holdMarkWipe]
  repeat' split
  all_goals first | rfl | (simp; done) | (simp_all; done)

@[simp] theorem State.holdMarkFit_frame (s : State) (r : RoundRec) :
    (s.holdMarkFit r).pending = s.pending ∧ (s.holdMarkFit r).now = s.now ∧ (s.holdMarkFit r).draws = s.draws ∧
      (s.holdMarkFit r).notices = s.notices ∧ (s.holdMarkFit r).toBridge = s.toBridge ∧
      (s.holdMarkFit r).toBank = s.toBank ∧ (s.holdMarkFit r).nv = s.nv ∧ (s.holdMarkFit r).pins = s.pins ∧
      (s.holdMarkFit r).sup = s.sup ∧ (s.holdMarkFit r).grd = s.grd ∧ (s.holdMarkFit r).line = s.line ∧
      (s.holdMarkFit r).key = s.key ∧ (s.holdMarkFit r).cred = s.cred ∧ (s.holdMarkFit r).tal = s.tal ∧
      (s.holdMarkFit r).pol = s.pol ∧ (s.holdMarkFit r).gate = s.gate ∧ (s.holdMarkFit r).wipe = s.wipe := by
  simp only [State.holdMarkFit]
  repeat' split
  all_goals first | rfl | (simp; done) | (simp_all; done)

@[simp] theorem State.holdMark_frame (s : State) (r : RoundRec) :
    (s.holdMark r).pending = s.pending ∧ (s.holdMark r).now = s.now ∧ (s.holdMark r).toBridge = s.toBridge ∧
      (s.holdMark r).toBank = s.toBank ∧ (s.holdMark r).pins = s.pins ∧ (s.holdMark r).sup = s.sup ∧
      (s.holdMark r).grd = s.grd ∧ (s.holdMark r).key = s.key ∧ (s.holdMark r).pol = s.pol := by
  simp only [State.holdMark]
  repeat' split
  all_goals first | rfl | (simp; done) | (simp_all; done)

@[simp] theorem State.fixAtMark_frame (s : State) (r : RoundRec) (f : Field) :
    (s.fixAtMark r f).pending = s.pending ∧ (s.fixAtMark r f).now = s.now ∧ (s.fixAtMark r f).draws = s.draws ∧
      (s.fixAtMark r f).notices = s.notices ∧ (s.fixAtMark r f).toBridge = s.toBridge ∧
      (s.fixAtMark r f).toBank = s.toBank ∧ (s.fixAtMark r f).nv = s.nv ∧ (s.fixAtMark r f).pins = s.pins ∧
      (s.fixAtMark r f).sup = s.sup ∧ (s.fixAtMark r f).grd = s.grd ∧ (s.fixAtMark r f).line = s.line ∧
      (s.fixAtMark r f).key = s.key ∧ (s.fixAtMark r f).tal = s.tal ∧ (s.fixAtMark r f).pol = s.pol ∧
      (s.fixAtMark r f).gate = s.gate ∧ (s.fixAtMark r f).wipe = s.wipe ∧ (s.fixAtMark r f).stat = s.stat := by
  simp only [State.fixAtMark]
  repeat' split
  all_goals first | rfl | (simp; done) | (simp_all; done)

@[simp] theorem State.enterField_frame (s : State) (r : RoundRec) (f : Field) :
    (s.enterField r f).pending = s.pending ∧ (s.enterField r f).now = s.now ∧
      (s.enterField r f).toBridge = s.toBridge ∧ (s.enterField r f).toBank = s.toBank ∧
      (s.enterField r f).pins = s.pins ∧ (s.enterField r f).sup = s.sup ∧ (s.enterField r f).grd = s.grd ∧
      (s.enterField r f).key = s.key ∧ (s.enterField r f).pol = s.pol := by
  simp only [State.enterField]
  repeat' split
  all_goals first | rfl | (simp; done) | (simp_all; done)

@[simp] theorem State.endQueue_frame (s : State) (r : RoundRec) :
    (s.endQueue r).pending = s.pending ∧ (s.endQueue r).now = s.now ∧ (s.endQueue r).draws = s.draws ∧
      (s.endQueue r).toBridge = s.toBridge ∧ (s.endQueue r).toBank = s.toBank ∧ (s.endQueue r).nv = s.nv ∧
      (s.endQueue r).pins = s.pins ∧ (s.endQueue r).sup = s.sup ∧ (s.endQueue r).grd = s.grd ∧
      (s.endQueue r).line = s.line ∧ (s.endQueue r).cred = s.cred ∧ (s.endQueue r).tal = s.tal ∧
      (s.endQueue r).pol = s.pol ∧ (s.endQueue r).gate = s.gate ∧ (s.endQueue r).wipe = s.wipe := by
  simp only [State.endQueue]
  repeat' split
  all_goals first | rfl | (simp; done) | (simp_all; done)

@[simp] theorem State.ownersVoid_frame (s : State) (r : RoundRec) :
    (s.ownersVoid r).pending = s.pending ∧ (s.ownersVoid r).now = s.now ∧ (s.ownersVoid r).draws = s.draws ∧
      (s.ownersVoid r).toBank = s.toBank ∧ (s.ownersVoid r).pins = s.pins ∧ (s.ownersVoid r).line = s.line ∧
      (s.ownersVoid r).pol = s.pol ∧ (s.ownersVoid r).wipe = s.wipe := by
  simp only [State.ownersVoid]
  repeat' split
  all_goals first | rfl | (simp; done) | (simp_all; done)

@[simp] theorem State.ownersReject_frame (s : State) (r : RoundRec) :
    (s.ownersReject r).pending = s.pending ∧ (s.ownersReject r).now = s.now ∧ (s.ownersReject r).draws = s.draws ∧
      (s.ownersReject r).toBank = s.toBank ∧ (s.ownersReject r).pins = s.pins ∧ (s.ownersReject r).line = s.line ∧
      (s.ownersReject r).pol = s.pol ∧ (s.ownersReject r).wipe = s.wipe := by
  simp only [State.ownersReject]
  repeat' split
  all_goals first | rfl | (simp; done) | (simp_all; done)

@[simp] theorem State.rejectTo_frame (s : State) (line : LineIf) :
    (s.rejectTo line).pending = s.pending ∧ (s.rejectTo line).now = s.now ∧ (s.rejectTo line).toBank = s.toBank ∧
      (s.rejectTo line).pins = s.pins := by
  simp only [State.rejectTo]
  repeat' split
  all_goals first | rfl | (simp; done) | (simp_all; done)

@[simp] theorem State.rejectRound_frame (s : State) :
    (s.rejectRound).pending = s.pending ∧ (s.rejectRound).now = s.now ∧ (s.rejectRound).toBank = s.toBank ∧
      (s.rejectRound).pins = s.pins := by
  simp only [State.rejectRound]
  repeat' split
  all_goals first | rfl | (simp; done) | (simp_all; done)

@[simp] theorem State.truncate_frame (s : State) :
    (s.truncate).pending = s.pending ∧ (s.truncate).now = s.now ∧ (s.truncate).toBank = s.toBank ∧
      (s.truncate).pins = s.pins := by
  simp only [State.truncate]
  repeat' split
  all_goals first | rfl | (simp; done) | (simp_all; done)

@[simp] theorem State.markMissing_frame (s : State) :
    (s.markMissing).pending = s.pending ∧ (s.markMissing).now = s.now ∧ (s.markMissing).toBank = s.toBank ∧
      (s.markMissing).pins = s.pins := by
  simp only [State.markMissing]
  repeat' split
  all_goals first | rfl | (simp; done) | (simp_all; done)

@[simp] theorem State.fieldMarked_frame (s : State) (level : Level) :
    (s.fieldMarked level).pending = s.pending ∧ (s.fieldMarked level).now = s.now ∧
      (s.fieldMarked level).toBank = s.toBank ∧ (s.fieldMarked level).pins = s.pins := by
  simp only [State.fieldMarked]
  repeat' split
  all_goals first | rfl | (simp; done) | (simp_all; done)

@[simp] theorem State.awaitField_frame (s : State) (f : Field) :
    (s.awaitField f).pending = s.pending ∧ (s.awaitField f).now = s.now ∧ (s.awaitField f).draws = s.draws ∧
      (s.awaitField f).notices = s.notices ∧ (s.awaitField f).toBridge = s.toBridge ∧
      (s.awaitField f).toBank = s.toBank ∧ (s.awaitField f).nv = s.nv ∧ (s.awaitField f).pins = s.pins ∧
      (s.awaitField f).sup = s.sup ∧ (s.awaitField f).grd = s.grd ∧ (s.awaitField f).eng = s.eng ∧
      (s.awaitField f).key = s.key ∧ (s.awaitField f).cred = s.cred ∧ (s.awaitField f).tal = s.tal ∧
      (s.awaitField f).pol = s.pol ∧ (s.awaitField f).gate = s.gate ∧ (s.awaitField f).wipe = s.wipe ∧
      (s.awaitField f).stat = s.stat := by
  simp only [State.awaitField]
  repeat' split
  all_goals first | rfl | (simp; done) | (simp_all; done)

@[simp] theorem State.loseHeader_frame (s : State) :
    (s.loseHeader).pending = s.pending ∧ (s.loseHeader).now = s.now ∧ (s.loseHeader).draws = s.draws ∧
      (s.loseHeader).notices = s.notices ∧ (s.loseHeader).toBridge = s.toBridge ∧ (s.loseHeader).toBank = s.toBank ∧
      (s.loseHeader).nv = s.nv ∧ (s.loseHeader).pins = s.pins ∧ (s.loseHeader).sup = s.sup ∧
      (s.loseHeader).grd = s.grd ∧ (s.loseHeader).key = s.key ∧ (s.loseHeader).cred = s.cred ∧
      (s.loseHeader).tal = s.tal ∧ (s.loseHeader).pol = s.pol ∧ (s.loseHeader).gate = s.gate ∧
      (s.loseHeader).wipe = s.wipe ∧ (s.loseHeader).stat = s.stat := by
  simp only [State.loseHeader]
  repeat' split
  all_goals first | rfl | (simp; done) | (simp_all; done)

@[simp] theorem State.judgeContention_frame (s : State) (line : LineBits) :
    (s.judgeContention line).pending = s.pending ∧ (s.judgeContention line).now = s.now ∧
      (s.judgeContention line).draws = s.draws ∧ (s.judgeContention line).notices = s.notices ∧
      (s.judgeContention line).toBridge = s.toBridge ∧ (s.judgeContention line).toBank = s.toBank ∧
      (s.judgeContention line).nv = s.nv ∧ (s.judgeContention line).pins = s.pins ∧
      (s.judgeContention line).sup = s.sup ∧ (s.judgeContention line).grd = s.grd ∧
      (s.judgeContention line).key = s.key ∧ (s.judgeContention line).cred = s.cred ∧
      (s.judgeContention line).tal = s.tal ∧ (s.judgeContention line).pol = s.pol ∧
      (s.judgeContention line).gate = s.gate ∧ (s.judgeContention line).wipe = s.wipe ∧
      (s.judgeContention line).stat = s.stat := by
  simp only [State.judgeContention]
  repeat' split
  all_goals first | rfl | (simp; done) | (simp_all; done)

@[simp] theorem State.kindEnded_frame (s : State) (read : LineBits) :
    (s.kindEnded read).pending = s.pending ∧ (s.kindEnded read).now = s.now ∧ (s.kindEnded read).toBank = s.toBank ∧
      (s.kindEnded read).pins = s.pins := by
  simp only [State.kindEnded]
  repeat' split
  all_goals first | rfl | (simp; done) | (simp_all; done)

@[simp] theorem State.argEnded_frame (s : State) (read : LineBits) :
    (s.argEnded read).pending = s.pending ∧ (s.argEnded read).now = s.now ∧ (s.argEnded read).draws = s.draws ∧
      (s.argEnded read).notices = s.notices ∧ (s.argEnded read).toBridge = s.toBridge ∧
      (s.argEnded read).toBank = s.toBank ∧ (s.argEnded read).nv = s.nv ∧ (s.argEnded read).pins = s.pins ∧
      (s.argEnded read).sup = s.sup ∧ (s.argEnded read).grd = s.grd ∧ (s.argEnded read).key = s.key ∧
      (s.argEnded read).cred = s.cred ∧ (s.argEnded read).tal = s.tal ∧ (s.argEnded read).pol = s.pol ∧
      (s.argEnded read).gate = s.gate ∧ (s.argEnded read).wipe = s.wipe ∧ (s.argEnded read).stat = s.stat := by
  simp only [State.argEnded]
  repeat' split
  all_goals first | rfl | (simp; done) | (simp_all; done)

@[simp] theorem State.openersEnded_frame (s : State) (r : RoundRec) (read : LineBits) :
    (s.openersEnded r read).pending = s.pending ∧ (s.openersEnded r read).now = s.now ∧
      (s.openersEnded r read).toBank = s.toBank ∧ (s.openersEnded r read).pins = s.pins := by
  simp only [State.openersEnded]
  repeat' split
  all_goals first | rfl | (simp; done) | (simp_all; done)

@[simp] theorem State.handEntry_frame (s : State) :
    (s.handEntry).pending = s.pending ∧ (s.handEntry).now = s.now ∧ (s.handEntry).draws = s.draws ∧
      (s.handEntry).notices = s.notices ∧ (s.handEntry).toBridge = s.toBridge ∧ (s.handEntry).toBank = s.toBank ∧
      (s.handEntry).nv = s.nv ∧ (s.handEntry).pins = s.pins ∧ (s.handEntry).sup = s.sup ∧ (s.handEntry).grd = s.grd ∧
      (s.handEntry).line = s.line ∧ (s.handEntry).tal = s.tal ∧ (s.handEntry).pol = s.pol ∧
      (s.handEntry).gate = s.gate ∧ (s.handEntry).wipe = s.wipe ∧ (s.handEntry).stat = s.stat := by
  simp only [State.handEntry]
  repeat' split
  all_goals first | rfl | (simp; done) | (simp_all; done)

@[simp] theorem State.handChange_frame (s : State) (arg : Arg) :
    (s.handChange arg).pending = s.pending ∧ (s.handChange arg).now = s.now ∧ (s.handChange arg).draws = s.draws ∧
      (s.handChange arg).notices = s.notices ∧ (s.handChange arg).toBridge = s.toBridge ∧
      (s.handChange arg).toBank = s.toBank ∧ (s.handChange arg).nv = s.nv ∧ (s.handChange arg).pins = s.pins ∧
      (s.handChange arg).sup = s.sup ∧ (s.handChange arg).grd = s.grd ∧ (s.handChange arg).line = s.line ∧
      (s.handChange arg).eng = s.eng ∧ (s.handChange arg).tal = s.tal ∧ (s.handChange arg).pol = s.pol ∧
      (s.handChange arg).gate = s.gate ∧ (s.handChange arg).wipe = s.wipe ∧ (s.handChange arg).stat = s.stat := by
  simp only [State.handChange]
  repeat' split
  all_goals first | rfl | (simp; done) | (simp_all; done)

@[simp] theorem State.awaitNext_frame (s : State) (r : RoundRec) (f : Field) :
    (s.awaitNext r f).pending = s.pending ∧ (s.awaitNext r f).now = s.now ∧ (s.awaitNext r f).draws = s.draws ∧
      (s.awaitNext r f).notices = s.notices ∧ (s.awaitNext r f).toBridge = s.toBridge ∧
      (s.awaitNext r f).toBank = s.toBank ∧ (s.awaitNext r f).nv = s.nv ∧ (s.awaitNext r f).pins = s.pins ∧
      (s.awaitNext r f).sup = s.sup ∧ (s.awaitNext r f).grd = s.grd ∧ (s.awaitNext r f).eng = s.eng ∧
      (s.awaitNext r f).key = s.key ∧ (s.awaitNext r f).cred = s.cred ∧ (s.awaitNext r f).tal = s.tal ∧
      (s.awaitNext r f).pol = s.pol ∧ (s.awaitNext r f).gate = s.gate ∧ (s.awaitNext r f).wipe = s.wipe ∧
      (s.awaitNext r f).stat = s.stat := by
  simp only [State.awaitNext]
  repeat' split
  all_goals first | rfl | (simp; done) | (simp_all; done)

@[simp] theorem State.answerEnded_frame (s : State) (r : RoundRec) (read : LineBits) :
    (s.answerEnded r read).pending = s.pending ∧ (s.answerEnded r read).now = s.now ∧
      (s.answerEnded r read).toBank = s.toBank ∧ (s.answerEnded r read).nv = s.nv ∧
      (s.answerEnded r read).pins = s.pins ∧ (s.answerEnded r read).tal = s.tal ∧
      (s.answerEnded r read).wipe = s.wipe ∧ (s.answerEnded r read).stat = s.stat := by
  simp only [State.answerEnded]
  repeat' split
  all_goals first | rfl | (simp; done) | (simp_all; done)

@[simp] theorem State.bodyEnded_frame (s : State) (r : RoundRec) (f : Field) (read : LineBits) :
    (s.bodyEnded r f read).pending = s.pending ∧ (s.bodyEnded r f read).now = s.now ∧
      (s.bodyEnded r f read).draws = s.draws ∧ (s.bodyEnded r f read).notices = s.notices ∧
      (s.bodyEnded r f read).toBridge = s.toBridge ∧ (s.bodyEnded r f read).toBank = s.toBank ∧
      (s.bodyEnded r f read).nv = s.nv ∧ (s.bodyEnded r f read).pins = s.pins ∧ (s.bodyEnded r f read).sup = s.sup ∧
      (s.bodyEnded r f read).grd = s.grd ∧ (s.bodyEnded r f read).key = s.key ∧
      (s.bodyEnded r f read).cred = s.cred ∧ (s.bodyEnded r f read).tal = s.tal ∧
      (s.bodyEnded r f read).pol = s.pol ∧ (s.bodyEnded r f read).gate = s.gate ∧
      (s.bodyEnded r f read).wipe = s.wipe ∧ (s.bodyEnded r f read).stat = s.stat := by
  simp only [State.bodyEnded]
  repeat' split
  all_goals first | rfl | (simp; done) | (simp_all; done)

@[simp] theorem State.serialEnded_frame (s : State) (r : RoundRec) (read : LineBits) :
    (s.serialEnded r read).pending = s.pending ∧ (s.serialEnded r read).now = s.now ∧
      (s.serialEnded r read).draws = s.draws ∧ (s.serialEnded r read).toBank = s.toBank ∧
      (s.serialEnded r read).nv = s.nv ∧ (s.serialEnded r read).pins = s.pins ∧ (s.serialEnded r read).tal = s.tal := by
  simp only [State.serialEnded]
  repeat' split
  all_goals first | rfl | (simp; done) | (simp_all; done)

@[simp] theorem State.detailEnded_frame (s : State) (r : RoundRec) (read : LineBits) :
    (s.detailEnded r read).pending = s.pending ∧ (s.detailEnded r read).now = s.now ∧
      (s.detailEnded r read).draws = s.draws ∧ (s.detailEnded r read).toBridge = s.toBridge ∧
      (s.detailEnded r read).toBank = s.toBank ∧ (s.detailEnded r read).nv = s.nv ∧
      (s.detailEnded r read).pins = s.pins ∧ (s.detailEnded r read).sup = s.sup ∧
      (s.detailEnded r read).grd = s.grd ∧ (s.detailEnded r read).key = s.key ∧
      (s.detailEnded r read).cred = s.cred ∧ (s.detailEnded r read).tal = s.tal ∧
      (s.detailEnded r read).pol = s.pol ∧ (s.detailEnded r read).gate = s.gate ∧ (s.detailEnded r read).wipe = s.wipe := by
  simp only [State.detailEnded]
  repeat' split
  all_goals first | rfl | (simp; done) | (simp_all; done)

@[simp] theorem State.senseField_frame (s : State) (f : Field) (read : LineBits) :
    (s.senseField f read).pending = s.pending ∧ (s.senseField f read).now = s.now ∧
      (s.senseField f read).draws = s.draws ∧ (s.senseField f read).notices = s.notices ∧
      (s.senseField f read).toBridge = s.toBridge ∧ (s.senseField f read).toBank = s.toBank ∧
      (s.senseField f read).nv = s.nv ∧ (s.senseField f read).pins = s.pins ∧ (s.senseField f read).sup = s.sup ∧
      (s.senseField f read).grd = s.grd ∧ (s.senseField f read).eng = s.eng ∧ (s.senseField f read).key = s.key ∧
      (s.senseField f read).cred = s.cred ∧ (s.senseField f read).tal = s.tal ∧ (s.senseField f read).pol = s.pol ∧
      (s.senseField f read).gate = s.gate ∧ (s.senseField f read).wipe = s.wipe ∧ (s.senseField f read).stat = s.stat := by
  simp only [State.senseField]
  repeat' split
  all_goals first | rfl | (simp; done) | (simp_all; done)

@[simp] theorem State.takeField_frame (s : State) (r : RoundRec) (f : Field) (read : LineBits) :
    (s.takeField r f read).pending = s.pending ∧ (s.takeField r f read).now = s.now ∧
      (s.takeField r f read).toBank = s.toBank ∧ (s.takeField r f read).pins = s.pins := by
  simp only [State.takeField]
  repeat' split
  all_goals first | rfl | (simp; done) | (simp_all; done)

@[simp] theorem State.fieldEnded_frame (s : State) (read : LineBits) :
    (s.fieldEnded read).pending = s.pending ∧ (s.fieldEnded read).now = s.now ∧
      (s.fieldEnded read).toBank = s.toBank ∧ (s.fieldEnded read).pins = s.pins := by
  simp only [State.fieldEnded]
  repeat' split
  all_goals first | rfl | (simp; done) | (simp_all; done)

@[simp] theorem State.release_frame (s : State) :
    (s.release).pending = s.pending ∧ (s.release).now = s.now ∧ (s.release).draws = s.draws ∧
      (s.release).notices = s.notices ∧ (s.release).toBridge = s.toBridge ∧ (s.release).toBank = s.toBank ∧
      (s.release).nv = s.nv ∧ (s.release).pins = s.pins ∧ (s.release).sup = s.sup ∧ (s.release).grd = s.grd ∧
      (s.release).eng = s.eng ∧ (s.release).key = s.key ∧ (s.release).cred = s.cred ∧ (s.release).tal = s.tal ∧
      (s.release).pol = s.pol ∧ (s.release).gate = s.gate ∧ (s.release).wipe = s.wipe ∧ (s.release).stat = s.stat := by
  simp only [State.release]
  repeat' split
  all_goals first | rfl | (simp; done) | (simp_all; done)

@[simp] theorem State.holdEnd_frame (s : State) :
    (s.holdEnd).pending = s.pending ∧ (s.holdEnd).now = s.now ∧ (s.holdEnd).draws = s.draws ∧
      (s.holdEnd).notices = s.notices ∧ (s.holdEnd).toBridge = s.toBridge ∧ (s.holdEnd).toBank = s.toBank ∧
      (s.holdEnd).nv = s.nv ∧ (s.holdEnd).pins = s.pins ∧ (s.holdEnd).sup = s.sup ∧ (s.holdEnd).grd = s.grd ∧
      (s.holdEnd).key = s.key ∧ (s.holdEnd).cred = s.cred ∧ (s.holdEnd).pol = s.pol ∧ (s.holdEnd).gate = s.gate ∧
      (s.holdEnd).wipe = s.wipe ∧ (s.holdEnd).stat = s.stat := by
  simp only [State.holdEnd]
  repeat' split
  all_goals first | rfl | (simp; done) | (simp_all; done)

@[simp] theorem State.holdMaxReached_frame (s : State) :
    (s.holdMaxReached).pending = s.pending ∧ (s.holdMaxReached).draws = s.draws ∧
      (s.holdMaxReached).notices = s.notices ∧ (s.holdMaxReached).toBridge = s.toBridge ∧
      (s.holdMaxReached).toBank = s.toBank ∧ (s.holdMaxReached).nv = s.nv ∧ (s.holdMaxReached).pins = s.pins ∧
      (s.holdMaxReached).sup = s.sup ∧ (s.holdMaxReached).grd = s.grd ∧ (s.holdMaxReached).eng = s.eng ∧
      (s.holdMaxReached).key = s.key ∧ (s.holdMaxReached).cred = s.cred ∧ (s.holdMaxReached).tal = s.tal ∧
      (s.holdMaxReached).pol = s.pol ∧ (s.holdMaxReached).gate = s.gate ∧ (s.holdMaxReached).wipe = s.wipe ∧
      (s.holdMaxReached).stat = s.stat := by
  simp only [State.holdMaxReached]
  repeat' split
  all_goals first | rfl | (simp; done) | (simp_all; done)

@[simp] theorem State.ownerMade_frame (s : State) (owner : HoldOwner) :
    (s.ownerMade owner).pending = s.pending ∧ (s.ownerMade owner).now = s.now ∧ (s.ownerMade owner).draws = s.draws ∧
      (s.ownerMade owner).toBank = s.toBank ∧ (s.ownerMade owner).pins = s.pins ∧ (s.ownerMade owner).line = s.line ∧
      (s.ownerMade owner).pol = s.pol ∧ (s.ownerMade owner).stat = s.stat := by
  simp only [State.ownerMade]
  repeat' split
  all_goals first | rfl | (simp; done) | (simp_all; done)

@[simp] theorem State.ownerFailed_frame (s : State) (owner : HoldOwner) :
    (s.ownerFailed owner).pending = s.pending ∧ (s.ownerFailed owner).now = s.now ∧
      (s.ownerFailed owner).draws = s.draws ∧ (s.ownerFailed owner).toBridge = s.toBridge ∧
      (s.ownerFailed owner).toBank = s.toBank ∧ (s.ownerFailed owner).pins = s.pins ∧
      (s.ownerFailed owner).sup = s.sup ∧ (s.ownerFailed owner).grd = s.grd ∧ (s.ownerFailed owner).line = s.line ∧
      (s.ownerFailed owner).key = s.key ∧ (s.ownerFailed owner).pol = s.pol := by
  simp only [State.ownerFailed]
  repeat' split
  all_goals first | rfl | (simp; done) | (simp_all; done)

@[simp] theorem State.heldStoreMade_frame (s : State) :
    (s.heldStoreMade).pending = s.pending ∧ (s.heldStoreMade).now = s.now ∧ (s.heldStoreMade).draws = s.draws ∧
      (s.heldStoreMade).toBank = s.toBank ∧ (s.heldStoreMade).pins = s.pins ∧ (s.heldStoreMade).pol = s.pol ∧
      (s.heldStoreMade).stat = s.stat := by
  simp only [State.heldStoreMade]
  repeat' split
  all_goals first | rfl | (simp; done) | (simp_all; done)

@[simp] theorem State.heldStoreFailed_frame (s : State) :
    (s.heldStoreFailed).pending = s.pending ∧ (s.heldStoreFailed).now = s.now ∧ (s.heldStoreFailed).draws = s.draws ∧
      (s.heldStoreFailed).toBridge = s.toBridge ∧ (s.heldStoreFailed).toBank = s.toBank ∧
      (s.heldStoreFailed).pins = s.pins ∧ (s.heldStoreFailed).sup = s.sup ∧ (s.heldStoreFailed).grd = s.grd ∧
      (s.heldStoreFailed).key = s.key ∧ (s.heldStoreFailed).pol = s.pol := by
  simp only [State.heldStoreFailed]
  repeat' split
  all_goals first | rfl | (simp; done) | (simp_all; done)

@[simp] theorem State.lateStoreMade_frame (s : State) (owner : HoldOwner) :
    (s.lateStoreMade owner).pending = s.pending ∧ (s.lateStoreMade owner).now = s.now ∧
      (s.lateStoreMade owner).draws = s.draws ∧ (s.lateStoreMade owner).toBank = s.toBank ∧
      (s.lateStoreMade owner).pins = s.pins ∧ (s.lateStoreMade owner).line = s.line ∧
      (s.lateStoreMade owner).pol = s.pol ∧ (s.lateStoreMade owner).stat = s.stat := by
  simp only [State.lateStoreMade]
  repeat' split
  all_goals first | rfl | (simp; done) | (simp_all; done)

@[simp] theorem State.recordRound_frame (s : State) (r : RoundRec) :
    (s.recordRound r).pending = s.pending ∧ (s.recordRound r).now = s.now ∧ (s.recordRound r).draws = s.draws ∧
      (s.recordRound r).toBridge = s.toBridge ∧ (s.recordRound r).toBank = s.toBank ∧ (s.recordRound r).nv = s.nv ∧
      (s.recordRound r).pins = s.pins ∧ (s.recordRound r).sup = s.sup ∧ (s.recordRound r).grd = s.grd ∧
      (s.recordRound r).line = s.line ∧ (s.recordRound r).key = s.key ∧ (s.recordRound r).cred = s.cred ∧
      (s.recordRound r).tal = s.tal ∧ (s.recordRound r).pol = s.pol ∧ (s.recordRound r).gate = s.gate ∧
      (s.recordRound r).wipe = s.wipe := by
  simp only [State.recordRound]
  repeat' split
  all_goals first | rfl | (simp; done) | (simp_all; done)

@[simp] theorem State.discardAbove_frame (s : State) (high : Nat) :
    (s.discardAbove high).pending = s.pending ∧ (s.discardAbove high).now = s.now ∧
      (s.discardAbove high).draws = s.draws ∧ (s.discardAbove high).notices = s.notices ∧
      (s.discardAbove high).toBridge = s.toBridge ∧ (s.discardAbove high).toBank = s.toBank ∧
      (s.discardAbove high).pins = s.pins ∧ (s.discardAbove high).sup = s.sup ∧ (s.discardAbove high).grd = s.grd ∧
      (s.discardAbove high).line = s.line ∧ (s.discardAbove high).eng = s.eng ∧ (s.discardAbove high).key = s.key ∧
      (s.discardAbove high).tal = s.tal ∧ (s.discardAbove high).pol = s.pol ∧ (s.discardAbove high).gate = s.gate ∧
      (s.discardAbove high).wipe = s.wipe ∧ (s.discardAbove high).stat = s.stat := by
  simp only [State.discardAbove]
  repeat' split
  all_goals first | rfl | (simp; done) | (simp_all; done)

@[simp] theorem State.clearMustChange_frame (s : State) (target : CodeSlotNo) :
    (s.clearMustChange target).pending = s.pending ∧ (s.clearMustChange target).now = s.now ∧
      (s.clearMustChange target).draws = s.draws ∧ (s.clearMustChange target).notices = s.notices ∧
      (s.clearMustChange target).toBridge = s.toBridge ∧ (s.clearMustChange target).toBank = s.toBank ∧
      (s.clearMustChange target).nv = s.nv ∧ (s.clearMustChange target).pins = s.pins ∧
      (s.clearMustChange target).sup = s.sup ∧ (s.clearMustChange target).line = s.line ∧
      (s.clearMustChange target).eng = s.eng ∧ (s.clearMustChange target).key = s.key ∧
      (s.clearMustChange target).cred = s.cred ∧ (s.clearMustChange target).tal = s.tal ∧
      (s.clearMustChange target).pol = s.pol ∧ (s.clearMustChange target).gate = s.gate ∧
      (s.clearMustChange target).wipe = s.wipe ∧ (s.clearMustChange target).stat = s.stat := by
  simp only [State.clearMustChange]
  repeat' split
  all_goals first | rfl | (simp; done) | (simp_all; done)

@[simp] theorem State.promoteAt_frame (s : State) (high : Nat) (low : Nat) :
    (s.promoteAt high low).pending = s.pending ∧ (s.promoteAt high low).now = s.now ∧
      (s.promoteAt high low).draws = s.draws ∧ (s.promoteAt high low).toBank = s.toBank ∧
      (s.promoteAt high low).pins = s.pins ∧ (s.promoteAt high low).line = s.line ∧
      (s.promoteAt high low).tal = s.tal ∧ (s.promoteAt high low).pol = s.pol ∧
      (s.promoteAt high low).wipe = s.wipe ∧ (s.promoteAt high low).stat = s.stat := by
  simp only [State.promoteAt]
  repeat' split
  all_goals first | rfl | (simp; done) | (simp_all; done)

@[simp] theorem State.flagBehind_frame (s : State) (high : Nat) :
    (s.flagBehind high).pending = s.pending ∧ (s.flagBehind high).now = s.now ∧ (s.flagBehind high).draws = s.draws ∧
      (s.flagBehind high).toBridge = s.toBridge ∧ (s.flagBehind high).toBank = s.toBank ∧
      (s.flagBehind high).nv = s.nv ∧ (s.flagBehind high).pins = s.pins ∧ (s.flagBehind high).sup = s.sup ∧
      (s.flagBehind high).grd = s.grd ∧ (s.flagBehind high).line = s.line ∧ (s.flagBehind high).key = s.key ∧
      (s.flagBehind high).cred = s.cred ∧ (s.flagBehind high).tal = s.tal ∧ (s.flagBehind high).pol = s.pol ∧
      (s.flagBehind high).gate = s.gate ∧ (s.flagBehind high).wipe = s.wipe := by
  simp only [State.flagBehind]
  repeat' split
  all_goals first | rfl | (simp; done) | (simp_all; done)

@[simp] theorem State.stampEffects_frame (s : State) (high : Nat) (low : Nat) :
    (s.stampEffects high low).pending = s.pending ∧ (s.stampEffects high low).now = s.now ∧
      (s.stampEffects high low).draws = s.draws ∧ (s.stampEffects high low).toBank = s.toBank ∧
      (s.stampEffects high low).pins = s.pins ∧ (s.stampEffects high low).line = s.line ∧
      (s.stampEffects high low).tal = s.tal ∧ (s.stampEffects high low).pol = s.pol ∧
      (s.stampEffects high low).wipe = s.wipe := by
  simp only [State.stampEffects]
  repeat' split
  all_goals first | rfl | (simp; done) | (simp_all; done)

@[simp] theorem State.endRoll_frame (s : State) (r : RoundRec) (cls : RoundClass) :
    (s.endRoll r cls).pending = s.pending ∧ (s.endRoll r cls).now = s.now ∧ (s.endRoll r cls).draws = s.draws ∧
      (s.endRoll r cls).toBank = s.toBank ∧ (s.endRoll r cls).pins = s.pins ∧ (s.endRoll r cls).line = s.line ∧
      (s.endRoll r cls).pol = s.pol := by
  simp only [State.endRoll]
  repeat' split
  all_goals first | rfl | (simp; done) | (simp_all; done)

@[simp] theorem State.matchEffects_frame (s : State) (r : RoundRec) (slot : CodeSlotNo) :
    (s.matchEffects r slot).pending = s.pending ∧ (s.matchEffects r slot).now = s.now ∧
      (s.matchEffects r slot).draws = s.draws ∧ (s.matchEffects r slot).toBank = s.toBank ∧
      (s.matchEffects r slot).nv = s.nv ∧ (s.matchEffects r slot).pins = s.pins ∧
      (s.matchEffects r slot).line = s.line ∧ (s.matchEffects r slot).pol = s.pol ∧
      (s.matchEffects r slot).wipe = s.wipe ∧ (s.matchEffects r slot).stat = s.stat := by
  simp only [State.matchEffects]
  repeat' split
  all_goals first | rfl | (simp; done) | (simp_all; done)

@[simp] theorem State.endCheck_frame (s : State) (r : RoundRec) (cls : RoundClass) :
    (s.endCheck r cls).pending = s.pending ∧ (s.endCheck r cls).now = s.now ∧ (s.endCheck r cls).draws = s.draws ∧
      (s.endCheck r cls).toBank = s.toBank ∧ (s.endCheck r cls).nv = s.nv ∧ (s.endCheck r cls).pins = s.pins ∧
      (s.endCheck r cls).line = s.line ∧ (s.endCheck r cls).pol = s.pol ∧ (s.endCheck r cls).wipe = s.wipe := by
  simp only [State.endCheck]
  repeat' split
  all_goals first | rfl | (simp; done) | (simp_all; done)

@[simp] theorem State.takePromotion_frame (s : State) (p : PendingChange) :
    (s.takePromotion p).pending = s.pending ∧ (s.takePromotion p).now = s.now ∧ (s.takePromotion p).draws = s.draws ∧
      (s.takePromotion p).toBank = s.toBank ∧ (s.takePromotion p).nv = s.nv ∧ (s.takePromotion p).pins = s.pins ∧
      (s.takePromotion p).line = s.line ∧ (s.takePromotion p).tal = s.tal ∧ (s.takePromotion p).pol = s.pol ∧
      (s.takePromotion p).wipe = s.wipe ∧ (s.takePromotion p).stat = s.stat := by
  simp only [State.takePromotion]
  repeat' split
  all_goals first | rfl | (simp; done) | (simp_all; done)

@[simp] theorem State.endSetcode_frame (s : State) (r : RoundRec) (cls : RoundClass) :
    (s.endSetcode r cls).pending = s.pending ∧ (s.endSetcode r cls).now = s.now ∧
      (s.endSetcode r cls).draws = s.draws ∧ (s.endSetcode r cls).toBank = s.toBank ∧
      (s.endSetcode r cls).pins = s.pins ∧ (s.endSetcode r cls).line = s.line ∧ (s.endSetcode r cls).tal = s.tal ∧
      (s.endSetcode r cls).pol = s.pol ∧ (s.endSetcode r cls).wipe = s.wipe ∧ (s.endSetcode r cls).stat = s.stat := by
  simp only [State.endSetcode]
  repeat' split
  all_goals first | rfl | (simp; done) | (simp_all; done)

@[simp] theorem State.endSession_frame (s : State) (applies : Bool) :
    (s.endSession applies).pending = s.pending ∧ (s.endSession applies).now = s.now ∧
      (s.endSession applies).draws = s.draws ∧ (s.endSession applies).notices = s.notices ∧
      (s.endSession applies).toBridge = s.toBridge ∧ (s.endSession applies).toBank = s.toBank ∧
      (s.endSession applies).nv = s.nv ∧ (s.endSession applies).pins = s.pins ∧ (s.endSession applies).sup = s.sup ∧
      (s.endSession applies).grd = s.grd ∧ (s.endSession applies).line = s.line ∧
      (s.endSession applies).eng = s.eng ∧ (s.endSession applies).key = s.key ∧
      (s.endSession applies).cred = s.cred ∧ (s.endSession applies).tal = s.tal ∧
      (s.endSession applies).pol = s.pol ∧ (s.endSession applies).wipe = s.wipe ∧ (s.endSession applies).stat = s.stat := by
  simp only [State.endSession]
  repeat' split
  all_goals first | rfl | (simp; done) | (simp_all; done)

@[simp] theorem State.endFixed_frame (s : State) (r : RoundRec) (applies : Bool) :
    (s.endFixed r applies).pending = s.pending ∧ (s.endFixed r applies).now = s.now ∧
      (s.endFixed r applies).draws = s.draws ∧ (s.endFixed r applies).notices = s.notices ∧
      (s.endFixed r applies).toBridge = s.toBridge ∧ (s.endFixed r applies).toBank = s.toBank ∧
      (s.endFixed r applies).pins = s.pins ∧ (s.endFixed r applies).sup = s.sup ∧
      (s.endFixed r applies).grd = s.grd ∧ (s.endFixed r applies).line = s.line ∧
      (s.endFixed r applies).eng = s.eng ∧ (s.endFixed r applies).key = s.key ∧
      (s.endFixed r applies).cred = s.cred ∧ (s.endFixed r applies).tal = s.tal ∧
      (s.endFixed r applies).pol = s.pol ∧ (s.endFixed r applies).wipe = s.wipe ∧ (s.endFixed r applies).stat = s.stat := by
  simp only [State.endFixed]
  repeat' split
  all_goals first | rfl | (simp; done) | (simp_all; done)

@[simp] theorem State.endSetmark_frame (s : State) (r : RoundRec) (cls : RoundClass) :
    (s.endSetmark r cls).pending = s.pending ∧ (s.endSetmark r cls).now = s.now ∧
      (s.endSetmark r cls).draws = s.draws ∧ (s.endSetmark r cls).notices = s.notices ∧
      (s.endSetmark r cls).toBridge = s.toBridge ∧ (s.endSetmark r cls).toBank = s.toBank ∧
      (s.endSetmark r cls).pins = s.pins ∧ (s.endSetmark r cls).sup = s.sup ∧ (s.endSetmark r cls).grd = s.grd ∧
      (s.endSetmark r cls).line = s.line ∧ (s.endSetmark r cls).eng = s.eng ∧ (s.endSetmark r cls).key = s.key ∧
      (s.endSetmark r cls).cred = s.cred ∧ (s.endSetmark r cls).tal = s.tal ∧ (s.endSetmark r cls).pol = s.pol ∧
      (s.endSetmark r cls).wipe = s.wipe ∧ (s.endSetmark r cls).stat = s.stat := by
  simp only [State.endSetmark]
  repeat' split
  all_goals first | rfl | (simp; done) | (simp_all; done)

@[simp] theorem State.writePolicy_frame (s : State) (t : PolicyTable) :
    (s.writePolicy t).pending = s.pending ∧ (s.writePolicy t).now = s.now ∧ (s.writePolicy t).draws = s.draws ∧
      (s.writePolicy t).notices = s.notices ∧ (s.writePolicy t).toBridge = s.toBridge ∧
      (s.writePolicy t).toBank = s.toBank ∧ (s.writePolicy t).nv = s.nv ∧ (s.writePolicy t).pins = s.pins ∧
      (s.writePolicy t).sup = s.sup ∧ (s.writePolicy t).grd = s.grd ∧ (s.writePolicy t).line = s.line ∧
      (s.writePolicy t).eng = s.eng ∧ (s.writePolicy t).key = s.key ∧ (s.writePolicy t).cred = s.cred ∧
      (s.writePolicy t).tal = s.tal ∧ (s.writePolicy t).gate = s.gate ∧ (s.writePolicy t).wipe = s.wipe ∧
      (s.writePolicy t).stat = s.stat := by
  simp only [State.writePolicy]
  repeat' split
  all_goals first | rfl | (simp; done) | (simp_all; done)

@[simp] theorem State.applyItem_frame (s : State) (item : FitItem) :
    (s.applyItem item).pending = s.pending ∧ (s.applyItem item).now = s.now ∧ (s.applyItem item).draws = s.draws ∧
      (s.applyItem item).notices = s.notices ∧ (s.applyItem item).toBridge = s.toBridge ∧
      (s.applyItem item).toBank = s.toBank ∧ (s.applyItem item).nv = s.nv ∧ (s.applyItem item).pins = s.pins ∧
      (s.applyItem item).sup = s.sup ∧ (s.applyItem item).grd = s.grd ∧ (s.applyItem item).line = s.line ∧
      (s.applyItem item).eng = s.eng ∧ (s.applyItem item).key = s.key ∧ (s.applyItem item).cred = s.cred ∧
      (s.applyItem item).tal = s.tal ∧ (s.applyItem item).wipe = s.wipe ∧ (s.applyItem item).stat = s.stat := by
  simp only [State.applyItem]
  repeat' split
  all_goals first | rfl | (simp; done) | (simp_all; done)

@[simp] theorem State.endFit_frame (s : State) (r : RoundRec) (cls : RoundClass) :
    (s.endFit r cls).pending = s.pending ∧ (s.endFit r cls).now = s.now ∧ (s.endFit r cls).draws = s.draws ∧
      (s.endFit r cls).notices = s.notices ∧ (s.endFit r cls).toBridge = s.toBridge ∧
      (s.endFit r cls).toBank = s.toBank ∧ (s.endFit r cls).nv = s.nv ∧ (s.endFit r cls).pins = s.pins ∧
      (s.endFit r cls).sup = s.sup ∧ (s.endFit r cls).grd = s.grd ∧ (s.endFit r cls).line = s.line ∧
      (s.endFit r cls).eng = s.eng ∧ (s.endFit r cls).key = s.key ∧ (s.endFit r cls).cred = s.cred ∧
      (s.endFit r cls).tal = s.tal ∧ (s.endFit r cls).wipe = s.wipe := by
  simp only [State.endFit]
  repeat' split
  all_goals first | rfl | (simp; done) | (simp_all; done)

@[simp] theorem State.endStatus_frame (s : State) (r : RoundRec) :
    (s.endStatus r).pending = s.pending ∧ (s.endStatus r).now = s.now ∧ (s.endStatus r).draws = s.draws ∧
      (s.endStatus r).notices = s.notices ∧ (s.endStatus r).toBridge = s.toBridge ∧
      (s.endStatus r).toBank = s.toBank ∧ (s.endStatus r).nv = s.nv ∧ (s.endStatus r).pins = s.pins ∧
      (s.endStatus r).sup = s.sup ∧ (s.endStatus r).grd = s.grd ∧ (s.endStatus r).line = s.line ∧
      (s.endStatus r).eng = s.eng ∧ (s.endStatus r).key = s.key ∧ (s.endStatus r).cred = s.cred ∧
      (s.endStatus r).tal = s.tal ∧ (s.endStatus r).pol = s.pol ∧ (s.endStatus r).gate = s.gate ∧
      (s.endStatus r).wipe = s.wipe := by
  simp only [State.endStatus]
  repeat' split
  all_goals first | rfl | (simp; done) | (simp_all; done)

@[simp] theorem State.endClear_frame (s : State) (r : RoundRec) :
    (s.endClear r).pending = s.pending ∧ (s.endClear r).now = s.now ∧ (s.endClear r).draws = s.draws ∧
      (s.endClear r).notices = s.notices ∧ (s.endClear r).toBridge = s.toBridge ∧ (s.endClear r).toBank = s.toBank ∧
      (s.endClear r).nv = s.nv ∧ (s.endClear r).pins = s.pins ∧ (s.endClear r).sup = s.sup ∧
      (s.endClear r).grd = s.grd ∧ (s.endClear r).line = s.line ∧ (s.endClear r).eng = s.eng ∧
      (s.endClear r).key = s.key ∧ (s.endClear r).cred = s.cred ∧ (s.endClear r).tal = s.tal ∧
      (s.endClear r).gate = s.gate ∧ (s.endClear r).wipe = s.wipe := by
  simp only [State.endClear]
  repeat' split
  all_goals first | rfl | (simp; done) | (simp_all; done)

@[simp] theorem State.endProgress_frame (s : State) (r : RoundRec) (cls : RoundClass) :
    (s.endProgress r cls).pending = s.pending ∧ (s.endProgress r cls).now = s.now ∧
      (s.endProgress r cls).draws = s.draws ∧ (s.endProgress r cls).toBank = s.toBank ∧
      (s.endProgress r cls).nv = s.nv ∧ (s.endProgress r cls).pins = s.pins ∧ (s.endProgress r cls).line = s.line ∧
      (s.endProgress r cls).cred = s.cred ∧ (s.endProgress r cls).pol = s.pol := by
  simp only [State.endProgress]
  repeat' split
  all_goals first | rfl | (simp; done) | (simp_all; done)

@[simp] theorem State.ownersEnd_frame (s : State) (r : RoundRec) (cls : RoundClass) :
    (s.ownersEnd r cls).pending = s.pending ∧ (s.ownersEnd r cls).now = s.now ∧ (s.ownersEnd r cls).draws = s.draws ∧
      (s.ownersEnd r cls).toBank = s.toBank ∧ (s.ownersEnd r cls).pins = s.pins ∧ (s.ownersEnd r cls).line = s.line := by
  simp only [State.ownersEnd]
  repeat' split
  all_goals first | rfl | (simp; done) | (simp_all; done)

@[simp] theorem State.roundEnded_frame (s : State) (accept : Slots) :
    (s.roundEnded accept).pending = s.pending ∧ (s.roundEnded accept).now = s.now ∧
      (s.roundEnded accept).draws = s.draws ∧ (s.roundEnded accept).toBank = s.toBank ∧
      (s.roundEnded accept).pins = s.pins := by
  simp only [State.roundEnded]
  repeat' split
  all_goals first | rfl | (simp; done) | (simp_all; done)

@[simp] theorem State.powerOff_frame (s : State) (pins : Pins) :
    (s.powerOff pins).pending = s.pending ∧ (s.powerOff pins).now = s.now ∧ (s.powerOff pins).draws = s.draws ∧
      (s.powerOff pins).toBridge = s.toBridge ∧ (s.powerOff pins).toBank = s.toBank ∧ (s.powerOff pins).nv = s.nv := by
  simp [State.powerOff, State.atPowerOn]

@[simp] theorem State.powerOn_frame (s : State) (stn : BitVec 3) (rsz : BitVec 3) (pins : Pins) :
    (s.powerOn stn rsz pins).pending = s.pending ∧ (s.powerOn stn rsz pins).now = s.now ∧
      (s.powerOn stn rsz pins).draws = s.draws ∧ (s.powerOn stn rsz pins).toBridge = s.toBridge ∧
      (s.powerOn stn rsz pins).toBank = s.toBank ∧ (s.powerOn stn rsz pins).nv = s.nv := by
  simp only [State.powerOn]
  split <;> simp [State.atPowerOn]

@[simp] theorem State.loadFlags_frame (s : State) (r : LoadReport) :
    (s.loadFlags r).pending = s.pending ∧ (s.loadFlags r).now = s.now ∧ (s.loadFlags r).draws = s.draws ∧
      (s.loadFlags r).notices = s.notices ∧ (s.loadFlags r).toBridge = s.toBridge ∧
      (s.loadFlags r).toBank = s.toBank ∧ (s.loadFlags r).nv = s.nv ∧ (s.loadFlags r).pins = s.pins ∧
      (s.loadFlags r).sup = s.sup ∧ (s.loadFlags r).grd = s.grd ∧ (s.loadFlags r).line = s.line ∧
      (s.loadFlags r).eng = s.eng ∧ (s.loadFlags r).key = s.key ∧ (s.loadFlags r).cred = s.cred ∧
      (s.loadFlags r).tal = s.tal ∧ (s.loadFlags r).pol = s.pol ∧ (s.loadFlags r).gate = s.gate ∧
      (s.loadFlags r).wipe = s.wipe := by
  simp only [State.loadFlags]
  repeat' split
  all_goals first | rfl | (simp; done) | (simp_all; done)

@[simp] theorem foldl_slotBack_frame (l : List CodeSlotNo) (s : State) :
    (l.foldl (fun s i => s.askCred (.slotBack i)) s).pending = s.pending ∧
      (l.foldl (fun s i => s.askCred (.slotBack i)) s).now = s.now ∧
      (l.foldl (fun s i => s.askCred (.slotBack i)) s).draws = s.draws ∧
      (l.foldl (fun s i => s.askCred (.slotBack i)) s).notices = s.notices ∧
      (l.foldl (fun s i => s.askCred (.slotBack i)) s).toBridge = s.toBridge ∧
      (l.foldl (fun s i => s.askCred (.slotBack i)) s).toBank = s.toBank ∧
      (l.foldl (fun s i => s.askCred (.slotBack i)) s).pins = s.pins ∧
      (l.foldl (fun s i => s.askCred (.slotBack i)) s).sup = s.sup ∧
      (l.foldl (fun s i => s.askCred (.slotBack i)) s).grd = s.grd ∧
      (l.foldl (fun s i => s.askCred (.slotBack i)) s).line = s.line ∧
      (l.foldl (fun s i => s.askCred (.slotBack i)) s).eng = s.eng ∧
      (l.foldl (fun s i => s.askCred (.slotBack i)) s).key = s.key ∧
      (l.foldl (fun s i => s.askCred (.slotBack i)) s).tal = s.tal ∧
      (l.foldl (fun s i => s.askCred (.slotBack i)) s).pol = s.pol ∧
      (l.foldl (fun s i => s.askCred (.slotBack i)) s).gate = s.gate ∧
      (l.foldl (fun s i => s.askCred (.slotBack i)) s).wipe = s.wipe ∧
      (l.foldl (fun s i => s.askCred (.slotBack i)) s).stat = s.stat := by
  induction l generalizing s with
  | nil => simp
  | cons x l ih => simp [ih]

@[simp] theorem State.loadCredentials_frame (s : State) (r : LoadReport) :
    (s.loadCredentials r).pending = s.pending ∧ (s.loadCredentials r).now = s.now ∧
      (s.loadCredentials r).draws = s.draws ∧ (s.loadCredentials r).notices = s.notices ∧
      (s.loadCredentials r).toBridge = s.toBridge ∧ (s.loadCredentials r).toBank = s.toBank ∧
      (s.loadCredentials r).pins = s.pins ∧ (s.loadCredentials r).sup = s.sup ∧ (s.loadCredentials r).grd = s.grd ∧
      (s.loadCredentials r).line = s.line ∧ (s.loadCredentials r).eng = s.eng ∧ (s.loadCredentials r).key = s.key ∧
      (s.loadCredentials r).tal = s.tal ∧ (s.loadCredentials r).pol = s.pol ∧ (s.loadCredentials r).gate = s.gate ∧
      (s.loadCredentials r).wipe = s.wipe ∧ (s.loadCredentials r).stat = s.stat := by
  simp only [State.loadCredentials]
  repeat' split
  all_goals first | rfl | (simp; done) | (simp_all; done)

@[simp] theorem State.loadTally_frame (s : State) (r : LoadReport) :
    (s.loadTally r).pending = s.pending ∧ (s.loadTally r).now = s.now ∧ (s.loadTally r).draws = s.draws ∧
      (s.loadTally r).notices = s.notices ∧ (s.loadTally r).toBridge = s.toBridge ∧
      (s.loadTally r).toBank = s.toBank ∧ (s.loadTally r).nv = s.nv ∧ (s.loadTally r).pins = s.pins ∧
      (s.loadTally r).sup = s.sup ∧ (s.loadTally r).grd = s.grd ∧ (s.loadTally r).line = s.line ∧
      (s.loadTally r).eng = s.eng ∧ (s.loadTally r).key = s.key ∧ (s.loadTally r).cred = s.cred ∧
      (s.loadTally r).pol = s.pol ∧ (s.loadTally r).gate = s.gate ∧ (s.loadTally r).wipe = s.wipe ∧
      (s.loadTally r).stat = s.stat := by
  simp only [State.loadTally]
  repeat' split
  all_goals first | rfl | (simp; done) | (simp_all; done)

@[simp] theorem State.loadPolicy_frame (s : State) (r : LoadReport) :
    (s.loadPolicy r).pending = s.pending ∧ (s.loadPolicy r).now = s.now ∧ (s.loadPolicy r).draws = s.draws ∧
      (s.loadPolicy r).notices = s.notices ∧ (s.loadPolicy r).toBridge = s.toBridge ∧
      (s.loadPolicy r).toBank = s.toBank ∧ (s.loadPolicy r).nv = s.nv ∧ (s.loadPolicy r).pins = s.pins ∧
      (s.loadPolicy r).sup = s.sup ∧ (s.loadPolicy r).grd = s.grd ∧ (s.loadPolicy r).line = s.line ∧
      (s.loadPolicy r).eng = s.eng ∧ (s.loadPolicy r).key = s.key ∧ (s.loadPolicy r).cred = s.cred ∧
      (s.loadPolicy r).tal = s.tal ∧ (s.loadPolicy r).gate = s.gate ∧ (s.loadPolicy r).wipe = s.wipe ∧
      (s.loadPolicy r).stat = s.stat := by
  simp only [State.loadPolicy]
  repeat' split
  all_goals first | rfl | (simp; done) | (simp_all; done)

@[simp] theorem State.loadMarks_frame (s : State) (r : LoadReport) :
    (s.loadMarks r).pending = s.pending ∧ (s.loadMarks r).now = s.now ∧ (s.loadMarks r).draws = s.draws ∧
      (s.loadMarks r).notices = s.notices ∧ (s.loadMarks r).toBridge = s.toBridge ∧
      (s.loadMarks r).toBank = s.toBank ∧ (s.loadMarks r).pins = s.pins ∧ (s.loadMarks r).sup = s.sup ∧
      (s.loadMarks r).grd = s.grd ∧ (s.loadMarks r).line = s.line ∧ (s.loadMarks r).eng = s.eng ∧
      (s.loadMarks r).key = s.key ∧ (s.loadMarks r).cred = s.cred ∧ (s.loadMarks r).tal = s.tal ∧
      (s.loadMarks r).pol = s.pol ∧ (s.loadMarks r).wipe = s.wipe ∧ (s.loadMarks r).stat = s.stat := by
  simp only [State.loadMarks]
  repeat' split
  all_goals first | rfl | (simp; done) | (simp_all; done)

@[simp] theorem State.loadJournal_frame (s : State) (r : LoadReport) :
    (s.loadJournal r).pending = s.pending ∧ (s.loadJournal r).now = s.now ∧ (s.loadJournal r).draws = s.draws ∧
      (s.loadJournal r).notices = s.notices ∧ (s.loadJournal r).toBridge = s.toBridge ∧
      (s.loadJournal r).toBank = s.toBank ∧ (s.loadJournal r).pins = s.pins ∧ (s.loadJournal r).sup = s.sup ∧
      (s.loadJournal r).grd = s.grd ∧ (s.loadJournal r).line = s.line ∧ (s.loadJournal r).eng = s.eng ∧
      (s.loadJournal r).key = s.key ∧ (s.loadJournal r).tal = s.tal ∧ (s.loadJournal r).pol = s.pol ∧
      (s.loadJournal r).gate = s.gate ∧ (s.loadJournal r).stat = s.stat := by
  simp only [State.loadJournal]
  repeat' split
  all_goals first | rfl | (simp; done) | (simp_all; done)

@[simp] theorem State.loadSerial_frame (s : State) (r : LoadReport) :
    (s.loadSerial r).pending = s.pending ∧ (s.loadSerial r).now = s.now ∧ (s.loadSerial r).draws = s.draws ∧
      (s.loadSerial r).notices = s.notices ∧ (s.loadSerial r).toBridge = s.toBridge ∧
      (s.loadSerial r).toBank = s.toBank ∧ (s.loadSerial r).nv = s.nv ∧ (s.loadSerial r).pins = s.pins ∧
      (s.loadSerial r).sup = s.sup ∧ (s.loadSerial r).grd = s.grd ∧ (s.loadSerial r).line = s.line ∧
      (s.loadSerial r).key = s.key ∧ (s.loadSerial r).cred = s.cred ∧ (s.loadSerial r).tal = s.tal ∧
      (s.loadSerial r).pol = s.pol ∧ (s.loadSerial r).gate = s.gate ∧ (s.loadSerial r).wipe = s.wipe ∧
      (s.loadSerial r).stat = s.stat := by
  simp only [State.loadSerial]
  repeat' split
  all_goals first | rfl | (simp; done) | (simp_all; done)

@[simp] theorem State.loaded_frame (s : State) (r : LoadReport) :
    (s.loaded r).pending = s.pending ∧ (s.loaded r).now = s.now ∧ (s.loaded r).draws = s.draws ∧
      (s.loaded r).notices = s.notices ∧ (s.loaded r).toBridge = s.toBridge ∧ (s.loaded r).toBank = s.toBank ∧
      (s.loaded r).pins = s.pins ∧ (s.loaded r).grd = s.grd := by
  simp only [State.loaded]
  repeat' split
  all_goals first | rfl | (simp; done) | (simp_all; done)

@[simp] theorem State.busFall_frame (s : State) :
    (s.busFall).pending = s.pending ∧ (s.busFall).now = s.now ∧ (s.busFall).draws = s.draws ∧
      (s.busFall).toBank = s.toBank ∧ (s.busFall).nv = s.nv ∧ (s.busFall).pins = s.pins ∧ (s.busFall).line = s.line ∧
      (s.busFall).tal = s.tal ∧ (s.busFall).pol = s.pol := by
  simp only [State.busFall]
  repeat' split
  all_goals first | rfl | (simp; done) | (simp_all; done)

@[simp] theorem State.busRise_frame (s : State) :
    (s.busRise).pending = s.pending ∧ (s.busRise).now = s.now ∧ (s.busRise).draws = s.draws ∧
      (s.busRise).toBank = s.toBank ∧ (s.busRise).nv = s.nv ∧ (s.busRise).pins = s.pins ∧ (s.busRise).line = s.line ∧
      (s.busRise).eng = s.eng ∧ (s.busRise).key = s.key ∧ (s.busRise).cred = s.cred ∧ (s.busRise).tal = s.tal ∧
      (s.busRise).pol = s.pol ∧ (s.busRise).stat = s.stat := by
  simp only [State.busRise]
  repeat' split
  all_goals first | rfl | (simp; done) | (simp_all; done)

@[simp] theorem State.warmedUp_frame (s : State) :
    (s.warmedUp).pending = s.pending ∧ (s.warmedUp).now = s.now ∧ (s.warmedUp).draws = s.draws ∧
      (s.warmedUp).notices = s.notices ∧ (s.warmedUp).toBridge = s.toBridge ∧ (s.warmedUp).toBank = s.toBank ∧
      (s.warmedUp).nv = s.nv ∧ (s.warmedUp).pins = s.pins ∧ (s.warmedUp).grd = s.grd ∧ (s.warmedUp).cred = s.cred ∧
      (s.warmedUp).tal = s.tal ∧ (s.warmedUp).pol = s.pol ∧ (s.warmedUp).gate = s.gate ∧ (s.warmedUp).wipe = s.wipe ∧
      (s.warmedUp).stat = s.stat := by
  simp only [State.warmedUp]
  repeat' split
  all_goals first | rfl | (simp; done) | (simp_all; done)

@[simp] theorem State.recognizePress_frame (s : State) (k : Key) :
    (s.recognizePress k).pending = s.pending ∧ (s.recognizePress k).now = s.now ∧
      (s.recognizePress k).toBank = s.toBank ∧ (s.recognizePress k).nv = s.nv ∧ (s.recognizePress k).pins = s.pins ∧
      (s.recognizePress k).line = s.line ∧ (s.recognizePress k).tal = s.tal ∧ (s.recognizePress k).wipe = s.wipe ∧
      (s.recognizePress k).stat = s.stat := by
  simp only [State.recognizePress]
  repeat' split
  all_goals first | rfl | (simp; done) | (simp_all; done)

@[simp] theorem State.recognizeRelease_frame (s : State) (k : Key) :
    (s.recognizeRelease k).pending = s.pending ∧ (s.recognizeRelease k).now = s.now ∧
      (s.recognizeRelease k).draws = s.draws ∧ (s.recognizeRelease k).notices = s.notices ∧
      (s.recognizeRelease k).toBridge = s.toBridge ∧ (s.recognizeRelease k).toBank = s.toBank ∧
      (s.recognizeRelease k).nv = s.nv ∧ (s.recognizeRelease k).pins = s.pins ∧ (s.recognizeRelease k).sup = s.sup ∧
      (s.recognizeRelease k).grd = s.grd ∧ (s.recognizeRelease k).line = s.line ∧
      (s.recognizeRelease k).eng = s.eng ∧ (s.recognizeRelease k).cred = s.cred ∧
      (s.recognizeRelease k).tal = s.tal ∧ (s.recognizeRelease k).pol = s.pol ∧
      (s.recognizeRelease k).gate = s.gate ∧ (s.recognizeRelease k).wipe = s.wipe ∧
      (s.recognizeRelease k).stat = s.stat := by
  simp only [State.recognizeRelease]
  repeat' split
  all_goals first | rfl | (simp; done) | (simp_all; done)

@[simp] theorem State.idleReached_frame (s : State) :
    (s.idleReached).pending = s.pending ∧ (s.idleReached).now = s.now ∧ (s.idleReached).draws = s.draws ∧
      (s.idleReached).notices = s.notices ∧ (s.idleReached).toBridge = s.toBridge ∧
      (s.idleReached).toBank = s.toBank ∧ (s.idleReached).nv = s.nv ∧ (s.idleReached).pins = s.pins ∧
      (s.idleReached).grd = s.grd ∧ (s.idleReached).eng = s.eng ∧ (s.idleReached).key = s.key ∧
      (s.idleReached).cred = s.cred ∧ (s.idleReached).tal = s.tal ∧ (s.idleReached).pol = s.pol ∧
      (s.idleReached).gate = s.gate ∧ (s.idleReached).wipe = s.wipe ∧ (s.idleReached).stat = s.stat := by
  simp only [State.idleReached]
  repeat' split
  all_goals first | rfl | (simp; done) | (simp_all; done)

@[simp] theorem State.lineStuck_frame (s : State) :
    (s.lineStuck).pending = s.pending ∧ (s.lineStuck).now = s.now ∧ (s.lineStuck).toBank = s.toBank ∧
      (s.lineStuck).pins = s.pins := by
  simp only [State.lineStuck]
  repeat' split
  all_goals first | rfl | (simp; done) | (simp_all; done)

@[simp] theorem State.owedEnded_frame (s : State) (made : Bool) :
    (s.owedEnded made).pending = s.pending ∧ (s.owedEnded made).now = s.now ∧ (s.owedEnded made).draws = s.draws ∧
      (s.owedEnded made).toBridge = s.toBridge ∧ (s.owedEnded made).toBank = s.toBank ∧
      (s.owedEnded made).pins = s.pins ∧ (s.owedEnded made).sup = s.sup ∧ (s.owedEnded made).grd = s.grd ∧
      (s.owedEnded made).line = s.line ∧ (s.owedEnded made).key = s.key ∧ (s.owedEnded made).cred = s.cred ∧
      (s.owedEnded made).pol = s.pol ∧ (s.owedEnded made).gate = s.gate ∧ (s.owedEnded made).wipe = s.wipe := by
  simp only [State.owedEnded]
  repeat' split
  all_goals first | rfl | (simp; done) | (simp_all; done)

@[simp] theorem State.flagsEnded_frame (s : State) (made : Bool) :
    (s.flagsEnded made).pending = s.pending ∧ (s.flagsEnded made).now = s.now ∧ (s.flagsEnded made).draws = s.draws ∧
      (s.flagsEnded made).toBridge = s.toBridge ∧ (s.flagsEnded made).toBank = s.toBank ∧
      (s.flagsEnded made).pins = s.pins ∧ (s.flagsEnded made).sup = s.sup ∧ (s.flagsEnded made).grd = s.grd ∧
      (s.flagsEnded made).line = s.line ∧ (s.flagsEnded made).key = s.key ∧ (s.flagsEnded made).cred = s.cred ∧
      (s.flagsEnded made).tal = s.tal ∧ (s.flagsEnded made).pol = s.pol ∧ (s.flagsEnded made).gate = s.gate ∧
      (s.flagsEnded made).wipe = s.wipe := by
  simp only [State.flagsEnded]
  repeat' split
  all_goals first | rfl | (simp; done) | (simp_all; done)

@[simp] theorem State.policyEnded_frame (s : State) (made : Bool) :
    (s.policyEnded made).pending = s.pending ∧ (s.policyEnded made).now = s.now ∧
      (s.policyEnded made).draws = s.draws ∧ (s.policyEnded made).toBridge = s.toBridge ∧
      (s.policyEnded made).toBank = s.toBank ∧ (s.policyEnded made).pins = s.pins ∧
      (s.policyEnded made).sup = s.sup ∧ (s.policyEnded made).grd = s.grd ∧ (s.policyEnded made).line = s.line ∧
      (s.policyEnded made).key = s.key ∧ (s.policyEnded made).cred = s.cred ∧ (s.policyEnded made).tal = s.tal ∧
      (s.policyEnded made).gate = s.gate ∧ (s.policyEnded made).wipe = s.wipe := by
  simp only [State.policyEnded]
  repeat' split
  all_goals first | rfl | (simp; done) | (simp_all; done)

@[simp] theorem State.present_frame (s : State) (r : BridgeRequest) :
    (s.present r).pending = s.pending ∧ (s.present r).now = s.now ∧ (s.present r).draws = s.draws ∧
      (s.present r).notices = s.notices ∧ (s.present r).toBridge = s.toBridge ∧ (s.present r).toBank = s.toBank ∧
      (s.present r).nv = s.nv ∧ (s.present r).pins = s.pins ∧ (s.present r).sup = s.sup ∧ (s.present r).grd = s.grd ∧
      (s.present r).line = s.line ∧ (s.present r).eng = s.eng ∧ (s.present r).key = s.key ∧
      (s.present r).cred = s.cred ∧ (s.present r).tal = s.tal ∧ (s.present r).pol = s.pol ∧
      (s.present r).wipe = s.wipe ∧ (s.present r).stat = s.stat := by
  simp only [State.present]
  repeat' split
  all_goals first | rfl | (simp; done) | (simp_all; done)

@[simp] theorem State.completeAccess_frame (s : State) (status : Nat) :
    (s.completeAccess status).pending = s.pending ∧ (s.completeAccess status).now = s.now ∧
      (s.completeAccess status).draws = s.draws ∧ (s.completeAccess status).toBank = s.toBank ∧
      (s.completeAccess status).nv = s.nv ∧ (s.completeAccess status).pins = s.pins ∧
      (s.completeAccess status).line = s.line ∧ (s.completeAccess status).tal = s.tal ∧
      (s.completeAccess status).pol = s.pol ∧ (s.completeAccess status).wipe = s.wipe ∧
      (s.completeAccess status).stat = s.stat := by
  simp only [State.completeAccess]
  repeat' split
  all_goals first | rfl | (simp; done) | (simp_all; done)

end Sys2Proof.Machine
end

