-- ==== Sys2Proof/Laws/InnerFrames.lean ====
section
/-! SUPPORT. Frames within a block: for each shared operation, the fields of the blocks it writes that it leaves alone. -/
set_option linter.all false
namespace Sys2Proof.Machine

@[simp] theorem Keypad.toIdle_keeps (k : Keypad) :
    k.toIdle.states = k.states ∧ k.toIdle.debounce = k.debounce ∧ k.toIdle.heldEntry = k.heldEntry ∧
      k.toIdle.heldChange = k.heldChange ∧ k.toIdle.setAside = k.setAside := by simp [Keypad.toIdle]

@[simp] theorem Keypad.stopDebounce_keeps (k : Keypad) (key : Key) :
    (k.stopDebounce key).states = k.states ∧ (k.stopDebounce key).mode = k.mode ∧
      (k.stopDebounce key).buffer = k.buffer ∧ (k.stopDebounce key).overlong = k.overlong ∧
      (k.stopDebounce key).firstCode = k.firstCode ∧ (k.stopDebounce key).target = k.target ∧
      (k.stopDebounce key).command = k.command ∧ (k.stopDebounce key).shiftFreed = k.shiftFreed ∧
      (k.stopDebounce key).entryTimer = k.entryTimer ∧ (k.stopDebounce key).resetTimer = k.resetTimer ∧
      (k.stopDebounce key).wipeWindow = k.wipeWindow ∧ (k.stopDebounce key).heldEntry = k.heldEntry ∧
      (k.stopDebounce key).heldChange = k.heldChange ∧ (k.stopDebounce key).setAside = k.setAside := by simp [Keypad.stopDebounce]

@[simp] theorem Gate.takeGuard_keeps (gt : Gate) (b a : GuardState) :
    (gt.takeGuard b a).fixedMarks = gt.fixedMarks ∧ (gt.takeGuard b a).markStore = gt.markStore ∧
      (gt.takeGuard b a).pendingMark = gt.pendingMark ∧ (gt.takeGuard b a).pmBusy = gt.pmBusy ∧
      (gt.takeGuard b a).pmWaiting = gt.pmWaiting ∧ (gt.takeGuard b a).staging = gt.staging ∧
      (gt.takeGuard b a).presented = gt.presented ∧ (gt.takeGuard b a).outstanding = gt.outstanding ∧
      (gt.takeGuard b a).portReady = gt.portReady ∧ (gt.takeGuard b a).eraseWaiting = gt.eraseWaiting ∧
      (gt.takeGuard b a).yieldCount = gt.yieldCount := by simp [Gate.takeGuard]

@[simp] theorem CredJob.inForce_keeps (j : CredJob) (c : Credentials) :
    (j.inForce c).plainKey = c.plainKey ∧ (j.inForce c).genKey = c.genKey ∧ (j.inForce c).busy = c.busy ∧
      (j.inForce c).waiting = c.waiting := by
  cases j <;> simp [CredJob.inForce, Credentials.destroyed]

@[simp] theorem CredJob.stored_keeps (j : CredJob) (nv : Nonvolatile) :
    (j.stored nv).tally = nv.tally ∧ (j.stored nv).holdOwed = nv.holdOwed ∧ (j.stored nv).policy = nv.policy ∧
      (j.stored nv).fixedMarks = nv.fixedMarks ∧ (j.stored nv).pendingMark = nv.pendingMark ∧
      (j.stored nv).journal = nv.journal ∧ (j.stored nv).flags = nv.flags ∧ (j.stored nv).serial = nv.serial := by
  cases j <;> simp [CredJob.stored]

@[simp] theorem State.setFlag_inner (s : State) (f : Flag) :
    (s.setFlag f).eng.queue = s.eng.queue ∧ (s.setFlag f).eng.absence = s.eng.absence ∧
      (s.setFlag f).eng.rollCount = s.eng.rollCount ∧ (s.setFlag f).eng.serial = s.eng.serial ∧
      (s.setFlag f).stat.fit = s.stat.fit := by
  simp only [State.setFlag]
  repeat' split
  all_goals first | rfl | (simp; done) | (simp_all; done)

@[simp] theorem State.clearFlags_inner (s : State) (named : FlagSet) :
    (s.clearFlags named).pol.table = s.pol.table ∧ (s.clearFlags named).pol.armed = s.pol.armed ∧
      (s.clearFlags named).pol.last = s.pol.last ∧ (s.clearFlags named).pol.memos = s.pol.memos ∧
      (s.clearFlags named).pol.timers = s.pol.timers ∧ (s.clearFlags named).stat.fit = s.stat.fit := by
  simp only [State.clearFlags]
  repeat' split
  all_goals first | rfl | (simp; done) | (simp_all; done)

@[simp] theorem State.post_inner (s : State) (k : RoundKind) (arg : Arg) :
    (s.post k arg).eng.round = s.eng.round ∧ (s.post k arg).eng.absence = s.eng.absence ∧
      (s.post k arg).eng.rollCount = s.eng.rollCount ∧ (s.post k arg).eng.serial = s.eng.serial := by
  simp only [State.post]
  repeat' split
  all_goals first | rfl | (simp; done) | (simp_all; done)

@[simp] theorem State.withdraw_inner (s : State) (k : RoundKind) :
    (s.withdraw k).eng.round = s.eng.round ∧ (s.withdraw k).eng.absence = s.eng.absence ∧
      (s.withdraw k).eng.rollCount = s.eng.rollCount ∧ (s.withdraw k).eng.serial = s.eng.serial := by
  simp only [State.withdraw]
  repeat' split
  all_goals first | rfl | (simp; done) | (simp_all; done)

@[simp] theorem State.unqueue_inner (s : State) (k : RoundKind) :
    (s.unqueue k).eng.round = s.eng.round ∧ (s.unqueue k).eng.absence = s.eng.absence ∧
      (s.unqueue k).eng.rollCount = s.eng.rollCount ∧ (s.unqueue k).eng.serial = s.eng.serial := by
  simp only [State.unqueue]
  repeat' split
  all_goals first | rfl | (simp; done) | (simp_all; done)

@[simp] theorem State.activityEvent_inner (s : State) :
    (s.activityEvent).sup.state = s.sup.state ∧ (s.activityEvent).sup.warmup = s.sup.warmup ∧
      (s.activityEvent).sup.stn = s.sup.stn ∧ (s.activityEvent).sup.roster = s.sup.roster ∧
      (s.activityEvent).sup.step = s.sup.step := by
  simp only [State.activityEvent]
  repeat' split
  all_goals first | rfl | (simp; done) | (simp_all; done)

@[simp] theorem State.stayAwake_inner (s : State) :
    (s.stayAwake).sup.state = s.sup.state ∧ (s.stayAwake).sup.warmup = s.sup.warmup ∧
      (s.stayAwake).sup.stn = s.sup.stn ∧ (s.stayAwake).sup.roster = s.sup.roster ∧
      (s.stayAwake).sup.step = s.sup.step := by
  simp only [State.stayAwake]
  repeat' split
  all_goals first | rfl | (simp; done) | (simp_all; done)

@[simp] theorem State.regate_inner (s : State) :
    (s.regate).gate.fixedMarks = s.gate.fixedMarks ∧ (s.regate).gate.markStore = s.gate.markStore ∧
      (s.regate).gate.pendingMark = s.gate.pendingMark ∧ (s.regate).gate.pmBusy = s.gate.pmBusy ∧
      (s.regate).gate.pmWaiting = s.gate.pmWaiting ∧ (s.regate).gate.session = s.gate.session ∧
      (s.regate).gate.staging = s.gate.staging ∧ (s.regate).gate.markLockOpen = s.gate.markLockOpen ∧
      (s.regate).gate.outstanding = s.gate.outstanding ∧ (s.regate).gate.portReady = s.gate.portReady ∧
      (s.regate).gate.eraseWaiting = s.gate.eraseWaiting ∧ (s.regate).gate.yieldCount = s.gate.yieldCount := by
  simp only [State.regate]
  repeat' split
  all_goals first | rfl | (simp; done) | (simp_all; done)

@[simp] theorem State.issueAccess_inner (s : State) (r : BridgeRequest) :
    (s.issueAccess r).gate.fixedMarks = s.gate.fixedMarks ∧ (s.issueAccess r).gate.markStore = s.gate.markStore ∧
      (s.issueAccess r).gate.pendingMark = s.gate.pendingMark ∧ (s.issueAccess r).gate.pmBusy = s.gate.pmBusy ∧
      (s.issueAccess r).gate.pmWaiting = s.gate.pmWaiting ∧ (s.issueAccess r).gate.session = s.gate.session ∧
      (s.issueAccess r).gate.staging = s.gate.staging ∧ (s.issueAccess r).gate.markLockOpen = s.gate.markLockOpen ∧
      (s.issueAccess r).gate.eraseWaiting = s.gate.eraseWaiting := by
  simp only [State.issueAccess]
  repeat' split
  all_goals first | rfl | (simp; done) | (simp_all; done)

@[simp] theorem State.issueErase_inner (s : State) (e : Nat) :
    (s.issueErase e).gate.fixedMarks = s.gate.fixedMarks ∧ (s.issueErase e).gate.markStore = s.gate.markStore ∧
      (s.issueErase e).gate.pendingMark = s.gate.pendingMark ∧ (s.issueErase e).gate.pmBusy = s.gate.pmBusy ∧
      (s.issueErase e).gate.pmWaiting = s.gate.pmWaiting ∧ (s.issueErase e).gate.session = s.gate.session ∧
      (s.issueErase e).gate.staging = s.gate.staging ∧ (s.issueErase e).gate.markLockOpen = s.gate.markLockOpen ∧
      (s.issueErase e).gate.presented = s.gate.presented ∧ (s.issueErase e).gate.outstanding = s.gate.outstanding ∧
      (s.issueErase e).wipe.journal = s.wipe.journal ∧ (s.issueErase e).wipe.busy = s.wipe.busy ∧
      (s.issueErase e).wipe.waiting = s.wipe.waiting ∧ (s.issueErase e).wipe.again = s.wipe.again ∧
      (s.issueErase e).wipe.orderPending = s.wipe.orderPending ∧
      (s.issueErase e).wipe.progressTimer = s.wipe.progressTimer := by
  simp only [State.issueErase]
  repeat' split
  all_goals first | rfl | (simp; done) | (simp_all; done)

@[simp] theorem State.grantPort_inner (s : State) :
    (s.grantPort).gate.fixedMarks = s.gate.fixedMarks ∧ (s.grantPort).gate.markStore = s.gate.markStore ∧
      (s.grantPort).gate.pendingMark = s.gate.pendingMark ∧ (s.grantPort).gate.pmBusy = s.gate.pmBusy ∧
      (s.grantPort).gate.pmWaiting = s.gate.pmWaiting ∧ (s.grantPort).gate.session = s.gate.session ∧
      (s.grantPort).gate.staging = s.gate.staging ∧ (s.grantPort).gate.markLockOpen = s.gate.markLockOpen ∧
      (s.grantPort).wipe.journal = s.wipe.journal ∧ (s.grantPort).wipe.busy = s.wipe.busy ∧
      (s.grantPort).wipe.waiting = s.wipe.waiting ∧ (s.grantPort).wipe.again = s.wipe.again ∧
      (s.grantPort).wipe.orderPending = s.wipe.orderPending ∧ (s.grantPort).wipe.progressTimer = s.wipe.progressTimer := by
  simp only [State.grantPort]
  repeat' split
  all_goals first | rfl | (simp; done) | (simp_all; done)

@[simp] theorem State.dropErase_inner (s : State) :
    (s.dropErase).gate.fixedMarks = s.gate.fixedMarks ∧ (s.dropErase).gate.markStore = s.gate.markStore ∧
      (s.dropErase).gate.pendingMark = s.gate.pendingMark ∧ (s.dropErase).gate.pmBusy = s.gate.pmBusy ∧
      (s.dropErase).gate.pmWaiting = s.gate.pmWaiting ∧ (s.dropErase).gate.session = s.gate.session ∧
      (s.dropErase).gate.staging = s.gate.staging ∧ (s.dropErase).gate.markLockOpen = s.gate.markLockOpen ∧
      (s.dropErase).gate.presented = s.gate.presented ∧ (s.dropErase).gate.outstanding = s.gate.outstanding ∧
      (s.dropErase).gate.portReady = s.gate.portReady := by
  simp only [State.dropErase]
  repeat' split
  all_goals first | rfl | (simp; done) | (simp_all; done)

@[simp] theorem State.keypadReset_inner (s : State) :
    (s.keypadReset).eng.round = s.eng.round ∧ (s.keypadReset).eng.absence = s.eng.absence ∧
      (s.keypadReset).eng.rollCount = s.eng.rollCount ∧ (s.keypadReset).eng.serial = s.eng.serial ∧
      (s.keypadReset).key.states = s.key.states ∧ (s.keypadReset).key.debounce = s.key.debounce ∧
      (s.keypadReset).key.setAside = s.key.setAside := by
  simp only [State.keypadReset]
  repeat' split
  all_goals first | rfl | (simp; done) | (simp_all; done)

@[simp] theorem State.setGuard_inner (s : State) (g : GuardState) :
    (s.setGuard g).gate.fixedMarks = s.gate.fixedMarks ∧ (s.setGuard g).gate.markStore = s.gate.markStore ∧
      (s.setGuard g).gate.pendingMark = s.gate.pendingMark ∧ (s.setGuard g).gate.pmBusy = s.gate.pmBusy ∧
      (s.setGuard g).gate.pmWaiting = s.gate.pmWaiting ∧ (s.setGuard g).gate.staging = s.gate.staging ∧
      (s.setGuard g).gate.outstanding = s.gate.outstanding ∧ (s.setGuard g).gate.portReady = s.gate.portReady ∧
      (s.setGuard g).gate.eraseWaiting = s.gate.eraseWaiting ∧ (s.setGuard g).gate.yieldCount = s.gate.yieldCount ∧
      (s.setGuard g).eng.round = s.eng.round ∧ (s.setGuard g).eng.absence = s.eng.absence ∧
      (s.setGuard g).eng.rollCount = s.eng.rollCount ∧ (s.setGuard g).eng.serial = s.eng.serial ∧
      (s.setGuard g).key.states = s.key.states ∧ (s.setGuard g).key.debounce = s.key.debounce ∧
      (s.setGuard g).key.setAside = s.key.setAside ∧ (s.setGuard g).sup.state = s.sup.state ∧
      (s.setGuard g).sup.warmup = s.sup.warmup ∧ (s.setGuard g).sup.stn = s.sup.stn ∧
      (s.setGuard g).sup.roster = s.sup.roster ∧ (s.setGuard g).sup.step = s.sup.step ∧
      (s.setGuard g).grd.matched = s.grd.matched ∧ (s.setGuard g).grd.mustChange = s.grd.mustChange ∧
      (s.setGuard g).grd.batteryTimer = s.grd.batteryTimer ∧ (s.setGuard g).grd.pulseTimer = s.grd.pulseTimer ∧
      (s.setGuard g).grd.holdDue = s.grd.holdDue := by
  simp only [State.setGuard]
  repeat' split
  all_goals first | rfl | (simp; done) | (simp_all; done)

@[simp] theorem State.endClosing_inner (s : State) :
    (s.endClosing).gate.fixedMarks = s.gate.fixedMarks ∧ (s.endClosing).gate.markStore = s.gate.markStore ∧
      (s.endClosing).gate.pendingMark = s.gate.pendingMark ∧ (s.endClosing).gate.pmBusy = s.gate.pmBusy ∧
      (s.endClosing).gate.pmWaiting = s.gate.pmWaiting ∧ (s.endClosing).gate.staging = s.gate.staging ∧
      (s.endClosing).gate.outstanding = s.gate.outstanding ∧ (s.endClosing).gate.portReady = s.gate.portReady ∧
      (s.endClosing).gate.eraseWaiting = s.gate.eraseWaiting ∧ (s.endClosing).gate.yieldCount = s.gate.yieldCount ∧
      (s.endClosing).eng.round = s.eng.round ∧ (s.endClosing).eng.absence = s.eng.absence ∧
      (s.endClosing).eng.rollCount = s.eng.rollCount ∧ (s.endClosing).eng.serial = s.eng.serial ∧
      (s.endClosing).key.states = s.key.states ∧ (s.endClosing).key.debounce = s.key.debounce ∧
      (s.endClosing).key.setAside = s.key.setAside ∧ (s.endClosing).cred.slots = s.cred.slots ∧
      (s.endClosing).cred.liveStamp = s.cred.liveStamp ∧ (s.endClosing).cred.pendingSlot = s.cred.pendingSlot ∧
      (s.endClosing).cred.genKey = s.cred.genKey ∧ (s.endClosing).cred.roundEntry = s.cred.roundEntry ∧
      (s.endClosing).cred.roundChange = s.cred.roundChange ∧ (s.endClosing).cred.busy = s.cred.busy ∧
      (s.endClosing).cred.waiting = s.cred.waiting ∧ (s.endClosing).sup.state = s.sup.state ∧
      (s.endClosing).sup.warmup = s.sup.warmup ∧ (s.endClosing).sup.stn = s.sup.stn ∧
      (s.endClosing).sup.roster = s.sup.roster ∧ (s.endClosing).sup.step = s.sup.step ∧
      (s.endClosing).grd.batteryTimer = s.grd.batteryTimer ∧ (s.endClosing).grd.pulseTimer = s.grd.pulseTimer ∧
      (s.endClosing).grd.holdDue = s.grd.holdDue := by
  simp only [State.endClosing]
  repeat' split
  all_goals first | rfl | (simp; done) | (simp_all; done)

@[simp] theorem State.drained_inner (s : State) :
    (s.drained).gate.fixedMarks = s.gate.fixedMarks ∧ (s.drained).gate.markStore = s.gate.markStore ∧
      (s.drained).gate.pendingMark = s.gate.pendingMark ∧ (s.drained).gate.pmBusy = s.gate.pmBusy ∧
      (s.drained).gate.pmWaiting = s.gate.pmWaiting ∧ (s.drained).gate.staging = s.gate.staging ∧
      (s.drained).gate.outstanding = s.gate.outstanding ∧ (s.drained).gate.portReady = s.gate.portReady ∧
      (s.drained).gate.eraseWaiting = s.gate.eraseWaiting ∧ (s.drained).gate.yieldCount = s.gate.yieldCount ∧
      (s.drained).eng.round = s.eng.round ∧ (s.drained).eng.absence = s.eng.absence ∧
      (s.drained).eng.rollCount = s.eng.rollCount ∧ (s.drained).eng.serial = s.eng.serial ∧
      (s.drained).key.states = s.key.states ∧ (s.drained).key.debounce = s.key.debounce ∧
      (s.drained).key.setAside = s.key.setAside ∧ (s.drained).cred.slots = s.cred.slots ∧
      (s.drained).cred.liveStamp = s.cred.liveStamp ∧ (s.drained).cred.pendingSlot = s.cred.pendingSlot ∧
      (s.drained).cred.genKey = s.cred.genKey ∧ (s.drained).cred.roundEntry = s.cred.roundEntry ∧
      (s.drained).cred.roundChange = s.cred.roundChange ∧ (s.drained).cred.busy = s.cred.busy ∧
      (s.drained).cred.waiting = s.cred.waiting ∧ (s.drained).sup.state = s.sup.state ∧
      (s.drained).sup.warmup = s.sup.warmup ∧ (s.drained).sup.stn = s.sup.stn ∧
      (s.drained).sup.roster = s.sup.roster ∧ (s.drained).sup.step = s.sup.step ∧
      (s.drained).grd.batteryTimer = s.grd.batteryTimer ∧ (s.drained).grd.pulseTimer = s.grd.pulseTimer ∧
      (s.drained).grd.holdDue = s.grd.holdDue := by
  simp only [State.drained]
  repeat' split
  all_goals first | rfl | (simp; done) | (simp_all; done)

@[simp] theorem State.lockLocally_inner (s : State) :
    (s.lockLocally).gate.fixedMarks = s.gate.fixedMarks ∧ (s.lockLocally).gate.markStore = s.gate.markStore ∧
      (s.lockLocally).gate.pendingMark = s.gate.pendingMark ∧ (s.lockLocally).gate.pmBusy = s.gate.pmBusy ∧
      (s.lockLocally).gate.pmWaiting = s.gate.pmWaiting ∧ (s.lockLocally).gate.staging = s.gate.staging ∧
      (s.lockLocally).gate.outstanding = s.gate.outstanding ∧ (s.lockLocally).gate.portReady = s.gate.portReady ∧
      (s.lockLocally).gate.eraseWaiting = s.gate.eraseWaiting ∧ (s.lockLocally).gate.yieldCount = s.gate.yieldCount ∧
      (s.lockLocally).eng.round = s.eng.round ∧ (s.lockLocally).eng.absence = s.eng.absence ∧
      (s.lockLocally).eng.rollCount = s.eng.rollCount ∧ (s.lockLocally).eng.serial = s.eng.serial ∧
      (s.lockLocally).key.states = s.key.states ∧ (s.lockLocally).key.debounce = s.key.debounce ∧
      (s.lockLocally).key.setAside = s.key.setAside ∧ (s.lockLocally).cred.slots = s.cred.slots ∧
      (s.lockLocally).cred.liveStamp = s.cred.liveStamp ∧ (s.lockLocally).cred.pendingSlot = s.cred.pendingSlot ∧
      (s.lockLocally).cred.genKey = s.cred.genKey ∧ (s.lockLocally).cred.roundEntry = s.cred.roundEntry ∧
      (s.lockLocally).cred.roundChange = s.cred.roundChange ∧ (s.lockLocally).cred.busy = s.cred.busy ∧
      (s.lockLocally).cred.waiting = s.cred.waiting ∧ (s.lockLocally).sup.state = s.sup.state ∧
      (s.lockLocally).sup.warmup = s.sup.warmup ∧ (s.lockLocally).sup.stn = s.sup.stn ∧
      (s.lockLocally).sup.roster = s.sup.roster ∧ (s.lockLocally).sup.step = s.sup.step ∧
      (s.lockLocally).grd.pulseTimer = s.grd.pulseTimer ∧ (s.lockLocally).grd.holdDue = s.grd.holdDue := by
  simp only [State.lockLocally]
  repeat' split
  all_goals first | rfl | (simp; done) | (simp_all; done)

@[simp] theorem State.lockForLine_inner (s : State) :
    (s.lockForLine).gate.fixedMarks = s.gate.fixedMarks ∧ (s.lockForLine).gate.markStore = s.gate.markStore ∧
      (s.lockForLine).gate.pendingMark = s.gate.pendingMark ∧ (s.lockForLine).gate.pmBusy = s.gate.pmBusy ∧
      (s.lockForLine).gate.pmWaiting = s.gate.pmWaiting ∧ (s.lockForLine).gate.staging = s.gate.staging ∧
      (s.lockForLine).gate.outstanding = s.gate.outstanding ∧ (s.lockForLine).gate.portReady = s.gate.portReady ∧
      (s.lockForLine).gate.eraseWaiting = s.gate.eraseWaiting ∧ (s.lockForLine).gate.yieldCount = s.gate.yieldCount ∧
      (s.lockForLine).eng.round = s.eng.round ∧ (s.lockForLine).eng.absence = s.eng.absence ∧
      (s.lockForLine).eng.rollCount = s.eng.rollCount ∧ (s.lockForLine).eng.serial = s.eng.serial ∧
      (s.lockForLine).key.states = s.key.states ∧ (s.lockForLine).key.debounce = s.key.debounce ∧
      (s.lockForLine).key.setAside = s.key.setAside ∧ (s.lockForLine).cred.slots = s.cred.slots ∧
      (s.lockForLine).cred.liveStamp = s.cred.liveStamp ∧ (s.lockForLine).cred.pendingSlot = s.cred.pendingSlot ∧
      (s.lockForLine).cred.genKey = s.cred.genKey ∧ (s.lockForLine).cred.roundEntry = s.cred.roundEntry ∧
      (s.lockForLine).cred.roundChange = s.cred.roundChange ∧ (s.lockForLine).cred.busy = s.cred.busy ∧
      (s.lockForLine).cred.waiting = s.cred.waiting ∧ (s.lockForLine).sup.state = s.sup.state ∧
      (s.lockForLine).sup.warmup = s.sup.warmup ∧ (s.lockForLine).sup.stn = s.sup.stn ∧
      (s.lockForLine).sup.roster = s.sup.roster ∧ (s.lockForLine).sup.step = s.sup.step ∧
      (s.lockForLine).grd.pulseTimer = s.grd.pulseTimer ∧ (s.lockForLine).grd.holdDue = s.grd.holdDue := by
  simp only [State.lockForLine]
  repeat' split
  all_goals first | rfl | (simp; done) | (simp_all; done)

@[simp] theorem State.openStation_inner (s : State) (slot : CodeSlotNo) (mustChange : Bool) (plain : Option BankKey) :
    (s.openStation slot mustChange plain).gate.fixedMarks = s.gate.fixedMarks ∧
      (s.openStation slot mustChange plain).gate.markStore = s.gate.markStore ∧
      (s.openStation slot mustChange plain).gate.pendingMark = s.gate.pendingMark ∧
      (s.openStation slot mustChange plain).gate.pmBusy = s.gate.pmBusy ∧
      (s.openStation slot mustChange plain).gate.pmWaiting = s.gate.pmWaiting ∧
      (s.openStation slot mustChange plain).gate.staging = s.gate.staging ∧
      (s.openStation slot mustChange plain).gate.outstanding = s.gate.outstanding ∧
      (s.openStation slot mustChange plain).gate.portReady = s.gate.portReady ∧
      (s.openStation slot mustChange plain).gate.eraseWaiting = s.gate.eraseWaiting ∧
      (s.openStation slot mustChange plain).gate.yieldCount = s.gate.yieldCount ∧
      (s.openStation slot mustChange plain).eng.round = s.eng.round ∧
      (s.openStation slot mustChange plain).eng.absence = s.eng.absence ∧
      (s.openStation slot mustChange plain).eng.rollCount = s.eng.rollCount ∧
      (s.openStation slot mustChange plain).eng.serial = s.eng.serial ∧
      (s.openStation slot mustChange plain).key.states = s.key.states ∧
      (s.openStation slot mustChange plain).key.debounce = s.key.debounce ∧
      (s.openStation slot mustChange plain).key.setAside = s.key.setAside ∧
      (s.openStation slot mustChange plain).cred.slots = s.cred.slots ∧
      (s.openStation slot mustChange plain).cred.liveStamp = s.cred.liveStamp ∧
      (s.openStation slot mustChange plain).cred.pendingSlot = s.cred.pendingSlot ∧
      (s.openStation slot mustChange plain).cred.genKey = s.cred.genKey ∧
      (s.openStation slot mustChange plain).cred.roundEntry = s.cred.roundEntry ∧
      (s.openStation slot mustChange plain).cred.roundChange = s.cred.roundChange ∧
      (s.openStation slot mustChange plain).cred.busy = s.cred.busy ∧
      (s.openStation slot mustChange plain).cred.waiting = s.cred.waiting ∧
      (s.openStation slot mustChange plain).sup.state = s.sup.state ∧
      (s.openStation slot mustChange plain).sup.warmup = s.sup.warmup ∧
      (s.openStation slot mustChange plain).sup.stn = s.sup.stn ∧
      (s.openStation slot mustChange plain).sup.roster = s.sup.roster ∧
      (s.openStation slot mustChange plain).sup.step = s.sup.step ∧
      (s.openStation slot mustChange plain).grd.pulseTimer = s.grd.pulseTimer ∧
      (s.openStation slot mustChange plain).grd.holdDue = s.grd.holdDue := by
  simp only [State.openStation]
  repeat' split
  all_goals first | rfl | (simp; done) | (simp_all; done)

@[simp] theorem State.pulse_inner (s : State) (seconds : Nat) :
    (s.pulse seconds).grd.state = s.grd.state ∧ (s.pulse seconds).grd.matched = s.grd.matched ∧
      (s.pulse seconds).grd.mustChange = s.grd.mustChange ∧ (s.pulse seconds).grd.batteryTimer = s.grd.batteryTimer ∧
      (s.pulse seconds).grd.holdDue = s.grd.holdDue := by
  simp only [State.pulse]
  repeat' split
  all_goals first | rfl | (simp; done) | (simp_all; done)

@[simp] theorem State.setOwed_inner (s : State) (seconds : Nat) :
    (s.setOwed seconds).tal.tally = s.tal.tally ∧ (s.setOwed seconds).tal.tallyStore = s.tal.tallyStore ∧
      (s.setOwed seconds).tal.deadline = s.tal.deadline := by
  simp only [State.setOwed]
  repeat' split
  all_goals first | rfl | (simp; done) | (simp_all; done)

@[simp] theorem State.clearHold_inner (s : State) :
    (s.clearHold).tal.tally = s.tal.tally ∧ (s.clearHold).tal.tallyStore = s.tal.tallyStore := by
  simp only [State.clearHold]
  repeat' split
  all_goals first | rfl | (simp; done) | (simp_all; done)

@[simp] theorem State.takeDeadline_inner (s : State) :
    (s.takeDeadline).gate.fixedMarks = s.gate.fixedMarks ∧ (s.takeDeadline).gate.markStore = s.gate.markStore ∧
      (s.takeDeadline).gate.pendingMark = s.gate.pendingMark ∧ (s.takeDeadline).gate.pmBusy = s.gate.pmBusy ∧
      (s.takeDeadline).gate.pmWaiting = s.gate.pmWaiting ∧ (s.takeDeadline).gate.staging = s.gate.staging ∧
      (s.takeDeadline).gate.outstanding = s.gate.outstanding ∧ (s.takeDeadline).gate.portReady = s.gate.portReady ∧
      (s.takeDeadline).gate.eraseWaiting = s.gate.eraseWaiting ∧
      (s.takeDeadline).gate.yieldCount = s.gate.yieldCount ∧ (s.takeDeadline).eng.round = s.eng.round ∧
      (s.takeDeadline).eng.absence = s.eng.absence ∧ (s.takeDeadline).eng.rollCount = s.eng.rollCount ∧
      (s.takeDeadline).eng.serial = s.eng.serial ∧ (s.takeDeadline).key.states = s.key.states ∧
      (s.takeDeadline).key.debounce = s.key.debounce ∧ (s.takeDeadline).key.setAside = s.key.setAside ∧
      (s.takeDeadline).sup.state = s.sup.state ∧ (s.takeDeadline).sup.warmup = s.sup.warmup ∧
      (s.takeDeadline).sup.stn = s.sup.stn ∧ (s.takeDeadline).sup.roster = s.sup.roster ∧
      (s.takeDeadline).sup.step = s.sup.step ∧ (s.takeDeadline).grd.matched = s.grd.matched ∧
      (s.takeDeadline).grd.mustChange = s.grd.mustChange ∧ (s.takeDeadline).grd.batteryTimer = s.grd.batteryTimer ∧
      (s.takeDeadline).grd.pulseTimer = s.grd.pulseTimer ∧ (s.takeDeadline).grd.holdDue = s.grd.holdDue := by
  simp only [State.takeDeadline]
  repeat' split
  all_goals first | rfl | (simp; done) | (simp_all; done)

@[simp] theorem State.moveDeadline_inner (s : State) (deadline : Nat) (seconds : Nat) :
    (s.moveDeadline deadline seconds).gate.fixedMarks = s.gate.fixedMarks ∧
      (s.moveDeadline deadline seconds).gate.markStore = s.gate.markStore ∧
      (s.moveDeadline deadline seconds).gate.pendingMark = s.gate.pendingMark ∧
      (s.moveDeadline deadline seconds).gate.pmBusy = s.gate.pmBusy ∧
      (s.moveDeadline deadline seconds).gate.pmWaiting = s.gate.pmWaiting ∧
      (s.moveDeadline deadline seconds).gate.staging = s.gate.staging ∧
      (s.moveDeadline deadline seconds).gate.outstanding = s.gate.outstanding ∧
      (s.moveDeadline deadline seconds).gate.portReady = s.gate.portReady ∧
      (s.moveDeadline deadline seconds).gate.eraseWaiting = s.gate.eraseWaiting ∧
      (s.moveDeadline deadline seconds).gate.yieldCount = s.gate.yieldCount ∧
      (s.moveDeadline deadline seconds).eng.round = s.eng.round ∧
      (s.moveDeadline deadline seconds).eng.absence = s.eng.absence ∧
      (s.moveDeadline deadline seconds).eng.rollCount = s.eng.rollCount ∧
      (s.moveDeadline deadline seconds).eng.serial = s.eng.serial ∧
      (s.moveDeadline deadline seconds).key.states = s.key.states ∧
      (s.moveDeadline deadline seconds).key.debounce = s.key.debounce ∧
      (s.moveDeadline deadline seconds).key.setAside = s.key.setAside ∧
      (s.moveDeadline deadline seconds).tal.tally = s.tal.tally ∧
      (s.moveDeadline deadline seconds).tal.tallyStore = s.tal.tallyStore ∧
      (s.moveDeadline deadline seconds).sup.state = s.sup.state ∧
      (s.moveDeadline deadline seconds).sup.warmup = s.sup.warmup ∧
      (s.moveDeadline deadline seconds).sup.stn = s.sup.stn ∧
      (s.moveDeadline deadline seconds).sup.roster = s.sup.roster ∧
      (s.moveDeadline deadline seconds).sup.step = s.sup.step ∧
      (s.moveDeadline deadline seconds).grd.matched = s.grd.matched ∧
      (s.moveDeadline deadline seconds).grd.mustChange = s.grd.mustChange ∧
      (s.moveDeadline deadline seconds).grd.batteryTimer = s.grd.batteryTimer ∧
      (s.moveDeadline deadline seconds).grd.pulseTimer = s.grd.pulseTimer := by
  simp only [State.moveDeadline]
  repeat' split
  all_goals first | rfl | (simp; done) | (simp_all; done)

@[simp] theorem State.holdRequest_inner (s : State) (seconds : Nat) :
    (s.holdRequest seconds).gate.fixedMarks = s.gate.fixedMarks ∧
      (s.holdRequest seconds).gate.markStore = s.gate.markStore ∧
      (s.holdRequest seconds).gate.pendingMark = s.gate.pendingMark ∧
      (s.holdRequest seconds).gate.pmBusy = s.gate.pmBusy ∧
      (s.holdRequest seconds).gate.pmWaiting = s.gate.pmWaiting ∧
      (s.holdRequest seconds).gate.staging = s.gate.staging ∧
      (s.holdRequest seconds).gate.outstanding = s.gate.outstanding ∧
      (s.holdRequest seconds).gate.portReady = s.gate.portReady ∧
      (s.holdRequest seconds).gate.eraseWaiting = s.gate.eraseWaiting ∧
      (s.holdRequest seconds).gate.yieldCount = s.gate.yieldCount ∧ (s.holdRequest seconds).eng.round = s.eng.round ∧
      (s.holdRequest seconds).eng.absence = s.eng.absence ∧ (s.holdRequest seconds).eng.rollCount = s.eng.rollCount ∧
      (s.holdRequest seconds).eng.serial = s.eng.serial ∧ (s.holdRequest seconds).key.states = s.key.states ∧
      (s.holdRequest seconds).key.debounce = s.key.debounce ∧ (s.holdRequest seconds).key.setAside = s.key.setAside ∧
      (s.holdRequest seconds).tal.tally = s.tal.tally ∧ (s.holdRequest seconds).tal.tallyStore = s.tal.tallyStore ∧
      (s.holdRequest seconds).sup.state = s.sup.state ∧ (s.holdRequest seconds).sup.warmup = s.sup.warmup ∧
      (s.holdRequest seconds).sup.stn = s.sup.stn ∧ (s.holdRequest seconds).sup.roster = s.sup.roster ∧
      (s.holdRequest seconds).sup.step = s.sup.step ∧ (s.holdRequest seconds).grd.matched = s.grd.matched ∧
      (s.holdRequest seconds).grd.mustChange = s.grd.mustChange ∧
      (s.holdRequest seconds).grd.batteryTimer = s.grd.batteryTimer ∧
      (s.holdRequest seconds).grd.pulseTimer = s.grd.pulseTimer := by
  simp only [State.holdRequest]
  repeat' split
  all_goals first | rfl | (simp; done) | (simp_all; done)

@[simp] theorem State.takeGap_inner (s : State) :
    (s.takeGap).gate.fixedMarks = s.gate.fixedMarks ∧ (s.takeGap).gate.markStore = s.gate.markStore ∧
      (s.takeGap).gate.pendingMark = s.gate.pendingMark ∧ (s.takeGap).gate.pmBusy = s.gate.pmBusy ∧
      (s.takeGap).gate.pmWaiting = s.gate.pmWaiting ∧ (s.takeGap).gate.staging = s.gate.staging ∧
      (s.takeGap).gate.outstanding = s.gate.outstanding ∧ (s.takeGap).gate.portReady = s.gate.portReady ∧
      (s.takeGap).gate.eraseWaiting = s.gate.eraseWaiting ∧ (s.takeGap).gate.yieldCount = s.gate.yieldCount ∧
      (s.takeGap).eng.round = s.eng.round ∧ (s.takeGap).eng.absence = s.eng.absence ∧
      (s.takeGap).eng.rollCount = s.eng.rollCount ∧ (s.takeGap).eng.serial = s.eng.serial ∧
      (s.takeGap).key.states = s.key.states ∧ (s.takeGap).key.debounce = s.key.debounce ∧
      (s.takeGap).key.setAside = s.key.setAside ∧ (s.takeGap).tal.tally = s.tal.tally ∧
      (s.takeGap).tal.tallyStore = s.tal.tallyStore ∧ (s.takeGap).sup.state = s.sup.state ∧
      (s.takeGap).sup.warmup = s.sup.warmup ∧ (s.takeGap).sup.stn = s.sup.stn ∧
      (s.takeGap).sup.roster = s.sup.roster ∧ (s.takeGap).sup.step = s.sup.step ∧
      (s.takeGap).grd.matched = s.grd.matched ∧ (s.takeGap).grd.mustChange = s.grd.mustChange ∧
      (s.takeGap).grd.batteryTimer = s.grd.batteryTimer ∧ (s.takeGap).grd.pulseTimer = s.grd.pulseTimer := by
  simp only [State.takeGap]
  repeat' split
  all_goals first | rfl | (simp; done) | (simp_all; done)

@[simp] theorem State.takeDueDeadline_inner (s : State) :
    (s.takeDueDeadline).gate.fixedMarks = s.gate.fixedMarks ∧ (s.takeDueDeadline).gate.markStore = s.gate.markStore ∧
      (s.takeDueDeadline).gate.pendingMark = s.gate.pendingMark ∧ (s.takeDueDeadline).gate.pmBusy = s.gate.pmBusy ∧
      (s.takeDueDeadline).gate.pmWaiting = s.gate.pmWaiting ∧ (s.takeDueDeadline).gate.staging = s.gate.staging ∧
      (s.takeDueDeadline).gate.outstanding = s.gate.outstanding ∧
      (s.takeDueDeadline).gate.portReady = s.gate.portReady ∧
      (s.takeDueDeadline).gate.eraseWaiting = s.gate.eraseWaiting ∧
      (s.takeDueDeadline).gate.yieldCount = s.gate.yieldCount ∧ (s.takeDueDeadline).eng.round = s.eng.round ∧
      (s.takeDueDeadline).eng.absence = s.eng.absence ∧ (s.takeDueDeadline).eng.rollCount = s.eng.rollCount ∧
      (s.takeDueDeadline).eng.serial = s.eng.serial ∧ (s.takeDueDeadline).key.states = s.key.states ∧
      (s.takeDueDeadline).key.debounce = s.key.debounce ∧ (s.takeDueDeadline).key.setAside = s.key.setAside ∧
      (s.takeDueDeadline).sup.state = s.sup.state ∧ (s.takeDueDeadline).sup.warmup = s.sup.warmup ∧
      (s.takeDueDeadline).sup.stn = s.sup.stn ∧ (s.takeDueDeadline).sup.roster = s.sup.roster ∧
      (s.takeDueDeadline).sup.step = s.sup.step ∧ (s.takeDueDeadline).grd.matched = s.grd.matched ∧
      (s.takeDueDeadline).grd.mustChange = s.grd.mustChange ∧
      (s.takeDueDeadline).grd.batteryTimer = s.grd.batteryTimer ∧
      (s.takeDueDeadline).grd.pulseTimer = s.grd.pulseTimer := by
  simp only [State.takeDueDeadline]
  repeat' split
  all_goals first | rfl | (simp; done) | (simp_all; done)

@[simp] theorem State.setTally_inner (s : State) (v : Nat) :
    (s.setTally v).tal.deadline = s.tal.deadline ∧ (s.setTally v).tal.holdOwed = s.tal.holdOwed ∧
      (s.setTally v).tal.owedStore = s.tal.owedStore := by
  simp only [State.setTally]
  repeat' split
  all_goals first | rfl | (simp; done) | (simp_all; done)

@[simp] theorem State.enterWiping_inner (s : State) :
    (s.enterWiping).gate.fixedMarks = s.gate.fixedMarks ∧ (s.enterWiping).gate.markStore = s.gate.markStore ∧
      (s.enterWiping).gate.pendingMark = s.gate.pendingMark ∧ (s.enterWiping).gate.pmBusy = s.gate.pmBusy ∧
      (s.enterWiping).gate.pmWaiting = s.gate.pmWaiting ∧ (s.enterWiping).gate.staging = s.gate.staging ∧
      (s.enterWiping).gate.outstanding = s.gate.outstanding ∧ (s.enterWiping).gate.portReady = s.gate.portReady ∧
      (s.enterWiping).gate.eraseWaiting = s.gate.eraseWaiting ∧ (s.enterWiping).gate.yieldCount = s.gate.yieldCount ∧
      (s.enterWiping).eng.round = s.eng.round ∧ (s.enterWiping).eng.absence = s.eng.absence ∧
      (s.enterWiping).eng.rollCount = s.eng.rollCount ∧ (s.enterWiping).eng.serial = s.eng.serial ∧
      (s.enterWiping).key.states = s.key.states ∧ (s.enterWiping).key.debounce = s.key.debounce ∧
      (s.enterWiping).key.setAside = s.key.setAside ∧ (s.enterWiping).cred.slots = s.cred.slots ∧
      (s.enterWiping).cred.liveStamp = s.cred.liveStamp ∧ (s.enterWiping).cred.pendingSlot = s.cred.pendingSlot ∧
      (s.enterWiping).cred.roundEntry = s.cred.roundEntry ∧ (s.enterWiping).cred.roundChange = s.cred.roundChange ∧
      (s.enterWiping).cred.busy = s.cred.busy ∧ (s.enterWiping).cred.waiting = s.cred.waiting ∧
      (s.enterWiping).tal.tally = s.tal.tally ∧ (s.enterWiping).tal.tallyStore = s.tal.tallyStore ∧
      (s.enterWiping).sup.state = s.sup.state ∧ (s.enterWiping).sup.warmup = s.sup.warmup ∧
      (s.enterWiping).sup.stn = s.sup.stn ∧ (s.enterWiping).sup.roster = s.sup.roster ∧
      (s.enterWiping).sup.step = s.sup.step ∧ (s.enterWiping).grd.pulseTimer = s.grd.pulseTimer ∧
      (s.enterWiping).grd.holdDue = s.grd.holdDue := by
  simp only [State.enterWiping]
  repeat' split
  all_goals first | rfl | (simp; done) | (simp_all; done)

@[simp] theorem State.enterStrapFault_inner (s : State) :
    (s.enterStrapFault).gate.fixedMarks = s.gate.fixedMarks ∧ (s.enterStrapFault).gate.markStore = s.gate.markStore ∧
      (s.enterStrapFault).gate.pendingMark = s.gate.pendingMark ∧ (s.enterStrapFault).gate.pmBusy = s.gate.pmBusy ∧
      (s.enterStrapFault).gate.pmWaiting = s.gate.pmWaiting ∧ (s.enterStrapFault).eng.absence = s.eng.absence ∧
      (s.enterStrapFault).eng.rollCount = s.eng.rollCount ∧ (s.enterStrapFault).eng.serial = s.eng.serial ∧
      (s.enterStrapFault).key.states = s.key.states ∧ (s.enterStrapFault).key.debounce = s.key.debounce ∧
      (s.enterStrapFault).cred.slots = s.cred.slots ∧ (s.enterStrapFault).cred.liveStamp = s.cred.liveStamp ∧
      (s.enterStrapFault).cred.pendingSlot = s.cred.pendingSlot ∧ (s.enterStrapFault).cred.busy = s.cred.busy ∧
      (s.enterStrapFault).cred.waiting = s.cred.waiting ∧ (s.enterStrapFault).pol.table = s.pol.table ∧
      (s.enterStrapFault).pol.store = s.pol.store ∧ (s.enterStrapFault).pol.last = s.pol.last ∧
      (s.enterStrapFault).pol.memos = s.pol.memos ∧ (s.enterStrapFault).pol.latch = s.pol.latch ∧
      (s.enterStrapFault).sup.state = s.sup.state ∧ (s.enterStrapFault).sup.warmup = s.sup.warmup ∧
      (s.enterStrapFault).sup.stn = s.sup.stn ∧ (s.enterStrapFault).sup.roster = s.sup.roster ∧
      (s.enterStrapFault).sup.step = s.sup.step ∧ (s.enterStrapFault).wipe.journal = s.wipe.journal ∧
      (s.enterStrapFault).wipe.busy = s.wipe.busy ∧ (s.enterStrapFault).wipe.waiting = s.wipe.waiting ∧
      (s.enterStrapFault).wipe.again = s.wipe.again ∧ (s.enterStrapFault).wipe.orderPending = s.wipe.orderPending ∧
      (s.enterStrapFault).stat.flags = s.stat.flags ∧ (s.enterStrapFault).stat.reported = s.stat.reported ∧
      (s.enterStrapFault).stat.store = s.stat.store := by
  simp only [State.enterStrapFault]
  repeat' split
  all_goals first | rfl | (simp; done) | (simp_all; done)

@[simp] theorem State.runAction_inner (s : State) (e : EntryNo) :
    (s.runAction e).gate.fixedMarks = s.gate.fixedMarks ∧ (s.runAction e).gate.markStore = s.gate.markStore ∧
      (s.runAction e).gate.pendingMark = s.gate.pendingMark ∧ (s.runAction e).gate.pmBusy = s.gate.pmBusy ∧
      (s.runAction e).gate.pmWaiting = s.gate.pmWaiting ∧ (s.runAction e).gate.staging = s.gate.staging ∧
      (s.runAction e).gate.outstanding = s.gate.outstanding ∧ (s.runAction e).gate.portReady = s.gate.portReady ∧
      (s.runAction e).gate.eraseWaiting = s.gate.eraseWaiting ∧ (s.runAction e).gate.yieldCount = s.gate.yieldCount ∧
      (s.runAction e).eng.round = s.eng.round ∧ (s.runAction e).eng.absence = s.eng.absence ∧
      (s.runAction e).eng.rollCount = s.eng.rollCount ∧ (s.runAction e).eng.serial = s.eng.serial ∧
      (s.runAction e).key.states = s.key.states ∧ (s.runAction e).key.debounce = s.key.debounce ∧
      (s.runAction e).key.setAside = s.key.setAside ∧ (s.runAction e).cred.slots = s.cred.slots ∧
      (s.runAction e).cred.liveStamp = s.cred.liveStamp ∧ (s.runAction e).cred.pendingSlot = s.cred.pendingSlot ∧
      (s.runAction e).cred.genKey = s.cred.genKey ∧ (s.runAction e).cred.roundEntry = s.cred.roundEntry ∧
      (s.runAction e).cred.roundChange = s.cred.roundChange ∧ (s.runAction e).cred.busy = s.cred.busy ∧
      (s.runAction e).cred.waiting = s.cred.waiting ∧ (s.runAction e).tal.tally = s.tal.tally ∧
      (s.runAction e).tal.tallyStore = s.tal.tallyStore ∧ (s.runAction e).pol.table = s.pol.table ∧
      (s.runAction e).pol.store = s.pol.store ∧ (s.runAction e).pol.armed = s.pol.armed ∧
      (s.runAction e).pol.last = s.pol.last ∧ (s.runAction e).pol.latch = s.pol.latch ∧
      (s.runAction e).sup.state = s.sup.state ∧ (s.runAction e).sup.warmup = s.sup.warmup ∧
      (s.runAction e).sup.stn = s.sup.stn ∧ (s.runAction e).sup.roster = s.sup.roster ∧
      (s.runAction e).sup.step = s.sup.step := by
  simp only [State.runAction]
  repeat' split
  all_goals first | rfl | (simp; done) | (simp_all; done)

@[simp] theorem State.disarm_inner (s : State) (set : BitVec 8) :
    (s.disarm set).pol.table = s.pol.table ∧ (s.disarm set).pol.store = s.pol.store ∧
      (s.disarm set).pol.last = s.pol.last ∧ (s.disarm set).pol.memos = s.pol.memos ∧
      (s.disarm set).pol.timers = s.pol.timers ∧ (s.disarm set).pol.latch = s.pol.latch := by
  simp only [State.disarm]
  repeat' split
  all_goals first | rfl | (simp; done) | (simp_all; done)

@[simp] theorem foldl_runAction_inner (l : List EntryNo) (s : State) :
    (l.foldl State.runAction s).gate.fixedMarks = s.gate.fixedMarks ∧
      (l.foldl State.runAction s).gate.markStore = s.gate.markStore ∧
      (l.foldl State.runAction s).gate.pendingMark = s.gate.pendingMark ∧
      (l.foldl State.runAction s).gate.pmBusy = s.gate.pmBusy ∧
      (l.foldl State.runAction s).gate.pmWaiting = s.gate.pmWaiting ∧
      (l.foldl State.runAction s).gate.staging = s.gate.staging ∧
      (l.foldl State.runAction s).gate.outstanding = s.gate.outstanding ∧
      (l.foldl State.runAction s).gate.portReady = s.gate.portReady ∧
      (l.foldl State.runAction s).gate.eraseWaiting = s.gate.eraseWaiting ∧
      (l.foldl State.runAction s).gate.yieldCount = s.gate.yieldCount ∧
      (l.foldl State.runAction s).eng.round = s.eng.round ∧ (l.foldl State.runAction s).eng.absence = s.eng.absence ∧
      (l.foldl State.runAction s).eng.rollCount = s.eng.rollCount ∧
      (l.foldl State.runAction s).eng.serial = s.eng.serial ∧ (l.foldl State.runAction s).key.states = s.key.states ∧
      (l.foldl State.runAction s).key.debounce = s.key.debounce ∧
      (l.foldl State.runAction s).key.setAside = s.key.setAside ∧
      (l.foldl State.runAction s).cred.slots = s.cred.slots ∧
      (l.foldl State.runAction s).cred.liveStamp = s.cred.liveStamp ∧
      (l.foldl State.runAction s).cred.pendingSlot = s.cred.pendingSlot ∧
      (l.foldl State.runAction s).cred.genKey = s.cred.genKey ∧
      (l.foldl State.runAction s).cred.roundEntry = s.cred.roundEntry ∧
      (l.foldl State.runAction s).cred.roundChange = s.cred.roundChange ∧
      (l.foldl State.runAction s).cred.busy = s.cred.busy ∧
      (l.foldl State.runAction s).cred.waiting = s.cred.waiting ∧
      (l.foldl State.runAction s).tal.tally = s.tal.tally ∧
      (l.foldl State.runAction s).tal.tallyStore = s.tal.tallyStore ∧
      (l.foldl State.runAction s).pol.table = s.pol.table ∧ (l.foldl State.runAction s).pol.store = s.pol.store ∧
      (l.foldl State.runAction s).pol.armed = s.pol.armed ∧ (l.foldl State.runAction s).pol.last = s.pol.last ∧
      (l.foldl State.runAction s).pol.latch = s.pol.latch ∧ (l.foldl State.runAction s).sup.state = s.sup.state ∧
      (l.foldl State.runAction s).sup.warmup = s.sup.warmup ∧ (l.foldl State.runAction s).sup.stn = s.sup.stn ∧
      (l.foldl State.runAction s).sup.roster = s.sup.roster ∧ (l.foldl State.runAction s).sup.step = s.sup.step := by
  induction l generalizing s with
  | nil => simp
  | cons x l ih => simp [ih]

@[simp] theorem State.fire_inner (s : State) (e : EntryNo) :
    (s.fire e).gate.fixedMarks = s.gate.fixedMarks ∧ (s.fire e).gate.markStore = s.gate.markStore ∧
      (s.fire e).gate.pendingMark = s.gate.pendingMark ∧ (s.fire e).gate.pmBusy = s.gate.pmBusy ∧
      (s.fire e).gate.pmWaiting = s.gate.pmWaiting ∧ (s.fire e).gate.staging = s.gate.staging ∧
      (s.fire e).gate.outstanding = s.gate.outstanding ∧ (s.fire e).gate.portReady = s.gate.portReady ∧
      (s.fire e).gate.eraseWaiting = s.gate.eraseWaiting ∧ (s.fire e).gate.yieldCount = s.gate.yieldCount ∧
      (s.fire e).eng.round = s.eng.round ∧ (s.fire e).eng.absence = s.eng.absence ∧
      (s.fire e).eng.rollCount = s.eng.rollCount ∧ (s.fire e).eng.serial = s.eng.serial ∧
      (s.fire e).key.states = s.key.states ∧ (s.fire e).key.debounce = s.key.debounce ∧
      (s.fire e).key.setAside = s.key.setAside ∧ (s.fire e).cred.slots = s.cred.slots ∧
      (s.fire e).cred.liveStamp = s.cred.liveStamp ∧ (s.fire e).cred.pendingSlot = s.cred.pendingSlot ∧
      (s.fire e).cred.genKey = s.cred.genKey ∧ (s.fire e).cred.roundEntry = s.cred.roundEntry ∧
      (s.fire e).cred.roundChange = s.cred.roundChange ∧ (s.fire e).cred.busy = s.cred.busy ∧
      (s.fire e).cred.waiting = s.cred.waiting ∧ (s.fire e).tal.tally = s.tal.tally ∧
      (s.fire e).tal.tallyStore = s.tal.tallyStore ∧ (s.fire e).pol.table = s.pol.table ∧
      (s.fire e).pol.store = s.pol.store ∧ (s.fire e).pol.last = s.pol.last ∧ (s.fire e).pol.latch = s.pol.latch ∧
      (s.fire e).sup.state = s.sup.state ∧ (s.fire e).sup.warmup = s.sup.warmup ∧ (s.fire e).sup.stn = s.sup.stn ∧
      (s.fire e).sup.roster = s.sup.roster ∧ (s.fire e).sup.step = s.sup.step := by
  simp only [State.fire]
  repeat' split
  all_goals first | rfl | (simp; done) | (simp_all; done)

@[simp] theorem State.faultDisarm_inner (s : State) :
    (s.faultDisarm).pol.table = s.pol.table ∧ (s.faultDisarm).pol.store = s.pol.store ∧
      (s.faultDisarm).pol.last = s.pol.last ∧ (s.faultDisarm).pol.memos = s.pol.memos ∧
      (s.faultDisarm).pol.timers = s.pol.timers := by
  simp only [State.faultDisarm]
  repeat' split
  all_goals first | rfl | (simp; done) | (simp_all; done)

@[simp] theorem State.armAtStart_inner (s : State) :
    (s.armAtStart).pol.table = s.pol.table ∧ (s.armAtStart).pol.store = s.pol.store ∧
      (s.armAtStart).pol.last = s.pol.last ∧ (s.armAtStart).pol.memos = s.pol.memos ∧
      (s.armAtStart).pol.timers = s.pol.timers ∧ (s.armAtStart).pol.latch = s.pol.latch := by
  simp only [State.armAtStart]
  repeat' split
  all_goals first | rfl | (simp; done) | (simp_all; done)

@[simp] theorem State.armAll_inner (s : State) :
    (s.armAll).pol.table = s.pol.table ∧ (s.armAll).pol.store = s.pol.store ∧ (s.armAll).pol.last = s.pol.last ∧
      (s.armAll).pol.memos = s.pol.memos ∧ (s.armAll).pol.timers = s.pol.timers ∧
      (s.armAll).pol.latch = s.pol.latch ∧ (s.armAll).grd.state = s.grd.state ∧
      (s.armAll).grd.matched = s.grd.matched ∧ (s.armAll).grd.mustChange = s.grd.mustChange ∧
      (s.armAll).grd.batteryTimer = s.grd.batteryTimer ∧ (s.armAll).grd.holdDue = s.grd.holdDue := by
  simp only [State.armAll]
  repeat' split
  all_goals first | rfl | (simp; done) | (simp_all; done)

@[simp] theorem foldl_fire_inner (l : List EntryNo) (s : State) :
    (l.foldl State.fire s).gate.fixedMarks = s.gate.fixedMarks ∧
      (l.foldl State.fire s).gate.markStore = s.gate.markStore ∧
      (l.foldl State.fire s).gate.pendingMark = s.gate.pendingMark ∧
      (l.foldl State.fire s).gate.pmBusy = s.gate.pmBusy ∧ (l.foldl State.fire s).gate.pmWaiting = s.gate.pmWaiting ∧
      (l.foldl State.fire s).gate.staging = s.gate.staging ∧
      (l.foldl State.fire s).gate.outstanding = s.gate.outstanding ∧
      (l.foldl State.fire s).gate.portReady = s.gate.portReady ∧
      (l.foldl State.fire s).gate.eraseWaiting = s.gate.eraseWaiting ∧
      (l.foldl State.fire s).gate.yieldCount = s.gate.yieldCount ∧ (l.foldl State.fire s).eng.round = s.eng.round ∧
      (l.foldl State.fire s).eng.absence = s.eng.absence ∧ (l.foldl State.fire s).eng.rollCount = s.eng.rollCount ∧
      (l.foldl State.fire s).eng.serial = s.eng.serial ∧ (l.foldl State.fire s).key.states = s.key.states ∧
      (l.foldl State.fire s).key.debounce = s.key.debounce ∧ (l.foldl State.fire s).key.setAside = s.key.setAside ∧
      (l.foldl State.fire s).cred.slots = s.cred.slots ∧ (l.foldl State.fire s).cred.liveStamp = s.cred.liveStamp ∧
      (l.foldl State.fire s).cred.pendingSlot = s.cred.pendingSlot ∧
      (l.foldl State.fire s).cred.genKey = s.cred.genKey ∧
      (l.foldl State.fire s).cred.roundEntry = s.cred.roundEntry ∧
      (l.foldl State.fire s).cred.roundChange = s.cred.roundChange ∧ (l.foldl State.fire s).cred.busy = s.cred.busy ∧
      (l.foldl State.fire s).cred.waiting = s.cred.waiting ∧ (l.foldl State.fire s).tal.tally = s.tal.tally ∧
      (l.foldl State.fire s).tal.tallyStore = s.tal.tallyStore ∧ (l.foldl State.fire s).pol.table = s.pol.table ∧
      (l.foldl State.fire s).pol.store = s.pol.store ∧ (l.foldl State.fire s).pol.last = s.pol.last ∧
      (l.foldl State.fire s).pol.latch = s.pol.latch ∧ (l.foldl State.fire s).sup.state = s.sup.state ∧
      (l.foldl State.fire s).sup.warmup = s.sup.warmup ∧ (l.foldl State.fire s).sup.stn = s.sup.stn ∧
      (l.foldl State.fire s).sup.roster = s.sup.roster ∧ (l.foldl State.fire s).sup.step = s.sup.step := by
  induction l generalizing s with
  | nil => simp
  | cons x l ih => simp [ih]

@[simp] theorem State.takeNotice_inner (s : State) (n : Notice) :
    (s.takeNotice n).gate.fixedMarks = s.gate.fixedMarks ∧ (s.takeNotice n).gate.markStore = s.gate.markStore ∧
      (s.takeNotice n).gate.pendingMark = s.gate.pendingMark ∧ (s.takeNotice n).gate.pmBusy = s.gate.pmBusy ∧
      (s.takeNotice n).gate.pmWaiting = s.gate.pmWaiting ∧ (s.takeNotice n).gate.staging = s.gate.staging ∧
      (s.takeNotice n).gate.outstanding = s.gate.outstanding ∧ (s.takeNotice n).gate.portReady = s.gate.portReady ∧
      (s.takeNotice n).gate.eraseWaiting = s.gate.eraseWaiting ∧
      (s.takeNotice n).gate.yieldCount = s.gate.yieldCount ∧ (s.takeNotice n).eng.round = s.eng.round ∧
      (s.takeNotice n).eng.absence = s.eng.absence ∧ (s.takeNotice n).eng.rollCount = s.eng.rollCount ∧
      (s.takeNotice n).eng.serial = s.eng.serial ∧ (s.takeNotice n).key.states = s.key.states ∧
      (s.takeNotice n).key.debounce = s.key.debounce ∧ (s.takeNotice n).key.setAside = s.key.setAside ∧
      (s.takeNotice n).cred.slots = s.cred.slots ∧ (s.takeNotice n).cred.liveStamp = s.cred.liveStamp ∧
      (s.takeNotice n).cred.pendingSlot = s.cred.pendingSlot ∧ (s.takeNotice n).cred.genKey = s.cred.genKey ∧
      (s.takeNotice n).cred.roundEntry = s.cred.roundEntry ∧ (s.takeNotice n).cred.roundChange = s.cred.roundChange ∧
      (s.takeNotice n).cred.busy = s.cred.busy ∧ (s.takeNotice n).cred.waiting = s.cred.waiting ∧
      (s.takeNotice n).tal.tally = s.tal.tally ∧ (s.takeNotice n).tal.tallyStore = s.tal.tallyStore ∧
      (s.takeNotice n).pol.table = s.pol.table ∧ (s.takeNotice n).pol.store = s.pol.store ∧
      (s.takeNotice n).sup.state = s.sup.state ∧ (s.takeNotice n).sup.warmup = s.sup.warmup ∧
      (s.takeNotice n).sup.stn = s.sup.stn ∧ (s.takeNotice n).sup.roster = s.sup.roster ∧
      (s.takeNotice n).sup.step = s.sup.step := by
  simp only [State.takeNotice]
  repeat' split
  all_goals first | rfl | (simp; done) | (simp_all; done)

@[simp] theorem drainNotices_inner (n : Nat) (s : State) :
    (drainNotices n s).gate.fixedMarks = s.gate.fixedMarks ∧ (drainNotices n s).gate.markStore = s.gate.markStore ∧
      (drainNotices n s).gate.pendingMark = s.gate.pendingMark ∧ (drainNotices n s).gate.pmBusy = s.gate.pmBusy ∧
      (drainNotices n s).gate.pmWaiting = s.gate.pmWaiting ∧ (drainNotices n s).gate.staging = s.gate.staging ∧
      (drainNotices n s).gate.outstanding = s.gate.outstanding ∧
      (drainNotices n s).gate.portReady = s.gate.portReady ∧
      (drainNotices n s).gate.eraseWaiting = s.gate.eraseWaiting ∧
      (drainNotices n s).gate.yieldCount = s.gate.yieldCount ∧ (drainNotices n s).eng.round = s.eng.round ∧
      (drainNotices n s).eng.absence = s.eng.absence ∧ (drainNotices n s).eng.rollCount = s.eng.rollCount ∧
      (drainNotices n s).eng.serial = s.eng.serial ∧ (drainNotices n s).key.states = s.key.states ∧
      (drainNotices n s).key.debounce = s.key.debounce ∧ (drainNotices n s).key.setAside = s.key.setAside ∧
      (drainNotices n s).cred.slots = s.cred.slots ∧ (drainNotices n s).cred.liveStamp = s.cred.liveStamp ∧
      (drainNotices n s).cred.pendingSlot = s.cred.pendingSlot ∧ (drainNotices n s).cred.genKey = s.cred.genKey ∧
      (drainNotices n s).cred.roundEntry = s.cred.roundEntry ∧
      (drainNotices n s).cred.roundChange = s.cred.roundChange ∧ (drainNotices n s).cred.busy = s.cred.busy ∧
      (drainNotices n s).cred.waiting = s.cred.waiting ∧ (drainNotices n s).tal.tally = s.tal.tally ∧
      (drainNotices n s).tal.tallyStore = s.tal.tallyStore ∧ (drainNotices n s).pol.table = s.pol.table ∧
      (drainNotices n s).pol.store = s.pol.store ∧ (drainNotices n s).sup.state = s.sup.state ∧
      (drainNotices n s).sup.warmup = s.sup.warmup ∧ (drainNotices n s).sup.stn = s.sup.stn ∧
      (drainNotices n s).sup.roster = s.sup.roster ∧ (drainNotices n s).sup.step = s.sup.step := by
  induction n generalizing s with
  | zero => simp [drainNotices]
  | succ n ih =>
    simp only [drainNotices]
    split <;> simp [ih]

@[simp] theorem State.drain_inner (s : State) :
    (s.drain).gate.fixedMarks = s.gate.fixedMarks ∧ (s.drain).gate.markStore = s.gate.markStore ∧
      (s.drain).gate.pendingMark = s.gate.pendingMark ∧ (s.drain).gate.pmBusy = s.gate.pmBusy ∧
      (s.drain).gate.pmWaiting = s.gate.pmWaiting ∧ (s.drain).gate.staging = s.gate.staging ∧
      (s.drain).gate.outstanding = s.gate.outstanding ∧ (s.drain).gate.portReady = s.gate.portReady ∧
      (s.drain).gate.eraseWaiting = s.gate.eraseWaiting ∧ (s.drain).gate.yieldCount = s.gate.yieldCount ∧
      (s.drain).eng.round = s.eng.round ∧ (s.drain).eng.absence = s.eng.absence ∧
      (s.drain).eng.rollCount = s.eng.rollCount ∧ (s.drain).eng.serial = s.eng.serial ∧
      (s.drain).key.states = s.key.states ∧ (s.drain).key.debounce = s.key.debounce ∧
      (s.drain).key.setAside = s.key.setAside ∧ (s.drain).cred.slots = s.cred.slots ∧
      (s.drain).cred.liveStamp = s.cred.liveStamp ∧ (s.drain).cred.pendingSlot = s.cred.pendingSlot ∧
      (s.drain).cred.genKey = s.cred.genKey ∧ (s.drain).cred.roundEntry = s.cred.roundEntry ∧
      (s.drain).cred.roundChange = s.cred.roundChange ∧ (s.drain).cred.busy = s.cred.busy ∧
      (s.drain).cred.waiting = s.cred.waiting ∧ (s.drain).tal.tally = s.tal.tally ∧
      (s.drain).tal.tallyStore = s.tal.tallyStore ∧ (s.drain).pol.table = s.pol.table ∧
      (s.drain).pol.store = s.pol.store ∧ (s.drain).sup.state = s.sup.state ∧ (s.drain).sup.warmup = s.sup.warmup ∧
      (s.drain).sup.stn = s.sup.stn ∧ (s.drain).sup.roster = s.sup.roster ∧ (s.drain).sup.step = s.sup.step := by
  simp only [State.drain]
  repeat' split
  all_goals first | rfl | (simp; done) | (simp_all; done)

@[simp] theorem State.enterDormant_inner (s : State) :
    (s.enterDormant).key.states = s.key.states ∧ (s.enterDormant).key.mode = s.key.mode ∧
      (s.enterDormant).key.buffer = s.key.buffer ∧ (s.enterDormant).key.overlong = s.key.overlong ∧
      (s.enterDormant).key.firstCode = s.key.firstCode ∧ (s.enterDormant).key.target = s.key.target ∧
      (s.enterDormant).key.command = s.key.command ∧ (s.enterDormant).key.shiftFreed = s.key.shiftFreed ∧
      (s.enterDormant).key.entryTimer = s.key.entryTimer ∧ (s.enterDormant).key.resetTimer = s.key.resetTimer ∧
      (s.enterDormant).key.wipeWindow = s.key.wipeWindow ∧ (s.enterDormant).key.heldEntry = s.key.heldEntry ∧
      (s.enterDormant).key.heldChange = s.key.heldChange ∧ (s.enterDormant).key.setAside = s.key.setAside ∧
      (s.enterDormant).sup.state = s.sup.state ∧ (s.enterDormant).sup.warmup = s.sup.warmup ∧
      (s.enterDormant).sup.stn = s.sup.stn ∧ (s.enterDormant).sup.roster = s.sup.roster ∧
      (s.enterDormant).sup.step = s.sup.step := by
  simp only [State.enterDormant]
  repeat' split
  all_goals first | rfl | (simp; done) | (simp_all; done)

@[simp] theorem State.dormantIfQuiet_inner (s : State) :
    (s.dormantIfQuiet).key.states = s.key.states ∧ (s.dormantIfQuiet).key.mode = s.key.mode ∧
      (s.dormantIfQuiet).key.buffer = s.key.buffer ∧ (s.dormantIfQuiet).key.overlong = s.key.overlong ∧
      (s.dormantIfQuiet).key.firstCode = s.key.firstCode ∧ (s.dormantIfQuiet).key.target = s.key.target ∧
      (s.dormantIfQuiet).key.command = s.key.command ∧ (s.dormantIfQuiet).key.shiftFreed = s.key.shiftFreed ∧
      (s.dormantIfQuiet).key.entryTimer = s.key.entryTimer ∧ (s.dormantIfQuiet).key.resetTimer = s.key.resetTimer ∧
      (s.dormantIfQuiet).key.wipeWindow = s.key.wipeWindow ∧ (s.dormantIfQuiet).key.heldEntry = s.key.heldEntry ∧
      (s.dormantIfQuiet).key.heldChange = s.key.heldChange ∧ (s.dormantIfQuiet).key.setAside = s.key.setAside ∧
      (s.dormantIfQuiet).sup.state = s.sup.state ∧ (s.dormantIfQuiet).sup.warmup = s.sup.warmup ∧
      (s.dormantIfQuiet).sup.stn = s.sup.stn ∧ (s.dormantIfQuiet).sup.roster = s.sup.roster ∧
      (s.dormantIfQuiet).sup.step = s.sup.step := by
  simp only [State.dormantIfQuiet]
  repeat' split
  all_goals first | rfl | (simp; done) | (simp_all; done)

@[simp] theorem State.settle_inner (s : State) :
    (s.settle).gate.fixedMarks = s.gate.fixedMarks ∧ (s.settle).gate.markStore = s.gate.markStore ∧
      (s.settle).gate.pendingMark = s.gate.pendingMark ∧ (s.settle).gate.pmBusy = s.gate.pmBusy ∧
      (s.settle).gate.pmWaiting = s.gate.pmWaiting ∧ (s.settle).gate.staging = s.gate.staging ∧
      (s.settle).eng.round = s.eng.round ∧ (s.settle).eng.absence = s.eng.absence ∧
      (s.settle).eng.rollCount = s.eng.rollCount ∧ (s.settle).eng.serial = s.eng.serial ∧
      (s.settle).key.states = s.key.states ∧ (s.settle).key.setAside = s.key.setAside ∧
      (s.settle).cred.slots = s.cred.slots ∧ (s.settle).cred.liveStamp = s.cred.liveStamp ∧
      (s.settle).cred.pendingSlot = s.cred.pendingSlot ∧ (s.settle).cred.genKey = s.cred.genKey ∧
      (s.settle).cred.roundEntry = s.cred.roundEntry ∧ (s.settle).cred.roundChange = s.cred.roundChange ∧
      (s.settle).cred.busy = s.cred.busy ∧ (s.settle).cred.waiting = s.cred.waiting ∧
      (s.settle).tal.tally = s.tal.tally ∧ (s.settle).tal.tallyStore = s.tal.tallyStore ∧
      (s.settle).pol.table = s.pol.table ∧ (s.settle).pol.store = s.pol.store ∧ (s.settle).sup.state = s.sup.state ∧
      (s.settle).sup.warmup = s.sup.warmup ∧ (s.settle).sup.stn = s.sup.stn ∧ (s.settle).sup.roster = s.sup.roster ∧
      (s.settle).sup.step = s.sup.step ∧ (s.settle).wipe.journal = s.wipe.journal ∧
      (s.settle).wipe.busy = s.wipe.busy ∧ (s.settle).wipe.waiting = s.wipe.waiting ∧
      (s.settle).wipe.again = s.wipe.again ∧ (s.settle).wipe.orderPending = s.wipe.orderPending ∧
      (s.settle).wipe.progressTimer = s.wipe.progressTimer := by
  simp only [State.settle]
  repeat' split
  all_goals first | rfl | (simp; done) | (simp_all; done)

@[simp] theorem State.beginCred_inner (s : State) (j : CredJob) :
    (s.beginCred j).cred.slots = s.cred.slots ∧ (s.beginCred j).cred.liveStamp = s.cred.liveStamp ∧
      (s.beginCred j).cred.plainKey = s.cred.plainKey ∧ (s.beginCred j).cred.genKey = s.cred.genKey ∧
      (s.beginCred j).cred.roundEntry = s.cred.roundEntry ∧ (s.beginCred j).cred.roundChange = s.cred.roundChange ∧
      (s.beginCred j).cred.waiting = s.cred.waiting ∧ (s.beginCred j).nv.slots = s.nv.slots ∧
      (s.beginCred j).nv.liveStamp = s.nv.liveStamp ∧ (s.beginCred j).nv.tally = s.nv.tally ∧
      (s.beginCred j).nv.holdOwed = s.nv.holdOwed ∧ (s.beginCred j).nv.policy = s.nv.policy ∧
      (s.beginCred j).nv.fixedMarks = s.nv.fixedMarks ∧ (s.beginCred j).nv.pendingMark = s.nv.pendingMark ∧
      (s.beginCred j).nv.journal = s.nv.journal ∧ (s.beginCred j).nv.flags = s.nv.flags ∧
      (s.beginCred j).nv.serial = s.nv.serial := by
  simp only [State.beginCred]
  repeat' split
  all_goals first | rfl | (simp; done) | (simp_all; done)

@[simp] theorem State.nextCred_inner (s : State) :
    (s.nextCred).cred.slots = s.cred.slots ∧ (s.nextCred).cred.liveStamp = s.cred.liveStamp ∧
      (s.nextCred).cred.plainKey = s.cred.plainKey ∧ (s.nextCred).cred.genKey = s.cred.genKey ∧
      (s.nextCred).cred.roundEntry = s.cred.roundEntry ∧ (s.nextCred).cred.roundChange = s.cred.roundChange ∧
      (s.nextCred).nv.slots = s.nv.slots ∧ (s.nextCred).nv.liveStamp = s.nv.liveStamp ∧
      (s.nextCred).nv.tally = s.nv.tally ∧ (s.nextCred).nv.holdOwed = s.nv.holdOwed ∧
      (s.nextCred).nv.policy = s.nv.policy ∧ (s.nextCred).nv.fixedMarks = s.nv.fixedMarks ∧
      (s.nextCred).nv.pendingMark = s.nv.pendingMark ∧ (s.nextCred).nv.journal = s.nv.journal ∧
      (s.nextCred).nv.flags = s.nv.flags ∧ (s.nextCred).nv.serial = s.nv.serial := by
  simp only [State.nextCred]
  repeat' split
  all_goals first | rfl | (simp; done) | (simp_all; done)

@[simp] theorem State.askCred_inner (s : State) (j : CredJob) :
    (s.askCred j).cred.slots = s.cred.slots ∧ (s.askCred j).cred.liveStamp = s.cred.liveStamp ∧
      (s.askCred j).cred.plainKey = s.cred.plainKey ∧ (s.askCred j).cred.genKey = s.cred.genKey ∧
      (s.askCred j).cred.roundEntry = s.cred.roundEntry ∧ (s.askCred j).cred.roundChange = s.cred.roundChange ∧
      (s.askCred j).nv.slots = s.nv.slots ∧ (s.askCred j).nv.liveStamp = s.nv.liveStamp ∧
      (s.askCred j).nv.tally = s.nv.tally ∧ (s.askCred j).nv.holdOwed = s.nv.holdOwed ∧
      (s.askCred j).nv.policy = s.nv.policy ∧ (s.askCred j).nv.fixedMarks = s.nv.fixedMarks ∧
      (s.askCred j).nv.pendingMark = s.nv.pendingMark ∧ (s.askCred j).nv.journal = s.nv.journal ∧
      (s.askCred j).nv.flags = s.nv.flags ∧ (s.askCred j).nv.serial = s.nv.serial := by
  simp only [State.askCred]
  repeat' split
  all_goals first | rfl | (simp; done) | (simp_all; done)

@[simp] theorem State.askDestruction_inner (s : State) :
    (s.askDestruction).cred.slots = s.cred.slots ∧ (s.askDestruction).cred.liveStamp = s.cred.liveStamp ∧
      (s.askDestruction).cred.plainKey = s.cred.plainKey ∧ (s.askDestruction).cred.genKey = s.cred.genKey ∧
      (s.askDestruction).cred.roundEntry = s.cred.roundEntry ∧
      (s.askDestruction).cred.roundChange = s.cred.roundChange ∧ (s.askDestruction).nv.slots = s.nv.slots ∧
      (s.askDestruction).nv.liveStamp = s.nv.liveStamp ∧ (s.askDestruction).nv.tally = s.nv.tally ∧
      (s.askDestruction).nv.holdOwed = s.nv.holdOwed ∧ (s.askDestruction).nv.policy = s.nv.policy ∧
      (s.askDestruction).nv.fixedMarks = s.nv.fixedMarks ∧ (s.askDestruction).nv.pendingMark = s.nv.pendingMark ∧
      (s.askDestruction).nv.journal = s.nv.journal ∧ (s.askDestruction).nv.flags = s.nv.flags ∧
      (s.askDestruction).nv.serial = s.nv.serial := by
  simp only [State.askDestruction]
  repeat' split
  all_goals first | rfl | (simp; done) | (simp_all; done)

@[simp] theorem State.credMade_inner (s : State) :
    (s.credMade).cred.plainKey = s.cred.plainKey ∧ (s.credMade).cred.genKey = s.cred.genKey ∧
      (s.credMade).nv.tally = s.nv.tally ∧ (s.credMade).nv.holdOwed = s.nv.holdOwed ∧
      (s.credMade).nv.policy = s.nv.policy ∧ (s.credMade).nv.fixedMarks = s.nv.fixedMarks ∧
      (s.credMade).nv.pendingMark = s.nv.pendingMark ∧ (s.credMade).nv.journal = s.nv.journal ∧
      (s.credMade).nv.flags = s.nv.flags ∧ (s.credMade).nv.serial = s.nv.serial := by
  simp only [State.credMade]
  repeat' split
  all_goals first | rfl | (simp; done) | (simp_all; done)

@[simp] theorem State.credFailed_inner (s : State) :
    (s.credFailed).eng.queue = s.eng.queue ∧ (s.credFailed).eng.absence = s.eng.absence ∧
      (s.credFailed).eng.rollCount = s.eng.rollCount ∧ (s.credFailed).eng.serial = s.eng.serial ∧
      (s.credFailed).cred.slots = s.cred.slots ∧ (s.credFailed).cred.liveStamp = s.cred.liveStamp ∧
      (s.credFailed).cred.plainKey = s.cred.plainKey ∧ (s.credFailed).cred.genKey = s.cred.genKey ∧
      (s.credFailed).cred.roundEntry = s.cred.roundEntry ∧ (s.credFailed).cred.roundChange = s.cred.roundChange ∧
      (s.credFailed).stat.fit = s.stat.fit ∧ (s.credFailed).nv.slots = s.nv.slots ∧
      (s.credFailed).nv.liveStamp = s.nv.liveStamp ∧ (s.credFailed).nv.tally = s.nv.tally ∧
      (s.credFailed).nv.holdOwed = s.nv.holdOwed ∧ (s.credFailed).nv.policy = s.nv.policy ∧
      (s.credFailed).nv.fixedMarks = s.nv.fixedMarks ∧ (s.credFailed).nv.pendingMark = s.nv.pendingMark ∧
      (s.credFailed).nv.journal = s.nv.journal ∧ (s.credFailed).nv.flags = s.nv.flags ∧
      (s.credFailed).nv.serial = s.nv.serial := by
  simp only [State.credFailed]
  repeat' split
  all_goals first | rfl | (simp; done) | (simp_all; done)

@[simp] theorem State.promote_inner (s : State) (p : PendingChange) :
    (s.promote p).cred.plainKey = s.cred.plainKey ∧ (s.promote p).cred.genKey = s.cred.genKey ∧
      (s.promote p).cred.roundEntry = s.cred.roundEntry ∧ (s.promote p).cred.roundChange = s.cred.roundChange ∧
      (s.promote p).nv.slots = s.nv.slots ∧ (s.promote p).nv.liveStamp = s.nv.liveStamp ∧
      (s.promote p).nv.tally = s.nv.tally ∧ (s.promote p).nv.holdOwed = s.nv.holdOwed ∧
      (s.promote p).nv.policy = s.nv.policy ∧ (s.promote p).nv.fixedMarks = s.nv.fixedMarks ∧
      (s.promote p).nv.pendingMark = s.nv.pendingMark ∧ (s.promote p).nv.journal = s.nv.journal ∧
      (s.promote p).nv.flags = s.nv.flags ∧ (s.promote p).nv.serial = s.nv.serial := by
  simp only [State.promote]
  repeat' split
  all_goals first | rfl | (simp; done) | (simp_all; done)

@[simp] theorem State.discardPending_inner (s : State) :
    (s.discardPending).cred.slots = s.cred.slots ∧ (s.discardPending).cred.liveStamp = s.cred.liveStamp ∧
      (s.discardPending).cred.plainKey = s.cred.plainKey ∧ (s.discardPending).cred.genKey = s.cred.genKey ∧
      (s.discardPending).cred.roundEntry = s.cred.roundEntry ∧
      (s.discardPending).cred.roundChange = s.cred.roundChange ∧ (s.discardPending).nv.slots = s.nv.slots ∧
      (s.discardPending).nv.liveStamp = s.nv.liveStamp ∧ (s.discardPending).nv.tally = s.nv.tally ∧
      (s.discardPending).nv.holdOwed = s.nv.holdOwed ∧ (s.discardPending).nv.policy = s.nv.policy ∧
      (s.discardPending).nv.fixedMarks = s.nv.fixedMarks ∧ (s.discardPending).nv.pendingMark = s.nv.pendingMark ∧
      (s.discardPending).nv.journal = s.nv.journal ∧ (s.discardPending).nv.flags = s.nv.flags ∧
      (s.discardPending).nv.serial = s.nv.serial := by
  simp only [State.discardPending]
  repeat' split
  all_goals first | rfl | (simp; done) | (simp_all; done)

@[simp] theorem State.putMarks_inner (s : State) (marks : Vector FixedMark 64) (empties : Bool) :
    (s.putMarks marks empties).gate.pendingMark = s.gate.pendingMark ∧
      (s.putMarks marks empties).gate.pmBusy = s.gate.pmBusy ∧
      (s.putMarks marks empties).gate.pmWaiting = s.gate.pmWaiting ∧
      (s.putMarks marks empties).gate.session = s.gate.session ∧
      (s.putMarks marks empties).gate.staging = s.gate.staging ∧
      (s.putMarks marks empties).gate.markLockOpen = s.gate.markLockOpen ∧
      (s.putMarks marks empties).gate.presented = s.gate.presented ∧
      (s.putMarks marks empties).gate.outstanding = s.gate.outstanding ∧
      (s.putMarks marks empties).gate.portReady = s.gate.portReady ∧
      (s.putMarks marks empties).gate.eraseWaiting = s.gate.eraseWaiting ∧
      (s.putMarks marks empties).gate.yieldCount = s.gate.yieldCount := by
  simp only [State.putMarks]
  repeat' split
  all_goals first | rfl | (simp; done) | (simp_all; done)

@[simp] theorem State.marksMade_inner (s : State) :
    (s.marksMade).gate.pmBusy = s.gate.pmBusy ∧ (s.marksMade).gate.pmWaiting = s.gate.pmWaiting ∧
      (s.marksMade).gate.session = s.gate.session ∧ (s.marksMade).gate.staging = s.gate.staging ∧
      (s.marksMade).gate.markLockOpen = s.gate.markLockOpen ∧ (s.marksMade).gate.presented = s.gate.presented ∧
      (s.marksMade).gate.outstanding = s.gate.outstanding ∧ (s.marksMade).gate.portReady = s.gate.portReady ∧
      (s.marksMade).gate.eraseWaiting = s.gate.eraseWaiting ∧ (s.marksMade).gate.yieldCount = s.gate.yieldCount ∧
      (s.marksMade).nv.slots = s.nv.slots ∧ (s.marksMade).nv.liveStamp = s.nv.liveStamp ∧
      (s.marksMade).nv.pendingSlot = s.nv.pendingSlot ∧ (s.marksMade).nv.tally = s.nv.tally ∧
      (s.marksMade).nv.holdOwed = s.nv.holdOwed ∧ (s.marksMade).nv.policy = s.nv.policy ∧
      (s.marksMade).nv.journal = s.nv.journal ∧ (s.marksMade).nv.flags = s.nv.flags ∧
      (s.marksMade).nv.serial = s.nv.serial := by
  simp only [State.marksMade]
  repeat' split
  all_goals first | rfl | (simp; done) | (simp_all; done)

@[simp] theorem State.marksFailed_inner (s : State) :
    (s.marksFailed).gate.fixedMarks = s.gate.fixedMarks ∧ (s.marksFailed).gate.pendingMark = s.gate.pendingMark ∧
      (s.marksFailed).gate.pmBusy = s.gate.pmBusy ∧ (s.marksFailed).gate.pmWaiting = s.gate.pmWaiting ∧
      (s.marksFailed).gate.session = s.gate.session ∧ (s.marksFailed).gate.staging = s.gate.staging ∧
      (s.marksFailed).gate.markLockOpen = s.gate.markLockOpen ∧ (s.marksFailed).gate.presented = s.gate.presented ∧
      (s.marksFailed).gate.outstanding = s.gate.outstanding ∧ (s.marksFailed).gate.portReady = s.gate.portReady ∧
      (s.marksFailed).gate.eraseWaiting = s.gate.eraseWaiting ∧ (s.marksFailed).gate.yieldCount = s.gate.yieldCount ∧
      (s.marksFailed).eng.queue = s.eng.queue ∧ (s.marksFailed).eng.absence = s.eng.absence ∧
      (s.marksFailed).eng.rollCount = s.eng.rollCount ∧ (s.marksFailed).eng.serial = s.eng.serial ∧
      (s.marksFailed).stat.fit = s.stat.fit := by
  simp only [State.marksFailed]
  repeat' split
  all_goals first | rfl | (simp; done) | (simp_all; done)

@[simp] theorem State.beginPm_inner (s : State) (j : PendingMarkJob) :
    (s.beginPm j).gate.fixedMarks = s.gate.fixedMarks ∧ (s.beginPm j).gate.markStore = s.gate.markStore ∧
      (s.beginPm j).gate.pmWaiting = s.gate.pmWaiting ∧ (s.beginPm j).gate.session = s.gate.session ∧
      (s.beginPm j).gate.staging = s.gate.staging ∧ (s.beginPm j).gate.markLockOpen = s.gate.markLockOpen ∧
      (s.beginPm j).gate.presented = s.gate.presented ∧ (s.beginPm j).gate.outstanding = s.gate.outstanding ∧
      (s.beginPm j).gate.portReady = s.gate.portReady ∧ (s.beginPm j).gate.eraseWaiting = s.gate.eraseWaiting ∧
      (s.beginPm j).gate.yieldCount = s.gate.yieldCount ∧ (s.beginPm j).nv.slots = s.nv.slots ∧
      (s.beginPm j).nv.liveStamp = s.nv.liveStamp ∧ (s.beginPm j).nv.pendingSlot = s.nv.pendingSlot ∧
      (s.beginPm j).nv.tally = s.nv.tally ∧ (s.beginPm j).nv.holdOwed = s.nv.holdOwed ∧
      (s.beginPm j).nv.policy = s.nv.policy ∧ (s.beginPm j).nv.fixedMarks = s.nv.fixedMarks ∧
      (s.beginPm j).nv.journal = s.nv.journal ∧ (s.beginPm j).nv.flags = s.nv.flags ∧
      (s.beginPm j).nv.serial = s.nv.serial := by
  simp only [State.beginPm]
  repeat' split
  all_goals first | rfl | (simp; done) | (simp_all; done)

@[simp] theorem State.askPm_inner (s : State) (j : PendingMarkJob) :
    (s.askPm j).gate.fixedMarks = s.gate.fixedMarks ∧ (s.askPm j).gate.markStore = s.gate.markStore ∧
      (s.askPm j).gate.session = s.gate.session ∧ (s.askPm j).gate.staging = s.gate.staging ∧
      (s.askPm j).gate.markLockOpen = s.gate.markLockOpen ∧ (s.askPm j).gate.presented = s.gate.presented ∧
      (s.askPm j).gate.outstanding = s.gate.outstanding ∧ (s.askPm j).gate.portReady = s.gate.portReady ∧
      (s.askPm j).gate.eraseWaiting = s.gate.eraseWaiting ∧ (s.askPm j).gate.yieldCount = s.gate.yieldCount ∧
      (s.askPm j).nv.slots = s.nv.slots ∧ (s.askPm j).nv.liveStamp = s.nv.liveStamp ∧
      (s.askPm j).nv.pendingSlot = s.nv.pendingSlot ∧ (s.askPm j).nv.tally = s.nv.tally ∧
      (s.askPm j).nv.holdOwed = s.nv.holdOwed ∧ (s.askPm j).nv.policy = s.nv.policy ∧
      (s.askPm j).nv.fixedMarks = s.nv.fixedMarks ∧ (s.askPm j).nv.journal = s.nv.journal ∧
      (s.askPm j).nv.flags = s.nv.flags ∧ (s.askPm j).nv.serial = s.nv.serial := by
  simp only [State.askPm]
  repeat' split
  all_goals first | rfl | (simp; done) | (simp_all; done)

@[simp] theorem State.nextPm_inner (s : State) :
    (s.nextPm).gate.fixedMarks = s.gate.fixedMarks ∧ (s.nextPm).gate.markStore = s.gate.markStore ∧
      (s.nextPm).gate.session = s.gate.session ∧ (s.nextPm).gate.staging = s.gate.staging ∧
      (s.nextPm).gate.markLockOpen = s.gate.markLockOpen ∧ (s.nextPm).gate.presented = s.gate.presented ∧
      (s.nextPm).gate.outstanding = s.gate.outstanding ∧ (s.nextPm).gate.portReady = s.gate.portReady ∧
      (s.nextPm).gate.eraseWaiting = s.gate.eraseWaiting ∧ (s.nextPm).gate.yieldCount = s.gate.yieldCount ∧
      (s.nextPm).nv.slots = s.nv.slots ∧ (s.nextPm).nv.liveStamp = s.nv.liveStamp ∧
      (s.nextPm).nv.pendingSlot = s.nv.pendingSlot ∧ (s.nextPm).nv.tally = s.nv.tally ∧
      (s.nextPm).nv.holdOwed = s.nv.holdOwed ∧ (s.nextPm).nv.policy = s.nv.policy ∧
      (s.nextPm).nv.fixedMarks = s.nv.fixedMarks ∧ (s.nextPm).nv.journal = s.nv.journal ∧
      (s.nextPm).nv.flags = s.nv.flags ∧ (s.nextPm).nv.serial = s.nv.serial := by
  simp only [State.nextPm]
  repeat' split
  all_goals first | rfl | (simp; done) | (simp_all; done)

@[simp] theorem State.pmMade_inner (s : State) :
    (s.pmMade).gate.fixedMarks = s.gate.fixedMarks ∧ (s.pmMade).gate.markStore = s.gate.markStore ∧
      (s.pmMade).gate.session = s.gate.session ∧ (s.pmMade).gate.staging = s.gate.staging ∧
      (s.pmMade).gate.markLockOpen = s.gate.markLockOpen ∧ (s.pmMade).gate.presented = s.gate.presented ∧
      (s.pmMade).gate.outstanding = s.gate.outstanding ∧ (s.pmMade).gate.portReady = s.gate.portReady ∧
      (s.pmMade).gate.eraseWaiting = s.gate.eraseWaiting ∧ (s.pmMade).gate.yieldCount = s.gate.yieldCount ∧
      (s.pmMade).nv.slots = s.nv.slots ∧ (s.pmMade).nv.liveStamp = s.nv.liveStamp ∧
      (s.pmMade).nv.pendingSlot = s.nv.pendingSlot ∧ (s.pmMade).nv.tally = s.nv.tally ∧
      (s.pmMade).nv.holdOwed = s.nv.holdOwed ∧ (s.pmMade).nv.policy = s.nv.policy ∧
      (s.pmMade).nv.fixedMarks = s.nv.fixedMarks ∧ (s.pmMade).nv.journal = s.nv.journal ∧
      (s.pmMade).nv.flags = s.nv.flags ∧ (s.pmMade).nv.serial = s.nv.serial := by
  simp only [State.pmMade]
  repeat' split
  all_goals first | rfl | (simp; done) | (simp_all; done)

@[simp] theorem State.pmFailed_inner (s : State) :
    (s.pmFailed).gate.fixedMarks = s.gate.fixedMarks ∧ (s.pmFailed).gate.markStore = s.gate.markStore ∧
      (s.pmFailed).gate.session = s.gate.session ∧ (s.pmFailed).gate.staging = s.gate.staging ∧
      (s.pmFailed).gate.markLockOpen = s.gate.markLockOpen ∧ (s.pmFailed).gate.presented = s.gate.presented ∧
      (s.pmFailed).gate.outstanding = s.gate.outstanding ∧ (s.pmFailed).gate.portReady = s.gate.portReady ∧
      (s.pmFailed).gate.eraseWaiting = s.gate.eraseWaiting ∧ (s.pmFailed).gate.yieldCount = s.gate.yieldCount ∧
      (s.pmFailed).eng.queue = s.eng.queue ∧ (s.pmFailed).eng.absence = s.eng.absence ∧
      (s.pmFailed).eng.rollCount = s.eng.rollCount ∧ (s.pmFailed).eng.serial = s.eng.serial ∧
      (s.pmFailed).stat.fit = s.stat.fit ∧ (s.pmFailed).nv.slots = s.nv.slots ∧
      (s.pmFailed).nv.liveStamp = s.nv.liveStamp ∧ (s.pmFailed).nv.pendingSlot = s.nv.pendingSlot ∧
      (s.pmFailed).nv.tally = s.nv.tally ∧ (s.pmFailed).nv.holdOwed = s.nv.holdOwed ∧
      (s.pmFailed).nv.policy = s.nv.policy ∧ (s.pmFailed).nv.fixedMarks = s.nv.fixedMarks ∧
      (s.pmFailed).nv.journal = s.nv.journal ∧ (s.pmFailed).nv.flags = s.nv.flags ∧
      (s.pmFailed).nv.serial = s.nv.serial := by
  simp only [State.pmFailed]
  repeat' split
  all_goals first | rfl | (simp; done) | (simp_all; done)

@[simp] theorem State.discardMark_inner (s : State) :
    (s.discardMark).gate.fixedMarks = s.gate.fixedMarks ∧ (s.discardMark).gate.markStore = s.gate.markStore ∧
      (s.discardMark).gate.session = s.gate.session ∧ (s.discardMark).gate.staging = s.gate.staging ∧
      (s.discardMark).gate.markLockOpen = s.gate.markLockOpen ∧ (s.discardMark).gate.presented = s.gate.presented ∧
      (s.discardMark).gate.outstanding = s.gate.outstanding ∧ (s.discardMark).gate.portReady = s.gate.portReady ∧
      (s.discardMark).gate.eraseWaiting = s.gate.eraseWaiting ∧ (s.discardMark).gate.yieldCount = s.gate.yieldCount ∧
      (s.discardMark).nv.slots = s.nv.slots ∧ (s.discardMark).nv.liveStamp = s.nv.liveStamp ∧
      (s.discardMark).nv.pendingSlot = s.nv.pendingSlot ∧ (s.discardMark).nv.tally = s.nv.tally ∧
      (s.discardMark).nv.holdOwed = s.nv.holdOwed ∧ (s.discardMark).nv.policy = s.nv.policy ∧
      (s.discardMark).nv.fixedMarks = s.nv.fixedMarks ∧ (s.discardMark).nv.journal = s.nv.journal ∧
      (s.discardMark).nv.flags = s.nv.flags ∧ (s.discardMark).nv.serial = s.nv.serial := by
  simp only [State.discardMark]
  repeat' split
  all_goals first | rfl | (simp; done) | (simp_all; done)

@[simp] theorem State.askJournal_inner (s : State) (j : Journal) :
    (s.askJournal j).wipe.journal = s.wipe.journal ∧ (s.askJournal j).wipe.again = s.wipe.again ∧
      (s.askJournal j).wipe.orderPending = s.wipe.orderPending ∧ (s.askJournal j).wipe.erase = s.wipe.erase ∧
      (s.askJournal j).wipe.progressTimer = s.wipe.progressTimer := by
  simp only [State.askJournal]
  repeat' split
  all_goals first | rfl | (simp; done) | (simp_all; done)

@[simp] theorem State.takeOrder_inner (s : State) (cause : WipeCause) :
    (s.takeOrder cause).wipe.journal = s.wipe.journal ∧ (s.takeOrder cause).wipe.erase = s.wipe.erase ∧
      (s.takeOrder cause).wipe.progressTimer = s.wipe.progressTimer := by
  simp only [State.takeOrder]
  repeat' split
  all_goals first | rfl | (simp; done) | (simp_all; done)

@[simp] theorem State.repeatJournal_inner (s : State) :
    (s.repeatJournal).wipe.journal = s.wipe.journal ∧ (s.repeatJournal).wipe.waiting = s.wipe.waiting ∧
      (s.repeatJournal).wipe.orderPending = s.wipe.orderPending ∧ (s.repeatJournal).wipe.erase = s.wipe.erase ∧
      (s.repeatJournal).wipe.progressTimer = s.wipe.progressTimer := by
  simp only [State.repeatJournal]
  repeat' split
  all_goals first | rfl | (simp; done) | (simp_all; done)

@[simp] theorem State.passStep_inner (s : State) :
    (s.passStep).gate.fixedMarks = s.gate.fixedMarks ∧ (s.passStep).gate.markStore = s.gate.markStore ∧
      (s.passStep).gate.pendingMark = s.gate.pendingMark ∧ (s.passStep).gate.pmBusy = s.gate.pmBusy ∧
      (s.passStep).gate.pmWaiting = s.gate.pmWaiting ∧ (s.passStep).gate.session = s.gate.session ∧
      (s.passStep).gate.staging = s.gate.staging ∧ (s.passStep).gate.markLockOpen = s.gate.markLockOpen ∧
      (s.passStep).gate.presented = s.gate.presented ∧ (s.passStep).gate.outstanding = s.gate.outstanding ∧
      (s.passStep).gate.portReady = s.gate.portReady ∧ (s.passStep).wipe.journal = s.wipe.journal ∧
      (s.passStep).wipe.again = s.wipe.again ∧ (s.passStep).wipe.orderPending = s.wipe.orderPending ∧
      (s.passStep).wipe.progressTimer = s.wipe.progressTimer := by
  simp only [State.passStep]
  repeat' split
  all_goals first | rfl | (simp; done) | (simp_all; done)

@[simp] theorem State.engineStep_inner (s : State) :
    (s.engineStep).gate.fixedMarks = s.gate.fixedMarks ∧ (s.engineStep).gate.markStore = s.gate.markStore ∧
      (s.engineStep).gate.pendingMark = s.gate.pendingMark ∧ (s.engineStep).gate.pmBusy = s.gate.pmBusy ∧
      (s.engineStep).gate.pmWaiting = s.gate.pmWaiting ∧ (s.engineStep).gate.session = s.gate.session ∧
      (s.engineStep).gate.staging = s.gate.staging ∧ (s.engineStep).gate.markLockOpen = s.gate.markLockOpen ∧
      (s.engineStep).gate.presented = s.gate.presented ∧ (s.engineStep).gate.outstanding = s.gate.outstanding ∧
      (s.engineStep).gate.portReady = s.gate.portReady ∧ (s.engineStep).wipe.journal = s.wipe.journal ∧
      (s.engineStep).wipe.again = s.wipe.again ∧ (s.engineStep).wipe.orderPending = s.wipe.orderPending ∧
      (s.engineStep).wipe.progressTimer = s.wipe.progressTimer := by
  simp only [State.engineStep]
  repeat' split
  all_goals first | rfl | (simp; done) | (simp_all; done)

@[simp] theorem State.reachDone_inner (s : State) :
    (s.reachDone).gate.pendingMark = s.gate.pendingMark ∧ (s.reachDone).gate.pmBusy = s.gate.pmBusy ∧
      (s.reachDone).gate.pmWaiting = s.gate.pmWaiting ∧ (s.reachDone).gate.session = s.gate.session ∧
      (s.reachDone).gate.staging = s.gate.staging ∧ (s.reachDone).gate.markLockOpen = s.gate.markLockOpen ∧
      (s.reachDone).gate.presented = s.gate.presented ∧ (s.reachDone).gate.outstanding = s.gate.outstanding ∧
      (s.reachDone).gate.portReady = s.gate.portReady ∧ (s.reachDone).gate.eraseWaiting = s.gate.eraseWaiting ∧
      (s.reachDone).gate.yieldCount = s.gate.yieldCount ∧ (s.reachDone).eng.round = s.eng.round ∧
      (s.reachDone).eng.absence = s.eng.absence ∧ (s.reachDone).eng.rollCount = s.eng.rollCount ∧
      (s.reachDone).eng.serial = s.eng.serial ∧ (s.reachDone).wipe.journal = s.wipe.journal ∧
      (s.reachDone).wipe.busy = s.wipe.busy ∧ (s.reachDone).wipe.waiting = s.wipe.waiting ∧
      (s.reachDone).wipe.again = s.wipe.again ∧ (s.reachDone).wipe.orderPending = s.wipe.orderPending ∧
      (s.reachDone).wipe.erase = s.wipe.erase := by
  simp only [State.reachDone]
  repeat' split
  all_goals first | rfl | (simp; done) | (simp_all; done)

@[simp] theorem State.orderInForce_inner (s : State) :
    (s.orderInForce).gate.fixedMarks = s.gate.fixedMarks ∧ (s.orderInForce).gate.markStore = s.gate.markStore ∧
      (s.orderInForce).gate.pendingMark = s.gate.pendingMark ∧ (s.orderInForce).gate.pmBusy = s.gate.pmBusy ∧
      (s.orderInForce).gate.pmWaiting = s.gate.pmWaiting ∧ (s.orderInForce).gate.staging = s.gate.staging ∧
      (s.orderInForce).gate.outstanding = s.gate.outstanding ∧ (s.orderInForce).gate.portReady = s.gate.portReady ∧
      (s.orderInForce).gate.eraseWaiting = s.gate.eraseWaiting ∧
      (s.orderInForce).gate.yieldCount = s.gate.yieldCount ∧ (s.orderInForce).eng.round = s.eng.round ∧
      (s.orderInForce).eng.absence = s.eng.absence ∧ (s.orderInForce).eng.rollCount = s.eng.rollCount ∧
      (s.orderInForce).eng.serial = s.eng.serial ∧ (s.orderInForce).key.states = s.key.states ∧
      (s.orderInForce).key.debounce = s.key.debounce ∧ (s.orderInForce).key.setAside = s.key.setAside ∧
      (s.orderInForce).cred.slots = s.cred.slots ∧ (s.orderInForce).cred.liveStamp = s.cred.liveStamp ∧
      (s.orderInForce).cred.roundEntry = s.cred.roundEntry ∧ (s.orderInForce).cred.roundChange = s.cred.roundChange ∧
      (s.orderInForce).tal.tally = s.tal.tally ∧ (s.orderInForce).tal.tallyStore = s.tal.tallyStore ∧
      (s.orderInForce).sup.state = s.sup.state ∧ (s.orderInForce).sup.warmup = s.sup.warmup ∧
      (s.orderInForce).sup.stn = s.sup.stn ∧ (s.orderInForce).sup.roster = s.sup.roster ∧
      (s.orderInForce).sup.step = s.sup.step ∧ (s.orderInForce).grd.pulseTimer = s.grd.pulseTimer ∧
      (s.orderInForce).grd.holdDue = s.grd.holdDue ∧ (s.orderInForce).wipe.journal = s.wipe.journal ∧
      (s.orderInForce).wipe.busy = s.wipe.busy ∧ (s.orderInForce).wipe.waiting = s.wipe.waiting ∧
      (s.orderInForce).wipe.again = s.wipe.again ∧ (s.orderInForce).wipe.erase = s.wipe.erase ∧
      (s.orderInForce).wipe.progressTimer = s.wipe.progressTimer ∧ (s.orderInForce).nv.slots = s.nv.slots ∧
      (s.orderInForce).nv.liveStamp = s.nv.liveStamp ∧ (s.orderInForce).nv.tally = s.nv.tally ∧
      (s.orderInForce).nv.holdOwed = s.nv.holdOwed ∧ (s.orderInForce).nv.policy = s.nv.policy ∧
      (s.orderInForce).nv.fixedMarks = s.nv.fixedMarks ∧ (s.orderInForce).nv.pendingMark = s.nv.pendingMark ∧
      (s.orderInForce).nv.journal = s.nv.journal ∧ (s.orderInForce).nv.flags = s.nv.flags ∧
      (s.orderInForce).nv.serial = s.nv.serial := by
  simp only [State.orderInForce]
  repeat' split
  all_goals first | rfl | (simp; done) | (simp_all; done)

@[simp] theorem State.journalMade_inner (s : State) :
    (s.journalMade).gate.pendingMark = s.gate.pendingMark ∧ (s.journalMade).gate.pmBusy = s.gate.pmBusy ∧
      (s.journalMade).gate.pmWaiting = s.gate.pmWaiting ∧ (s.journalMade).gate.staging = s.gate.staging ∧
      (s.journalMade).gate.outstanding = s.gate.outstanding ∧ (s.journalMade).gate.portReady = s.gate.portReady ∧
      (s.journalMade).eng.round = s.eng.round ∧ (s.journalMade).eng.absence = s.eng.absence ∧
      (s.journalMade).eng.rollCount = s.eng.rollCount ∧ (s.journalMade).eng.serial = s.eng.serial ∧
      (s.journalMade).key.states = s.key.states ∧ (s.journalMade).key.debounce = s.key.debounce ∧
      (s.journalMade).key.setAside = s.key.setAside ∧ (s.journalMade).cred.slots = s.cred.slots ∧
      (s.journalMade).cred.liveStamp = s.cred.liveStamp ∧ (s.journalMade).cred.roundEntry = s.cred.roundEntry ∧
      (s.journalMade).cred.roundChange = s.cred.roundChange ∧ (s.journalMade).tal.tally = s.tal.tally ∧
      (s.journalMade).tal.tallyStore = s.tal.tallyStore ∧ (s.journalMade).sup.state = s.sup.state ∧
      (s.journalMade).sup.warmup = s.sup.warmup ∧ (s.journalMade).sup.stn = s.sup.stn ∧
      (s.journalMade).sup.roster = s.sup.roster ∧ (s.journalMade).sup.step = s.sup.step ∧
      (s.journalMade).grd.pulseTimer = s.grd.pulseTimer ∧ (s.journalMade).grd.holdDue = s.grd.holdDue ∧
      (s.journalMade).wipe.again = s.wipe.again ∧ (s.journalMade).nv.slots = s.nv.slots ∧
      (s.journalMade).nv.liveStamp = s.nv.liveStamp ∧ (s.journalMade).nv.tally = s.nv.tally ∧
      (s.journalMade).nv.holdOwed = s.nv.holdOwed ∧ (s.journalMade).nv.policy = s.nv.policy ∧
      (s.journalMade).nv.fixedMarks = s.nv.fixedMarks ∧ (s.journalMade).nv.pendingMark = s.nv.pendingMark ∧
      (s.journalMade).nv.flags = s.nv.flags ∧ (s.journalMade).nv.serial = s.nv.serial := by
  simp only [State.journalMade]
  repeat' split
  all_goals first | rfl | (simp; done) | (simp_all; done)

@[simp] theorem State.journalFailed_inner (s : State) (now : Bool) :
    (s.journalFailed now).eng.queue = s.eng.queue ∧ (s.journalFailed now).eng.absence = s.eng.absence ∧
      (s.journalFailed now).eng.rollCount = s.eng.rollCount ∧ (s.journalFailed now).eng.serial = s.eng.serial ∧
      (s.journalFailed now).wipe.journal = s.wipe.journal ∧
      (s.journalFailed now).wipe.orderPending = s.wipe.orderPending ∧
      (s.journalFailed now).wipe.erase = s.wipe.erase ∧
      (s.journalFailed now).wipe.progressTimer = s.wipe.progressTimer ∧ (s.journalFailed now).stat.fit = s.stat.fit := by
  simp only [State.journalFailed]
  repeat' split
  all_goals first | rfl | (simp; done) | (simp_all; done)

@[simp] theorem State.credEndMade_inner (s : State) :
    (s.credEndMade).cred.plainKey = s.cred.plainKey ∧ (s.credEndMade).cred.genKey = s.cred.genKey ∧
      (s.credEndMade).wipe.journal = s.wipe.journal ∧ (s.credEndMade).wipe.again = s.wipe.again ∧
      (s.credEndMade).wipe.orderPending = s.wipe.orderPending ∧ (s.credEndMade).wipe.erase = s.wipe.erase ∧
      (s.credEndMade).wipe.progressTimer = s.wipe.progressTimer ∧ (s.credEndMade).nv.tally = s.nv.tally ∧
      (s.credEndMade).nv.holdOwed = s.nv.holdOwed ∧ (s.credEndMade).nv.policy = s.nv.policy ∧
      (s.credEndMade).nv.fixedMarks = s.nv.fixedMarks ∧ (s.credEndMade).nv.pendingMark = s.nv.pendingMark ∧
      (s.credEndMade).nv.journal = s.nv.journal ∧ (s.credEndMade).nv.flags = s.nv.flags ∧
      (s.credEndMade).nv.serial = s.nv.serial := by
  simp only [State.credEndMade]
  repeat' split
  all_goals first | rfl | (simp; done) | (simp_all; done)

@[simp] theorem State.eraseEnded_inner (s : State) (success : Bool) :
    (s.eraseEnded success).eng.queue = s.eng.queue ∧ (s.eraseEnded success).eng.absence = s.eng.absence ∧
      (s.eraseEnded success).eng.rollCount = s.eng.rollCount ∧ (s.eraseEnded success).eng.serial = s.eng.serial ∧
      (s.eraseEnded success).wipe.journal = s.wipe.journal ∧ (s.eraseEnded success).wipe.again = s.wipe.again ∧
      (s.eraseEnded success).wipe.orderPending = s.wipe.orderPending ∧
      (s.eraseEnded success).wipe.progressTimer = s.wipe.progressTimer ∧ (s.eraseEnded success).stat.fit = s.stat.fit := by
  simp only [State.eraseEnded]
  repeat' split
  all_goals first | rfl | (simp; done) | (simp_all; done)

@[simp] theorem State.abandonErase_inner (s : State) :
    (s.abandonErase).gate.fixedMarks = s.gate.fixedMarks ∧ (s.abandonErase).gate.markStore = s.gate.markStore ∧
      (s.abandonErase).gate.pendingMark = s.gate.pendingMark ∧ (s.abandonErase).gate.pmBusy = s.gate.pmBusy ∧
      (s.abandonErase).gate.pmWaiting = s.gate.pmWaiting ∧ (s.abandonErase).gate.session = s.gate.session ∧
      (s.abandonErase).gate.staging = s.gate.staging ∧ (s.abandonErase).gate.markLockOpen = s.gate.markLockOpen ∧
      (s.abandonErase).gate.presented = s.gate.presented ∧ (s.abandonErase).gate.outstanding = s.gate.outstanding ∧
      (s.abandonErase).gate.portReady = s.gate.portReady ∧ (s.abandonErase).wipe.journal = s.wipe.journal ∧
      (s.abandonErase).wipe.busy = s.wipe.busy ∧ (s.abandonErase).wipe.waiting = s.wipe.waiting ∧
      (s.abandonErase).wipe.again = s.wipe.again ∧ (s.abandonErase).wipe.orderPending = s.wipe.orderPending ∧
      (s.abandonErase).wipe.progressTimer = s.wipe.progressTimer := by
  simp only [State.abandonErase]
  repeat' split
  all_goals first | rfl | (simp; done) | (simp_all; done)

@[simp] theorem State.returnToBlank_inner (s : State) (badHi : Nat) :
    (s.returnToBlank badHi).gate.fixedMarks = s.gate.fixedMarks ∧
      (s.returnToBlank badHi).gate.markStore = s.gate.markStore ∧
      (s.returnToBlank badHi).gate.pendingMark = s.gate.pendingMark ∧
      (s.returnToBlank badHi).gate.pmBusy = s.gate.pmBusy ∧
      (s.returnToBlank badHi).gate.pmWaiting = s.gate.pmWaiting ∧
      (s.returnToBlank badHi).gate.staging = s.gate.staging ∧
      (s.returnToBlank badHi).gate.outstanding = s.gate.outstanding ∧
      (s.returnToBlank badHi).gate.portReady = s.gate.portReady ∧
      (s.returnToBlank badHi).gate.eraseWaiting = s.gate.eraseWaiting ∧
      (s.returnToBlank badHi).gate.yieldCount = s.gate.yieldCount ∧
      (s.returnToBlank badHi).eng.absence = s.eng.absence ∧ (s.returnToBlank badHi).eng.rollCount = s.eng.rollCount ∧
      (s.returnToBlank badHi).eng.serial = s.eng.serial ∧ (s.returnToBlank badHi).key.states = s.key.states ∧
      (s.returnToBlank badHi).key.debounce = s.key.debounce ∧ (s.returnToBlank badHi).key.setAside = s.key.setAside ∧
      (s.returnToBlank badHi).sup.state = s.sup.state ∧ (s.returnToBlank badHi).sup.warmup = s.sup.warmup ∧
      (s.returnToBlank badHi).sup.stn = s.sup.stn ∧ (s.returnToBlank badHi).sup.roster = s.sup.roster ∧
      (s.returnToBlank badHi).sup.step = s.sup.step ∧ (s.returnToBlank badHi).grd.matched = s.grd.matched ∧
      (s.returnToBlank badHi).grd.mustChange = s.grd.mustChange ∧
      (s.returnToBlank badHi).grd.batteryTimer = s.grd.batteryTimer ∧
      (s.returnToBlank badHi).grd.pulseTimer = s.grd.pulseTimer ∧
      (s.returnToBlank badHi).grd.holdDue = s.grd.holdDue ∧ (s.returnToBlank badHi).wipe.again = s.wipe.again ∧
      (s.returnToBlank badHi).wipe.orderPending = s.wipe.orderPending ∧
      (s.returnToBlank badHi).wipe.erase = s.wipe.erase ∧ (s.returnToBlank badHi).stat.fit = s.stat.fit := by
  simp only [State.returnToBlank]
  repeat' split
  all_goals first | rfl | (simp; done) | (simp_all; done)

@[simp] theorem State.endStarting_inner (s : State) (adopted : Bool) :
    (s.endStarting adopted).gate.pendingMark = s.gate.pendingMark ∧
      (s.endStarting adopted).gate.pmBusy = s.gate.pmBusy ∧
      (s.endStarting adopted).gate.pmWaiting = s.gate.pmWaiting ∧
      (s.endStarting adopted).gate.staging = s.gate.staging ∧
      (s.endStarting adopted).gate.outstanding = s.gate.outstanding ∧
      (s.endStarting adopted).gate.portReady = s.gate.portReady ∧ (s.endStarting adopted).eng.round = s.eng.round ∧
      (s.endStarting adopted).eng.absence = s.eng.absence ∧ (s.endStarting adopted).eng.rollCount = s.eng.rollCount ∧
      (s.endStarting adopted).eng.serial = s.eng.serial ∧ (s.endStarting adopted).key.states = s.key.states ∧
      (s.endStarting adopted).key.debounce = s.key.debounce ∧ (s.endStarting adopted).key.setAside = s.key.setAside ∧
      (s.endStarting adopted).cred.slots = s.cred.slots ∧ (s.endStarting adopted).cred.liveStamp = s.cred.liveStamp ∧
      (s.endStarting adopted).cred.pendingSlot = s.cred.pendingSlot ∧
      (s.endStarting adopted).cred.roundEntry = s.cred.roundEntry ∧
      (s.endStarting adopted).cred.roundChange = s.cred.roundChange ∧
      (s.endStarting adopted).cred.busy = s.cred.busy ∧ (s.endStarting adopted).cred.waiting = s.cred.waiting ∧
      (s.endStarting adopted).tal.tally = s.tal.tally ∧ (s.endStarting adopted).tal.tallyStore = s.tal.tallyStore ∧
      (s.endStarting adopted).sup.state = s.sup.state ∧ (s.endStarting adopted).sup.warmup = s.sup.warmup ∧
      (s.endStarting adopted).sup.stn = s.sup.stn ∧ (s.endStarting adopted).sup.roster = s.sup.roster ∧
      (s.endStarting adopted).sup.step = s.sup.step ∧ (s.endStarting adopted).grd.pulseTimer = s.grd.pulseTimer ∧
      (s.endStarting adopted).grd.holdDue = s.grd.holdDue ∧ (s.endStarting adopted).wipe.journal = s.wipe.journal ∧
      (s.endStarting adopted).wipe.again = s.wipe.again ∧
      (s.endStarting adopted).wipe.orderPending = s.wipe.orderPending := by
  simp only [State.endStarting]
  repeat' split
  all_goals first | rfl | (simp; done) | (simp_all; done)

@[simp] theorem State.appendDigit_inner (s : State) (d : Digit) :
    (s.appendDigit d).key.states = s.key.states ∧ (s.appendDigit d).key.debounce = s.key.debounce ∧
      (s.appendDigit d).key.mode = s.key.mode ∧ (s.appendDigit d).key.firstCode = s.key.firstCode ∧
      (s.appendDigit d).key.target = s.key.target ∧ (s.appendDigit d).key.command = s.key.command ∧
      (s.appendDigit d).key.shiftFreed = s.key.shiftFreed ∧ (s.appendDigit d).key.resetTimer = s.key.resetTimer ∧
      (s.appendDigit d).key.wipeWindow = s.key.wipeWindow ∧ (s.appendDigit d).key.heldEntry = s.key.heldEntry ∧
      (s.appendDigit d).key.heldChange = s.key.heldChange ∧ (s.appendDigit d).key.setAside = s.key.setAside := by
  simp only [State.appendDigit]
  repeat' split
  all_goals first | rfl | (simp; done) | (simp_all; done)

@[simp] theorem State.keypadIdle_inner (s : State) :
    (s.keypadIdle).key.states = s.key.states ∧ (s.keypadIdle).key.debounce = s.key.debounce ∧
      (s.keypadIdle).key.heldEntry = s.key.heldEntry ∧ (s.keypadIdle).key.heldChange = s.key.heldChange ∧
      (s.keypadIdle).key.setAside = s.key.setAside := by
  simp [State.keypadIdle, Keypad.toIdle]

@[simp] theorem State.keypadRefuse_inner (s : State) :
    (s.keypadRefuse).key.states = s.key.states ∧ (s.keypadRefuse).key.debounce = s.key.debounce ∧
      (s.keypadRefuse).key.heldEntry = s.key.heldEntry ∧ (s.keypadRefuse).key.heldChange = s.key.heldChange ∧
      (s.keypadRefuse).key.setAside = s.key.setAside ∧ (s.keypadRefuse).grd.state = s.grd.state ∧
      (s.keypadRefuse).grd.matched = s.grd.matched ∧ (s.keypadRefuse).grd.mustChange = s.grd.mustChange ∧
      (s.keypadRefuse).grd.batteryTimer = s.grd.batteryTimer ∧ (s.keypadRefuse).grd.holdDue = s.grd.holdDue := by
  simp only [State.keypadRefuse]
  repeat' split
  all_goals first | rfl | (simp; done) | (simp_all; done)

@[simp] theorem State.submit_inner (s : State) :
    (s.submit).eng.round = s.eng.round ∧ (s.submit).eng.absence = s.eng.absence ∧
      (s.submit).eng.rollCount = s.eng.rollCount ∧ (s.submit).eng.serial = s.eng.serial ∧
      (s.submit).key.states = s.key.states ∧ (s.submit).key.debounce = s.key.debounce ∧
      (s.submit).key.heldChange = s.key.heldChange ∧ (s.submit).key.setAside = s.key.setAside ∧
      (s.submit).grd.state = s.grd.state ∧ (s.submit).grd.matched = s.grd.matched ∧
      (s.submit).grd.mustChange = s.grd.mustChange ∧ (s.submit).grd.batteryTimer = s.grd.batteryTimer ∧
      (s.submit).grd.holdDue = s.grd.holdDue := by
  simp only [State.submit]
  repeat' split
  all_goals first | rfl | (simp; done) | (simp_all; done)

@[simp] theorem State.newCode_inner (s : State) (target : CodeSlotNo) (role : Role) :
    (s.newCode target role).key.states = s.key.states ∧ (s.newCode target role).key.debounce = s.key.debounce ∧
      (s.newCode target role).key.heldEntry = s.key.heldEntry ∧
      (s.newCode target role).key.heldChange = s.key.heldChange ∧
      (s.newCode target role).key.setAside = s.key.setAside := by
  simp only [State.newCode]
  repeat' split
  all_goals first | rfl | (simp; done) | (simp_all; done)

@[simp] theorem State.holdChange_inner (s : State) (target : CodeSlotNo) (role : Role) (code : List Digit) :
    (s.holdChange target role code).eng.round = s.eng.round ∧
      (s.holdChange target role code).eng.absence = s.eng.absence ∧
      (s.holdChange target role code).eng.rollCount = s.eng.rollCount ∧
      (s.holdChange target role code).eng.serial = s.eng.serial ∧
      (s.holdChange target role code).key.states = s.key.states ∧
      (s.holdChange target role code).key.debounce = s.key.debounce ∧
      (s.holdChange target role code).key.mode = s.key.mode ∧
      (s.holdChange target role code).key.buffer = s.key.buffer ∧
      (s.holdChange target role code).key.overlong = s.key.overlong ∧
      (s.holdChange target role code).key.firstCode = s.key.firstCode ∧
      (s.holdChange target role code).key.command = s.key.command ∧
      (s.holdChange target role code).key.shiftFreed = s.key.shiftFreed ∧
      (s.holdChange target role code).key.entryTimer = s.key.entryTimer ∧
      (s.holdChange target role code).key.resetTimer = s.key.resetTimer ∧
      (s.holdChange target role code).key.wipeWindow = s.key.wipeWindow ∧
      (s.holdChange target role code).key.heldEntry = s.key.heldEntry ∧
      (s.holdChange target role code).key.setAside = s.key.setAside := by
  simp only [State.holdChange]
  repeat' split
  all_goals first | rfl | (simp; done) | (simp_all; done)

@[simp] theorem State.firstCodeEntered_inner (s : State) :
    (s.firstCodeEntered).key.states = s.key.states ∧ (s.firstCodeEntered).key.debounce = s.key.debounce ∧
      (s.firstCodeEntered).key.target = s.key.target ∧ (s.firstCodeEntered).key.command = s.key.command ∧
      (s.firstCodeEntered).key.shiftFreed = s.key.shiftFreed ∧
      (s.firstCodeEntered).key.resetTimer = s.key.resetTimer ∧
      (s.firstCodeEntered).key.wipeWindow = s.key.wipeWindow ∧ (s.firstCodeEntered).key.heldEntry = s.key.heldEntry ∧
      (s.firstCodeEntered).key.heldChange = s.key.heldChange ∧ (s.firstCodeEntered).key.setAside = s.key.setAside := by
  simp only [State.firstCodeEntered]
  repeat' split
  all_goals first | rfl | (simp; done) | (simp_all; done)

@[simp] theorem State.secondCodeEntered_inner (s : State) :
    (s.secondCodeEntered).eng.round = s.eng.round ∧ (s.secondCodeEntered).eng.absence = s.eng.absence ∧
      (s.secondCodeEntered).eng.rollCount = s.eng.rollCount ∧ (s.secondCodeEntered).eng.serial = s.eng.serial ∧
      (s.secondCodeEntered).key.states = s.key.states ∧ (s.secondCodeEntered).key.debounce = s.key.debounce ∧
      (s.secondCodeEntered).key.heldEntry = s.key.heldEntry ∧ (s.secondCodeEntered).key.setAside = s.key.setAside ∧
      (s.secondCodeEntered).grd.state = s.grd.state ∧ (s.secondCodeEntered).grd.matched = s.grd.matched ∧
      (s.secondCodeEntered).grd.mustChange = s.grd.mustChange ∧
      (s.secondCodeEntered).grd.batteryTimer = s.grd.batteryTimer ∧ (s.secondCodeEntered).grd.holdDue = s.grd.holdDue := by
  simp only [State.secondCodeEntered]
  repeat' split
  all_goals first | rfl | (simp; done) | (simp_all; done)

@[simp] theorem State.openCommand_inner (s : State) (mode : KeypadMode) (chord : Digit) :
    (s.openCommand mode chord).key.states = s.key.states ∧ (s.openCommand mode chord).key.debounce = s.key.debounce ∧
      (s.openCommand mode chord).key.heldEntry = s.key.heldEntry ∧
      (s.openCommand mode chord).key.heldChange = s.key.heldChange ∧
      (s.openCommand mode chord).key.setAside = s.key.setAside := by
  simp only [State.openCommand]
  repeat' split
  all_goals first | rfl | (simp; done) | (simp_all; done)

@[simp] theorem State.commandDigit_inner (s : State) (d : Digit) :
    (s.commandDigit d).eng.round = s.eng.round ∧ (s.commandDigit d).eng.absence = s.eng.absence ∧
      (s.commandDigit d).eng.rollCount = s.eng.rollCount ∧ (s.commandDigit d).eng.serial = s.eng.serial ∧
      (s.commandDigit d).key.states = s.key.states ∧ (s.commandDigit d).key.debounce = s.key.debounce ∧
      (s.commandDigit d).key.heldEntry = s.key.heldEntry ∧ (s.commandDigit d).key.setAside = s.key.setAside ∧
      (s.commandDigit d).grd.state = s.grd.state ∧ (s.commandDigit d).grd.matched = s.grd.matched ∧
      (s.commandDigit d).grd.mustChange = s.grd.mustChange ∧
      (s.commandDigit d).grd.batteryTimer = s.grd.batteryTimer ∧ (s.commandDigit d).grd.holdDue = s.grd.holdDue := by
  simp only [State.commandDigit]
  repeat' split
  all_goals first | rfl | (simp; done) | (simp_all; done)

@[simp] theorem State.markDigit_inner (s : State) (d : Digit) :
    (s.markDigit d).key.states = s.key.states ∧ (s.markDigit d).key.debounce = s.key.debounce ∧
      (s.markDigit d).key.mode = s.key.mode ∧ (s.markDigit d).key.buffer = s.key.buffer ∧
      (s.markDigit d).key.overlong = s.key.overlong ∧ (s.markDigit d).key.firstCode = s.key.firstCode ∧
      (s.markDigit d).key.target = s.key.target ∧ (s.markDigit d).key.shiftFreed = s.key.shiftFreed ∧
      (s.markDigit d).key.resetTimer = s.key.resetTimer ∧ (s.markDigit d).key.wipeWindow = s.key.wipeWindow ∧
      (s.markDigit d).key.heldEntry = s.key.heldEntry ∧ (s.markDigit d).key.heldChange = s.key.heldChange ∧
      (s.markDigit d).key.setAside = s.key.setAside := by
  simp only [State.markDigit]
  repeat' split
  all_goals first | rfl | (simp; done) | (simp_all; done)

@[simp] theorem State.markEntered_inner (s : State) :
    (s.markEntered).eng.round = s.eng.round ∧ (s.markEntered).eng.absence = s.eng.absence ∧
      (s.markEntered).eng.rollCount = s.eng.rollCount ∧ (s.markEntered).eng.serial = s.eng.serial ∧
      (s.markEntered).key.states = s.key.states ∧ (s.markEntered).key.debounce = s.key.debounce ∧
      (s.markEntered).key.heldEntry = s.key.heldEntry ∧ (s.markEntered).key.heldChange = s.key.heldChange ∧
      (s.markEntered).key.setAside = s.key.setAside ∧ (s.markEntered).grd.state = s.grd.state ∧
      (s.markEntered).grd.matched = s.grd.matched ∧ (s.markEntered).grd.mustChange = s.grd.mustChange ∧
      (s.markEntered).grd.batteryTimer = s.grd.batteryTimer ∧ (s.markEntered).grd.holdDue = s.grd.holdDue := by
  simp only [State.markEntered]
  repeat' split
  all_goals first | rfl | (simp; done) | (simp_all; done)

@[simp] theorem State.keypadLock_inner (s : State) :
    (s.keypadLock).gate.fixedMarks = s.gate.fixedMarks ∧ (s.keypadLock).gate.markStore = s.gate.markStore ∧
      (s.keypadLock).gate.pendingMark = s.gate.pendingMark ∧ (s.keypadLock).gate.pmBusy = s.gate.pmBusy ∧
      (s.keypadLock).gate.pmWaiting = s.gate.pmWaiting ∧ (s.keypadLock).gate.staging = s.gate.staging ∧
      (s.keypadLock).gate.outstanding = s.gate.outstanding ∧ (s.keypadLock).gate.portReady = s.gate.portReady ∧
      (s.keypadLock).gate.eraseWaiting = s.gate.eraseWaiting ∧ (s.keypadLock).gate.yieldCount = s.gate.yieldCount ∧
      (s.keypadLock).eng.round = s.eng.round ∧ (s.keypadLock).eng.absence = s.eng.absence ∧
      (s.keypadLock).eng.rollCount = s.eng.rollCount ∧ (s.keypadLock).eng.serial = s.eng.serial ∧
      (s.keypadLock).key.states = s.key.states ∧ (s.keypadLock).key.debounce = s.key.debounce ∧
      (s.keypadLock).key.setAside = s.key.setAside ∧ (s.keypadLock).cred.slots = s.cred.slots ∧
      (s.keypadLock).cred.liveStamp = s.cred.liveStamp ∧ (s.keypadLock).cred.pendingSlot = s.cred.pendingSlot ∧
      (s.keypadLock).cred.genKey = s.cred.genKey ∧ (s.keypadLock).cred.roundEntry = s.cred.roundEntry ∧
      (s.keypadLock).cred.roundChange = s.cred.roundChange ∧ (s.keypadLock).cred.busy = s.cred.busy ∧
      (s.keypadLock).cred.waiting = s.cred.waiting ∧ (s.keypadLock).sup.state = s.sup.state ∧
      (s.keypadLock).sup.warmup = s.sup.warmup ∧ (s.keypadLock).sup.stn = s.sup.stn ∧
      (s.keypadLock).sup.roster = s.sup.roster ∧ (s.keypadLock).sup.step = s.sup.step ∧
      (s.keypadLock).grd.pulseTimer = s.grd.pulseTimer ∧ (s.keypadLock).grd.holdDue = s.grd.holdDue := by
  simp only [State.keypadLock]
  repeat' split
  all_goals first | rfl | (simp; done) | (simp_all; done)

@[simp] theorem State.sessionToggle_inner (s : State) :
    (s.sessionToggle).eng.round = s.eng.round ∧ (s.sessionToggle).eng.absence = s.eng.absence ∧
      (s.sessionToggle).eng.rollCount = s.eng.rollCount ∧ (s.sessionToggle).eng.serial = s.eng.serial := by
  simp only [State.sessionToggle]
  repeat' split
  all_goals first | rfl | (simp; done) | (simp_all; done)

@[simp] theorem State.toggleMarkLock_inner (s : State) :
    (s.toggleMarkLock).gate.fixedMarks = s.gate.fixedMarks ∧ (s.toggleMarkLock).gate.markStore = s.gate.markStore ∧
      (s.toggleMarkLock).gate.pendingMark = s.gate.pendingMark ∧ (s.toggleMarkLock).gate.pmBusy = s.gate.pmBusy ∧
      (s.toggleMarkLock).gate.pmWaiting = s.gate.pmWaiting ∧ (s.toggleMarkLock).gate.session = s.gate.session ∧
      (s.toggleMarkLock).gate.staging = s.gate.staging ∧ (s.toggleMarkLock).gate.presented = s.gate.presented ∧
      (s.toggleMarkLock).gate.outstanding = s.gate.outstanding ∧
      (s.toggleMarkLock).gate.portReady = s.gate.portReady ∧
      (s.toggleMarkLock).gate.eraseWaiting = s.gate.eraseWaiting ∧
      (s.toggleMarkLock).gate.yieldCount = s.gate.yieldCount := by
  simp only [State.toggleMarkLock]
  repeat' split
  all_goals first | rfl | (simp; done) | (simp_all; done)

@[simp] theorem State.chordInIdle_inner (s : State) (d : Digit) :
    (s.chordInIdle d).gate.fixedMarks = s.gate.fixedMarks ∧ (s.chordInIdle d).gate.markStore = s.gate.markStore ∧
      (s.chordInIdle d).gate.pendingMark = s.gate.pendingMark ∧ (s.chordInIdle d).gate.pmBusy = s.gate.pmBusy ∧
      (s.chordInIdle d).gate.pmWaiting = s.gate.pmWaiting ∧ (s.chordInIdle d).gate.staging = s.gate.staging ∧
      (s.chordInIdle d).gate.outstanding = s.gate.outstanding ∧ (s.chordInIdle d).gate.portReady = s.gate.portReady ∧
      (s.chordInIdle d).gate.eraseWaiting = s.gate.eraseWaiting ∧
      (s.chordInIdle d).gate.yieldCount = s.gate.yieldCount ∧ (s.chordInIdle d).eng.round = s.eng.round ∧
      (s.chordInIdle d).eng.absence = s.eng.absence ∧ (s.chordInIdle d).eng.rollCount = s.eng.rollCount ∧
      (s.chordInIdle d).eng.serial = s.eng.serial ∧ (s.chordInIdle d).key.states = s.key.states ∧
      (s.chordInIdle d).key.debounce = s.key.debounce ∧ (s.chordInIdle d).key.setAside = s.key.setAside ∧
      (s.chordInIdle d).cred.slots = s.cred.slots ∧ (s.chordInIdle d).cred.liveStamp = s.cred.liveStamp ∧
      (s.chordInIdle d).cred.pendingSlot = s.cred.pendingSlot ∧ (s.chordInIdle d).cred.genKey = s.cred.genKey ∧
      (s.chordInIdle d).cred.roundEntry = s.cred.roundEntry ∧
      (s.chordInIdle d).cred.roundChange = s.cred.roundChange ∧ (s.chordInIdle d).cred.busy = s.cred.busy ∧
      (s.chordInIdle d).cred.waiting = s.cred.waiting ∧ (s.chordInIdle d).pol.table = s.pol.table ∧
      (s.chordInIdle d).pol.store = s.pol.store ∧ (s.chordInIdle d).pol.last = s.pol.last ∧
      (s.chordInIdle d).pol.memos = s.pol.memos ∧ (s.chordInIdle d).pol.timers = s.pol.timers ∧
      (s.chordInIdle d).pol.latch = s.pol.latch ∧ (s.chordInIdle d).sup.state = s.sup.state ∧
      (s.chordInIdle d).sup.warmup = s.sup.warmup ∧ (s.chordInIdle d).sup.stn = s.sup.stn ∧
      (s.chordInIdle d).sup.roster = s.sup.roster ∧ (s.chordInIdle d).sup.step = s.sup.step ∧
      (s.chordInIdle d).grd.holdDue = s.grd.holdDue := by
  simp only [State.chordInIdle]
  repeat' split
  all_goals first | rfl | (simp; done) | (simp_all; done)

@[simp] theorem State.takeChord_inner (s : State) (d : Digit) :
    (s.takeChord d).gate.fixedMarks = s.gate.fixedMarks ∧ (s.takeChord d).gate.markStore = s.gate.markStore ∧
      (s.takeChord d).gate.pendingMark = s.gate.pendingMark ∧ (s.takeChord d).gate.pmBusy = s.gate.pmBusy ∧
      (s.takeChord d).gate.pmWaiting = s.gate.pmWaiting ∧ (s.takeChord d).gate.staging = s.gate.staging ∧
      (s.takeChord d).gate.outstanding = s.gate.outstanding ∧ (s.takeChord d).gate.portReady = s.gate.portReady ∧
      (s.takeChord d).gate.eraseWaiting = s.gate.eraseWaiting ∧ (s.takeChord d).gate.yieldCount = s.gate.yieldCount ∧
      (s.takeChord d).eng.round = s.eng.round ∧ (s.takeChord d).eng.absence = s.eng.absence ∧
      (s.takeChord d).eng.rollCount = s.eng.rollCount ∧ (s.takeChord d).eng.serial = s.eng.serial ∧
      (s.takeChord d).key.states = s.key.states ∧ (s.takeChord d).key.debounce = s.key.debounce ∧
      (s.takeChord d).key.setAside = s.key.setAside ∧ (s.takeChord d).cred.slots = s.cred.slots ∧
      (s.takeChord d).cred.liveStamp = s.cred.liveStamp ∧ (s.takeChord d).cred.pendingSlot = s.cred.pendingSlot ∧
      (s.takeChord d).cred.genKey = s.cred.genKey ∧ (s.takeChord d).cred.roundEntry = s.cred.roundEntry ∧
      (s.takeChord d).cred.roundChange = s.cred.roundChange ∧ (s.takeChord d).cred.busy = s.cred.busy ∧
      (s.takeChord d).cred.waiting = s.cred.waiting ∧ (s.takeChord d).pol.table = s.pol.table ∧
      (s.takeChord d).pol.store = s.pol.store ∧ (s.takeChord d).pol.last = s.pol.last ∧
      (s.takeChord d).pol.memos = s.pol.memos ∧ (s.takeChord d).pol.timers = s.pol.timers ∧
      (s.takeChord d).pol.latch = s.pol.latch ∧ (s.takeChord d).sup.state = s.sup.state ∧
      (s.takeChord d).sup.warmup = s.sup.warmup ∧ (s.takeChord d).sup.stn = s.sup.stn ∧
      (s.takeChord d).sup.roster = s.sup.roster ∧ (s.takeChord d).sup.step = s.sup.step ∧
      (s.takeChord d).grd.holdDue = s.grd.holdDue := by
  simp only [State.takeChord]
  repeat' split
  all_goals first | rfl | (simp; done) | (simp_all; done)

@[simp] theorem State.takeChordUnlock_inner (s : State) :
    (s.takeChordUnlock).key.states = s.key.states ∧ (s.takeChordUnlock).key.debounce = s.key.debounce ∧
      (s.takeChordUnlock).key.heldEntry = s.key.heldEntry ∧ (s.takeChordUnlock).key.heldChange = s.key.heldChange ∧
      (s.takeChordUnlock).key.setAside = s.key.setAside ∧ (s.takeChordUnlock).grd.state = s.grd.state ∧
      (s.takeChordUnlock).grd.matched = s.grd.matched ∧ (s.takeChordUnlock).grd.mustChange = s.grd.mustChange ∧
      (s.takeChordUnlock).grd.batteryTimer = s.grd.batteryTimer ∧ (s.takeChordUnlock).grd.holdDue = s.grd.holdDue := by
  simp only [State.takeChordUnlock]
  repeat' split
  all_goals first | rfl | (simp; done) | (simp_all; done)

@[simp] theorem State.takeDigit_inner (s : State) (d : Digit) :
    (s.takeDigit d).eng.round = s.eng.round ∧ (s.takeDigit d).eng.absence = s.eng.absence ∧
      (s.takeDigit d).eng.rollCount = s.eng.rollCount ∧ (s.takeDigit d).eng.serial = s.eng.serial ∧
      (s.takeDigit d).key.states = s.key.states ∧ (s.takeDigit d).key.debounce = s.key.debounce ∧
      (s.takeDigit d).key.heldEntry = s.key.heldEntry ∧ (s.takeDigit d).key.setAside = s.key.setAside ∧
      (s.takeDigit d).grd.state = s.grd.state ∧ (s.takeDigit d).grd.matched = s.grd.matched ∧
      (s.takeDigit d).grd.mustChange = s.grd.mustChange ∧ (s.takeDigit d).grd.batteryTimer = s.grd.batteryTimer ∧
      (s.takeDigit d).grd.holdDue = s.grd.holdDue := by
  simp only [State.takeDigit]
  repeat' split
  all_goals first | rfl | (simp; done) | (simp_all; done)

@[simp] theorem State.takeUnlock_inner (s : State) :
    (s.takeUnlock).eng.round = s.eng.round ∧ (s.takeUnlock).eng.absence = s.eng.absence ∧
      (s.takeUnlock).eng.rollCount = s.eng.rollCount ∧ (s.takeUnlock).eng.serial = s.eng.serial ∧
      (s.takeUnlock).key.states = s.key.states ∧ (s.takeUnlock).key.debounce = s.key.debounce ∧
      (s.takeUnlock).key.setAside = s.key.setAside ∧ (s.takeUnlock).grd.state = s.grd.state ∧
      (s.takeUnlock).grd.matched = s.grd.matched ∧ (s.takeUnlock).grd.mustChange = s.grd.mustChange ∧
      (s.takeUnlock).grd.batteryTimer = s.grd.batteryTimer ∧ (s.takeUnlock).grd.holdDue = s.grd.holdDue := by
  simp only [State.takeUnlock]
  repeat' split
  all_goals first | rfl | (simp; done) | (simp_all; done)

@[simp] theorem State.takePress_inner (s : State) (k : Key) :
    (s.takePress k).gate.fixedMarks = s.gate.fixedMarks ∧ (s.takePress k).gate.markStore = s.gate.markStore ∧
      (s.takePress k).gate.pendingMark = s.gate.pendingMark ∧ (s.takePress k).gate.pmBusy = s.gate.pmBusy ∧
      (s.takePress k).gate.pmWaiting = s.gate.pmWaiting ∧ (s.takePress k).gate.staging = s.gate.staging ∧
      (s.takePress k).gate.outstanding = s.gate.outstanding ∧ (s.takePress k).gate.portReady = s.gate.portReady ∧
      (s.takePress k).gate.eraseWaiting = s.gate.eraseWaiting ∧ (s.takePress k).gate.yieldCount = s.gate.yieldCount ∧
      (s.takePress k).eng.round = s.eng.round ∧ (s.takePress k).eng.absence = s.eng.absence ∧
      (s.takePress k).eng.rollCount = s.eng.rollCount ∧ (s.takePress k).eng.serial = s.eng.serial ∧
      (s.takePress k).key.states = s.key.states ∧ (s.takePress k).key.debounce = s.key.debounce ∧
      (s.takePress k).key.setAside = s.key.setAside ∧ (s.takePress k).cred.slots = s.cred.slots ∧
      (s.takePress k).cred.liveStamp = s.cred.liveStamp ∧ (s.takePress k).cred.pendingSlot = s.cred.pendingSlot ∧
      (s.takePress k).cred.genKey = s.cred.genKey ∧ (s.takePress k).cred.roundEntry = s.cred.roundEntry ∧
      (s.takePress k).cred.roundChange = s.cred.roundChange ∧ (s.takePress k).cred.busy = s.cred.busy ∧
      (s.takePress k).cred.waiting = s.cred.waiting ∧ (s.takePress k).pol.table = s.pol.table ∧
      (s.takePress k).pol.store = s.pol.store ∧ (s.takePress k).pol.last = s.pol.last ∧
      (s.takePress k).pol.memos = s.pol.memos ∧ (s.takePress k).pol.timers = s.pol.timers ∧
      (s.takePress k).pol.latch = s.pol.latch ∧ (s.takePress k).sup.state = s.sup.state ∧
      (s.takePress k).sup.warmup = s.sup.warmup ∧ (s.takePress k).sup.stn = s.sup.stn ∧
      (s.takePress k).sup.roster = s.sup.roster ∧ (s.takePress k).sup.step = s.sup.step ∧
      (s.takePress k).grd.holdDue = s.grd.holdDue := by
  simp only [State.takePress]
  repeat' split
  all_goals first | rfl | (simp; done) | (simp_all; done)

@[simp] theorem State.press_inner (s : State) (k : Key) :
    (s.press k).gate.fixedMarks = s.gate.fixedMarks ∧ (s.press k).gate.markStore = s.gate.markStore ∧
      (s.press k).gate.pendingMark = s.gate.pendingMark ∧ (s.press k).gate.pmBusy = s.gate.pmBusy ∧
      (s.press k).gate.pmWaiting = s.gate.pmWaiting ∧ (s.press k).gate.staging = s.gate.staging ∧
      (s.press k).gate.outstanding = s.gate.outstanding ∧ (s.press k).gate.portReady = s.gate.portReady ∧
      (s.press k).gate.eraseWaiting = s.gate.eraseWaiting ∧ (s.press k).gate.yieldCount = s.gate.yieldCount ∧
      (s.press k).eng.round = s.eng.round ∧ (s.press k).eng.absence = s.eng.absence ∧
      (s.press k).eng.rollCount = s.eng.rollCount ∧ (s.press k).eng.serial = s.eng.serial ∧
      (s.press k).key.states = s.key.states ∧ (s.press k).key.debounce = s.key.debounce ∧
      (s.press k).cred.slots = s.cred.slots ∧ (s.press k).cred.liveStamp = s.cred.liveStamp ∧
      (s.press k).cred.pendingSlot = s.cred.pendingSlot ∧ (s.press k).cred.genKey = s.cred.genKey ∧
      (s.press k).cred.roundEntry = s.cred.roundEntry ∧ (s.press k).cred.roundChange = s.cred.roundChange ∧
      (s.press k).cred.busy = s.cred.busy ∧ (s.press k).cred.waiting = s.cred.waiting ∧
      (s.press k).pol.table = s.pol.table ∧ (s.press k).pol.store = s.pol.store ∧ (s.press k).pol.last = s.pol.last ∧
      (s.press k).pol.memos = s.pol.memos ∧ (s.press k).pol.timers = s.pol.timers ∧
      (s.press k).pol.latch = s.pol.latch ∧ (s.press k).sup.state = s.sup.state ∧
      (s.press k).sup.warmup = s.sup.warmup ∧ (s.press k).sup.stn = s.sup.stn ∧
      (s.press k).sup.roster = s.sup.roster ∧ (s.press k).sup.step = s.sup.step ∧
      (s.press k).grd.holdDue = s.grd.holdDue := by
  simp only [State.press]
  repeat' split
  all_goals first | rfl | (simp; done) | (simp_all; done)

@[simp] theorem foldl_takePress_inner (l : List Key) (s : State) :
    (l.foldl State.takePress s).gate.fixedMarks = s.gate.fixedMarks ∧
      (l.foldl State.takePress s).gate.markStore = s.gate.markStore ∧
      (l.foldl State.takePress s).gate.pendingMark = s.gate.pendingMark ∧
      (l.foldl State.takePress s).gate.pmBusy = s.gate.pmBusy ∧
      (l.foldl State.takePress s).gate.pmWaiting = s.gate.pmWaiting ∧
      (l.foldl State.takePress s).gate.staging = s.gate.staging ∧
      (l.foldl State.takePress s).gate.outstanding = s.gate.outstanding ∧
      (l.foldl State.takePress s).gate.portReady = s.gate.portReady ∧
      (l.foldl State.takePress s).gate.eraseWaiting = s.gate.eraseWaiting ∧
      (l.foldl State.takePress s).gate.yieldCount = s.gate.yieldCount ∧
      (l.foldl State.takePress s).eng.round = s.eng.round ∧ (l.foldl State.takePress s).eng.absence = s.eng.absence ∧
      (l.foldl State.takePress s).eng.rollCount = s.eng.rollCount ∧
      (l.foldl State.takePress s).eng.serial = s.eng.serial ∧ (l.foldl State.takePress s).key.states = s.key.states ∧
      (l.foldl State.takePress s).key.debounce = s.key.debounce ∧
      (l.foldl State.takePress s).key.setAside = s.key.setAside ∧
      (l.foldl State.takePress s).cred.slots = s.cred.slots ∧
      (l.foldl State.takePress s).cred.liveStamp = s.cred.liveStamp ∧
      (l.foldl State.takePress s).cred.pendingSlot = s.cred.pendingSlot ∧
      (l.foldl State.takePress s).cred.genKey = s.cred.genKey ∧
      (l.foldl State.takePress s).cred.roundEntry = s.cred.roundEntry ∧
      (l.foldl State.takePress s).cred.roundChange = s.cred.roundChange ∧
      (l.foldl State.takePress s).cred.busy = s.cred.busy ∧
      (l.foldl State.takePress s).cred.waiting = s.cred.waiting ∧
      (l.foldl State.takePress s).pol.table = s.pol.table ∧ (l.foldl State.takePress s).pol.store = s.pol.store ∧
      (l.foldl State.takePress s).pol.last = s.pol.last ∧ (l.foldl State.takePress s).pol.memos = s.pol.memos ∧
      (l.foldl State.takePress s).pol.timers = s.pol.timers ∧ (l.foldl State.takePress s).pol.latch = s.pol.latch ∧
      (l.foldl State.takePress s).sup.state = s.sup.state ∧ (l.foldl State.takePress s).sup.warmup = s.sup.warmup ∧
      (l.foldl State.takePress s).sup.stn = s.sup.stn ∧ (l.foldl State.takePress s).sup.roster = s.sup.roster ∧
      (l.foldl State.takePress s).sup.step = s.sup.step ∧ (l.foldl State.takePress s).grd.holdDue = s.grd.holdDue := by
  induction l generalizing s with
  | nil => simp
  | cons x l ih => simp [ih]

@[simp] theorem State.takeSetAside_inner (s : State) :
    (s.takeSetAside).gate.fixedMarks = s.gate.fixedMarks ∧ (s.takeSetAside).gate.markStore = s.gate.markStore ∧
      (s.takeSetAside).gate.pendingMark = s.gate.pendingMark ∧ (s.takeSetAside).gate.pmBusy = s.gate.pmBusy ∧
      (s.takeSetAside).gate.pmWaiting = s.gate.pmWaiting ∧ (s.takeSetAside).gate.staging = s.gate.staging ∧
      (s.takeSetAside).gate.outstanding = s.gate.outstanding ∧ (s.takeSetAside).gate.portReady = s.gate.portReady ∧
      (s.takeSetAside).gate.eraseWaiting = s.gate.eraseWaiting ∧
      (s.takeSetAside).gate.yieldCount = s.gate.yieldCount ∧ (s.takeSetAside).eng.round = s.eng.round ∧
      (s.takeSetAside).eng.absence = s.eng.absence ∧ (s.takeSetAside).eng.rollCount = s.eng.rollCount ∧
      (s.takeSetAside).eng.serial = s.eng.serial ∧ (s.takeSetAside).key.states = s.key.states ∧
      (s.takeSetAside).key.debounce = s.key.debounce ∧ (s.takeSetAside).cred.slots = s.cred.slots ∧
      (s.takeSetAside).cred.liveStamp = s.cred.liveStamp ∧ (s.takeSetAside).cred.pendingSlot = s.cred.pendingSlot ∧
      (s.takeSetAside).cred.genKey = s.cred.genKey ∧ (s.takeSetAside).cred.roundEntry = s.cred.roundEntry ∧
      (s.takeSetAside).cred.roundChange = s.cred.roundChange ∧ (s.takeSetAside).cred.busy = s.cred.busy ∧
      (s.takeSetAside).cred.waiting = s.cred.waiting ∧ (s.takeSetAside).pol.table = s.pol.table ∧
      (s.takeSetAside).pol.store = s.pol.store ∧ (s.takeSetAside).pol.last = s.pol.last ∧
      (s.takeSetAside).pol.memos = s.pol.memos ∧ (s.takeSetAside).pol.timers = s.pol.timers ∧
      (s.takeSetAside).pol.latch = s.pol.latch ∧ (s.takeSetAside).sup.state = s.sup.state ∧
      (s.takeSetAside).sup.warmup = s.sup.warmup ∧ (s.takeSetAside).sup.stn = s.sup.stn ∧
      (s.takeSetAside).sup.roster = s.sup.roster ∧ (s.takeSetAside).sup.step = s.sup.step ∧
      (s.takeSetAside).grd.holdDue = s.grd.holdDue := by
  simp only [State.takeSetAside]
  repeat' split
  all_goals first | rfl | (simp; done) | (simp_all; done)

@[simp] theorem State.dropSetAside_inner (s : State) :
    (s.dropSetAside).key.states = s.key.states ∧ (s.dropSetAside).key.debounce = s.key.debounce ∧
      (s.dropSetAside).key.mode = s.key.mode ∧ (s.dropSetAside).key.buffer = s.key.buffer ∧
      (s.dropSetAside).key.overlong = s.key.overlong ∧ (s.dropSetAside).key.firstCode = s.key.firstCode ∧
      (s.dropSetAside).key.target = s.key.target ∧ (s.dropSetAside).key.command = s.key.command ∧
      (s.dropSetAside).key.shiftFreed = s.key.shiftFreed ∧ (s.dropSetAside).key.entryTimer = s.key.entryTimer ∧
      (s.dropSetAside).key.resetTimer = s.key.resetTimer ∧ (s.dropSetAside).key.wipeWindow = s.key.wipeWindow ∧
      (s.dropSetAside).key.heldEntry = s.key.heldEntry ∧ (s.dropSetAside).key.heldChange = s.key.heldChange := by
  simp only [State.dropSetAside]
  repeat' split
  all_goals first | rfl | (simp; done) | (simp_all; done)

@[simp] theorem State.tallyMade_inner (s : State) :
    (s.tallyMade).tal.deadline = s.tal.deadline ∧ (s.tallyMade).tal.holdOwed = s.tal.holdOwed ∧
      (s.tallyMade).tal.owedStore = s.tal.owedStore ∧ (s.tallyMade).nv.slots = s.nv.slots ∧
      (s.tallyMade).nv.liveStamp = s.nv.liveStamp ∧ (s.tallyMade).nv.pendingSlot = s.nv.pendingSlot ∧
      (s.tallyMade).nv.holdOwed = s.nv.holdOwed ∧ (s.tallyMade).nv.policy = s.nv.policy ∧
      (s.tallyMade).nv.fixedMarks = s.nv.fixedMarks ∧ (s.tallyMade).nv.pendingMark = s.nv.pendingMark ∧
      (s.tallyMade).nv.journal = s.nv.journal ∧ (s.tallyMade).nv.flags = s.nv.flags ∧
      (s.tallyMade).nv.serial = s.nv.serial := by
  simp only [State.tallyMade]
  repeat' split
  all_goals first | rfl | (simp; done) | (simp_all; done)

@[simp] theorem State.tallyFailed_inner (s : State) (now : Bool) :
    (s.tallyFailed now).eng.queue = s.eng.queue ∧ (s.tallyFailed now).eng.absence = s.eng.absence ∧
      (s.tallyFailed now).eng.rollCount = s.eng.rollCount ∧ (s.tallyFailed now).eng.serial = s.eng.serial ∧
      (s.tallyFailed now).tal.tally = s.tal.tally ∧ (s.tallyFailed now).tal.deadline = s.tal.deadline ∧
      (s.tallyFailed now).tal.holdOwed = s.tal.holdOwed ∧ (s.tallyFailed now).tal.owedStore = s.tal.owedStore ∧
      (s.tallyFailed now).stat.fit = s.stat.fit := by
  simp only [State.tallyFailed]
  repeat' split
  all_goals first | rfl | (simp; done) | (simp_all; done)

@[simp] theorem State.repeatTallyAndOwed_inner (s : State) :
    (s.repeatTallyAndOwed).tal.tally = s.tal.tally ∧ (s.repeatTallyAndOwed).tal.deadline = s.tal.deadline ∧
      (s.repeatTallyAndOwed).tal.holdOwed = s.tal.holdOwed := by
  simp only [State.repeatTallyAndOwed]
  repeat' split
  all_goals first | rfl | (simp; done) | (simp_all; done)

@[simp] theorem State.unsend_inner (s : State) :
    (s.unsend).eng.round = s.eng.round ∧ (s.unsend).eng.absence = s.eng.absence ∧
      (s.unsend).eng.rollCount = s.eng.rollCount ∧ (s.unsend).eng.serial = s.eng.serial ∧
      (s.unsend).line.view = s.line.view ∧ (s.unsend).line.role = s.line.role ∧ (s.unsend).line.pos = s.line.pos ∧
      (s.unsend).line.idleTimer = s.line.idleTimer ∧ (s.unsend).line.stuckTimer = s.line.stuckTimer ∧
      (s.unsend).line.holdTimer = s.line.holdTimer ∧ (s.unsend).line.offer = s.line.offer ∧
      (s.unsend).line.tail = s.line.tail := by
  simp only [State.unsend]
  repeat' split
  all_goals first | rfl | (simp; done) | (simp_all; done)

@[simp] theorem State.offerRound_inner (s : State) :
    (s.offerRound).eng.round = s.eng.round ∧ (s.offerRound).eng.absence = s.eng.absence ∧
      (s.offerRound).eng.rollCount = s.eng.rollCount ∧ (s.offerRound).eng.serial = s.eng.serial := by
  simp only [State.offerRound]
  repeat' split
  all_goals first | rfl | (simp; done) | (simp_all; done)

@[simp] theorem State.startRound_inner (s : State) :
    (s.startRound).eng.absence = s.eng.absence ∧ (s.startRound).eng.rollCount = s.eng.rollCount ∧
      (s.startRound).eng.serial = s.eng.serial ∧ (s.startRound).sup.state = s.sup.state ∧
      (s.startRound).sup.warmup = s.sup.warmup ∧ (s.startRound).sup.stn = s.sup.stn ∧
      (s.startRound).sup.roster = s.sup.roster ∧ (s.startRound).sup.step = s.sup.step := by
  simp only [State.startRound]
  repeat' split
  all_goals first | rfl | (simp; done) | (simp_all; done)

@[simp] theorem State.holds_inner (s : State) :
    (s.holds).line.view = s.line.view ∧ (s.holds).line.role = s.line.role ∧ (s.holds).line.pos = s.line.pos ∧
      (s.holds).line.idleTimer = s.line.idleTimer ∧ (s.holds).line.stuckTimer = s.line.stuckTimer ∧
      (s.holds).line.holdTimer = s.line.holdTimer ∧ (s.holds).line.offer = s.line.offer ∧
      (s.holds).line.header = s.line.header ∧ (s.holds).line.tail = s.line.tail := by
  simp only [State.holds]
  repeat' split
  all_goals first | rfl | (simp; done) | (simp_all; done)

@[simp] theorem State.mapRound_inner (s : State) (f : RoundRec → RoundRec) :
    (s.mapRound f).eng.queue = s.eng.queue ∧ (s.mapRound f).eng.absence = s.eng.absence ∧
      (s.mapRound f).eng.rollCount = s.eng.rollCount ∧ (s.mapRound f).eng.serial = s.eng.serial := by
  simp only [State.mapRound]
  repeat' split
  all_goals first | rfl | (simp; done) | (simp_all; done)

@[simp] theorem State.holdMarkCheck_inner (s : State) (r : RoundRec) :
    (s.holdMarkCheck r).tal.deadline = s.tal.deadline ∧ (s.holdMarkCheck r).tal.holdOwed = s.tal.holdOwed ∧
      (s.holdMarkCheck r).tal.owedStore = s.tal.owedStore ∧ (s.holdMarkCheck r).line.view = s.line.view ∧
      (s.holdMarkCheck r).line.role = s.line.role ∧ (s.holdMarkCheck r).line.pos = s.line.pos ∧
      (s.holdMarkCheck r).line.idleTimer = s.line.idleTimer ∧
      (s.holdMarkCheck r).line.stuckTimer = s.line.stuckTimer ∧
      (s.holdMarkCheck r).line.holdTimer = s.line.holdTimer ∧ (s.holdMarkCheck r).line.offer = s.line.offer ∧
      (s.holdMarkCheck r).line.header = s.line.header ∧ (s.holdMarkCheck r).line.tail = s.line.tail := by
  simp only [State.holdMarkCheck]
  repeat' split
  all_goals first | rfl | (simp; done) | (simp_all; done)

@[simp] theorem State.holdMarkSetcode_inner (s : State) (r : RoundRec) :
    (s.holdMarkSetcode r).eng.queue = s.eng.queue ∧ (s.holdMarkSetcode r).eng.absence = s.eng.absence ∧
      (s.holdMarkSetcode r).eng.rollCount = s.eng.rollCount ∧ (s.holdMarkSetcode r).eng.serial = s.eng.serial ∧
      (s.holdMarkSetcode r).cred.slots = s.cred.slots ∧ (s.holdMarkSetcode r).cred.liveStamp = s.cred.liveStamp ∧
      (s.holdMarkSetcode r).cred.plainKey = s.cred.plainKey ∧
      (s.holdMarkSetcode r).cred.roundEntry = s.cred.roundEntry ∧
      (s.holdMarkSetcode r).cred.roundChange = s.cred.roundChange ∧ (s.holdMarkSetcode r).line.view = s.line.view ∧
      (s.holdMarkSetcode r).line.role = s.line.role ∧ (s.holdMarkSetcode r).line.pos = s.line.pos ∧
      (s.holdMarkSetcode r).line.idleTimer = s.line.idleTimer ∧
      (s.holdMarkSetcode r).line.stuckTimer = s.line.stuckTimer ∧
      (s.holdMarkSetcode r).line.holdTimer = s.line.holdTimer ∧ (s.holdMarkSetcode r).line.offer = s.line.offer ∧
      (s.holdMarkSetcode r).line.header = s.line.header ∧ (s.holdMarkSetcode r).line.tail = s.line.tail ∧
      (s.holdMarkSetcode r).nv.slots = s.nv.slots ∧ (s.holdMarkSetcode r).nv.liveStamp = s.nv.liveStamp ∧
      (s.holdMarkSetcode r).nv.tally = s.nv.tally ∧ (s.holdMarkSetcode r).nv.holdOwed = s.nv.holdOwed ∧
      (s.holdMarkSetcode r).nv.policy = s.nv.policy ∧ (s.holdMarkSetcode r).nv.fixedMarks = s.nv.fixedMarks ∧
      (s.holdMarkSetcode r).nv.pendingMark = s.nv.pendingMark ∧ (s.holdMarkSetcode r).nv.journal = s.nv.journal ∧
      (s.holdMarkSetcode r).nv.flags = s.nv.flags ∧ (s.holdMarkSetcode r).nv.serial = s.nv.serial := by
  simp only [State.holdMarkSetcode]
  repeat' split
  all_goals first | rfl | (simp; done) | (simp_all; done)

@[simp] theorem State.holdMarkSetmark_inner (s : State) (r : RoundRec) :
    (s.holdMarkSetmark r).gate.fixedMarks = s.gate.fixedMarks ∧
      (s.holdMarkSetmark r).gate.markStore = s.gate.markStore ∧ (s.holdMarkSetmark r).gate.session = s.gate.session ∧
      (s.holdMarkSetmark r).gate.markLockOpen = s.gate.markLockOpen ∧
      (s.holdMarkSetmark r).gate.presented = s.gate.presented ∧
      (s.holdMarkSetmark r).gate.outstanding = s.gate.outstanding ∧
      (s.holdMarkSetmark r).gate.portReady = s.gate.portReady ∧
      (s.holdMarkSetmark r).gate.eraseWaiting = s.gate.eraseWaiting ∧
      (s.holdMarkSetmark r).gate.yieldCount = s.gate.yieldCount ∧ (s.holdMarkSetmark r).eng.queue = s.eng.queue ∧
      (s.holdMarkSetmark r).eng.absence = s.eng.absence ∧ (s.holdMarkSetmark r).eng.rollCount = s.eng.rollCount ∧
      (s.holdMarkSetmark r).eng.serial = s.eng.serial ∧ (s.holdMarkSetmark r).line.view = s.line.view ∧
      (s.holdMarkSetmark r).line.role = s.line.role ∧ (s.holdMarkSetmark r).line.pos = s.line.pos ∧
      (s.holdMarkSetmark r).line.idleTimer = s.line.idleTimer ∧
      (s.holdMarkSetmark r).line.stuckTimer = s.line.stuckTimer ∧
      (s.holdMarkSetmark r).line.holdTimer = s.line.holdTimer ∧ (s.holdMarkSetmark r).line.offer = s.line.offer ∧
      (s.holdMarkSetmark r).line.header = s.line.header ∧ (s.holdMarkSetmark r).line.tail = s.line.tail ∧
      (s.holdMarkSetmark r).nv.slots = s.nv.slots ∧ (s.holdMarkSetmark r).nv.liveStamp = s.nv.liveStamp ∧
      (s.holdMarkSetmark r).nv.pendingSlot = s.nv.pendingSlot ∧ (s.holdMarkSetmark r).nv.tally = s.nv.tally ∧
      (s.holdMarkSetmark r).nv.holdOwed = s.nv.holdOwed ∧ (s.holdMarkSetmark r).nv.policy = s.nv.policy ∧
      (s.holdMarkSetmark r).nv.fixedMarks = s.nv.fixedMarks ∧ (s.holdMarkSetmark r).nv.journal = s.nv.journal ∧
      (s.holdMarkSetmark r).nv.flags = s.nv.flags ∧ (s.holdMarkSetmark r).nv.serial = s.nv.serial := by
  simp only [State.holdMarkSetmark]
  repeat' split
  all_goals first | rfl | (simp; done) | (simp_all; done)

@[simp] theorem State.holdMarkWipe_inner (s : State) (r : RoundRec) :
    (s.holdMarkWipe r).eng.queue = s.eng.queue ∧ (s.holdMarkWipe r).eng.absence = s.eng.absence ∧
      (s.holdMarkWipe r).eng.rollCount = s.eng.rollCount ∧ (s.holdMarkWipe r).eng.serial = s.eng.serial ∧
      (s.holdMarkWipe r).wipe.journal = s.wipe.journal ∧ (s.holdMarkWipe r).wipe.erase = s.wipe.erase ∧
      (s.holdMarkWipe r).wipe.progressTimer = s.wipe.progressTimer ∧ (s.holdMarkWipe r).line.view = s.line.view ∧
      (s.holdMarkWipe r).line.role = s.line.role ∧ (s.holdMarkWipe r).line.pos = s.line.pos ∧
      (s.holdMarkWipe r).line.idleTimer = s.line.idleTimer ∧ (s.holdMarkWipe r).line.stuckTimer = s.line.stuckTimer ∧
      (s.holdMarkWipe r).line.holdTimer = s.line.holdTimer ∧ (s.holdMarkWipe r).line.offer = s.line.offer ∧
      (s.holdMarkWipe r).line.header = s.line.header ∧ (s.holdMarkWipe r).line.tail = s.line.tail := by
  simp only [State.holdMarkWipe]
  repeat' split
  all_goals first | rfl | (simp; done) | (simp_all; done)

@[simp] theorem State.holdMarkFit_inner (s : State) (r : RoundRec) :
    (s.holdMarkFit r).eng.queue = s.eng.queue ∧ (s.holdMarkFit r).eng.absence = s.eng.absence ∧
      (s.holdMarkFit r).eng.rollCount = s.eng.rollCount ∧ (s.holdMarkFit r).eng.serial = s.eng.serial ∧
      (s.holdMarkFit r).stat.flags = s.stat.flags ∧ (s.holdMarkFit r).stat.reported = s.stat.reported ∧
      (s.holdMarkFit r).stat.store = s.stat.store := by
  simp only [State.holdMarkFit]
  repeat' split
  all_goals first | rfl | (simp; done) | (simp_all; done)

@[simp] theorem State.holdMark_inner (s : State) (r : RoundRec) :
    (s.holdMark r).gate.fixedMarks = s.gate.fixedMarks ∧ (s.holdMark r).gate.markStore = s.gate.markStore ∧
      (s.holdMark r).gate.session = s.gate.session ∧ (s.holdMark r).gate.markLockOpen = s.gate.markLockOpen ∧
      (s.holdMark r).gate.presented = s.gate.presented ∧ (s.holdMark r).gate.outstanding = s.gate.outstanding ∧
      (s.holdMark r).gate.portReady = s.gate.portReady ∧ (s.holdMark r).gate.eraseWaiting = s.gate.eraseWaiting ∧
      (s.holdMark r).gate.yieldCount = s.gate.yieldCount ∧ (s.holdMark r).eng.queue = s.eng.queue ∧
      (s.holdMark r).eng.absence = s.eng.absence ∧ (s.holdMark r).eng.rollCount = s.eng.rollCount ∧
      (s.holdMark r).eng.serial = s.eng.serial ∧ (s.holdMark r).cred.slots = s.cred.slots ∧
      (s.holdMark r).cred.liveStamp = s.cred.liveStamp ∧ (s.holdMark r).cred.plainKey = s.cred.plainKey ∧
      (s.holdMark r).cred.roundEntry = s.cred.roundEntry ∧ (s.holdMark r).cred.roundChange = s.cred.roundChange ∧
      (s.holdMark r).tal.deadline = s.tal.deadline ∧ (s.holdMark r).tal.holdOwed = s.tal.holdOwed ∧
      (s.holdMark r).tal.owedStore = s.tal.owedStore ∧ (s.holdMark r).wipe.journal = s.wipe.journal ∧
      (s.holdMark r).wipe.erase = s.wipe.erase ∧ (s.holdMark r).wipe.progressTimer = s.wipe.progressTimer ∧
      (s.holdMark r).stat.flags = s.stat.flags ∧ (s.holdMark r).stat.reported = s.stat.reported ∧
      (s.holdMark r).stat.store = s.stat.store ∧ (s.holdMark r).line.view = s.line.view ∧
      (s.holdMark r).line.role = s.line.role ∧ (s.holdMark r).line.pos = s.line.pos ∧
      (s.holdMark r).line.idleTimer = s.line.idleTimer ∧ (s.holdMark r).line.stuckTimer = s.line.stuckTimer ∧
      (s.holdMark r).line.holdTimer = s.line.holdTimer ∧ (s.holdMark r).line.offer = s.line.offer ∧
      (s.holdMark r).line.header = s.line.header ∧ (s.holdMark r).line.tail = s.line.tail ∧
      (s.holdMark r).nv.slots = s.nv.slots ∧ (s.holdMark r).nv.liveStamp = s.nv.liveStamp ∧
      (s.holdMark r).nv.tally = s.nv.tally ∧ (s.holdMark r).nv.holdOwed = s.nv.holdOwed ∧
      (s.holdMark r).nv.policy = s.nv.policy ∧ (s.holdMark r).nv.fixedMarks = s.nv.fixedMarks ∧
      (s.holdMark r).nv.journal = s.nv.journal ∧ (s.holdMark r).nv.flags = s.nv.flags ∧
      (s.holdMark r).nv.serial = s.nv.serial := by
  simp only [State.holdMark]
  repeat' split
  all_goals first | rfl | (simp; done) | (simp_all; done)

@[simp] theorem State.fixAtMark_inner (s : State) (r : RoundRec) (f : Field) :
    (s.fixAtMark r f).eng.queue = s.eng.queue ∧ (s.fixAtMark r f).eng.absence = s.eng.absence ∧
      (s.fixAtMark r f).eng.rollCount = s.eng.rollCount ∧ (s.fixAtMark r f).eng.serial = s.eng.serial ∧
      (s.fixAtMark r f).cred.slots = s.cred.slots ∧ (s.fixAtMark r f).cred.liveStamp = s.cred.liveStamp ∧
      (s.fixAtMark r f).cred.pendingSlot = s.cred.pendingSlot ∧ (s.fixAtMark r f).cred.plainKey = s.cred.plainKey ∧
      (s.fixAtMark r f).cred.genKey = s.cred.genKey ∧ (s.fixAtMark r f).cred.roundEntry = s.cred.roundEntry ∧
      (s.fixAtMark r f).cred.busy = s.cred.busy ∧ (s.fixAtMark r f).cred.waiting = s.cred.waiting := by
  simp only [State.fixAtMark]
  repeat' split
  all_goals first | rfl | (simp; done) | (simp_all; done)

@[simp] theorem State.enterField_inner (s : State) (r : RoundRec) (f : Field) :
    (s.enterField r f).gate.fixedMarks = s.gate.fixedMarks ∧ (s.enterField r f).gate.markStore = s.gate.markStore ∧
      (s.enterField r f).gate.session = s.gate.session ∧ (s.enterField r f).gate.markLockOpen = s.gate.markLockOpen ∧
      (s.enterField r f).gate.presented = s.gate.presented ∧
      (s.enterField r f).gate.outstanding = s.gate.outstanding ∧
      (s.enterField r f).gate.portReady = s.gate.portReady ∧
      (s.enterField r f).gate.eraseWaiting = s.gate.eraseWaiting ∧
      (s.enterField r f).gate.yieldCount = s.gate.yieldCount ∧ (s.enterField r f).eng.queue = s.eng.queue ∧
      (s.enterField r f).eng.absence = s.eng.absence ∧ (s.enterField r f).eng.rollCount = s.eng.rollCount ∧
      (s.enterField r f).eng.serial = s.eng.serial ∧ (s.enterField r f).cred.slots = s.cred.slots ∧
      (s.enterField r f).cred.liveStamp = s.cred.liveStamp ∧ (s.enterField r f).cred.plainKey = s.cred.plainKey ∧
      (s.enterField r f).cred.roundEntry = s.cred.roundEntry ∧ (s.enterField r f).tal.deadline = s.tal.deadline ∧
      (s.enterField r f).tal.holdOwed = s.tal.holdOwed ∧ (s.enterField r f).tal.owedStore = s.tal.owedStore ∧
      (s.enterField r f).wipe.journal = s.wipe.journal ∧ (s.enterField r f).wipe.erase = s.wipe.erase ∧
      (s.enterField r f).wipe.progressTimer = s.wipe.progressTimer ∧ (s.enterField r f).stat.flags = s.stat.flags ∧
      (s.enterField r f).stat.reported = s.stat.reported ∧ (s.enterField r f).stat.store = s.stat.store ∧
      (s.enterField r f).line.view = s.line.view ∧ (s.enterField r f).line.role = s.line.role ∧
      (s.enterField r f).line.header = s.line.header ∧ (s.enterField r f).line.tail = s.line.tail ∧
      (s.enterField r f).nv.slots = s.nv.slots ∧ (s.enterField r f).nv.liveStamp = s.nv.liveStamp ∧
      (s.enterField r f).nv.tally = s.nv.tally ∧ (s.enterField r f).nv.holdOwed = s.nv.holdOwed ∧
      (s.enterField r f).nv.policy = s.nv.policy ∧ (s.enterField r f).nv.fixedMarks = s.nv.fixedMarks ∧
      (s.enterField r f).nv.journal = s.nv.journal ∧ (s.enterField r f).nv.flags = s.nv.flags ∧
      (s.enterField r f).nv.serial = s.nv.serial := by
  simp only [State.enterField]
  repeat' split
  all_goals first | rfl | (simp; done) | (simp_all; done)

@[simp] theorem State.endQueue_inner (s : State) (r : RoundRec) :
    (s.endQueue r).eng.absence = s.eng.absence ∧ (s.endQueue r).eng.rollCount = s.eng.rollCount ∧
      (s.endQueue r).eng.serial = s.eng.serial ∧ (s.endQueue r).key.states = s.key.states ∧
      (s.endQueue r).key.debounce = s.key.debounce ∧ (s.endQueue r).key.mode = s.key.mode ∧
      (s.endQueue r).key.buffer = s.key.buffer ∧ (s.endQueue r).key.overlong = s.key.overlong ∧
      (s.endQueue r).key.firstCode = s.key.firstCode ∧ (s.endQueue r).key.target = s.key.target ∧
      (s.endQueue r).key.command = s.key.command ∧ (s.endQueue r).key.shiftFreed = s.key.shiftFreed ∧
      (s.endQueue r).key.entryTimer = s.key.entryTimer ∧ (s.endQueue r).key.resetTimer = s.key.resetTimer ∧
      (s.endQueue r).key.wipeWindow = s.key.wipeWindow ∧ (s.endQueue r).key.setAside = s.key.setAside ∧
      (s.endQueue r).stat.fit = s.stat.fit := by
  simp only [State.endQueue]
  repeat' split
  all_goals first | rfl | (simp; done) | (simp_all; done)

@[simp] theorem State.ownersVoid_inner (s : State) (r : RoundRec) :
    (s.ownersVoid r).gate.fixedMarks = s.gate.fixedMarks ∧ (s.ownersVoid r).gate.markStore = s.gate.markStore ∧
      (s.ownersVoid r).gate.outstanding = s.gate.outstanding ∧ (s.ownersVoid r).gate.portReady = s.gate.portReady ∧
      (s.ownersVoid r).gate.eraseWaiting = s.gate.eraseWaiting ∧
      (s.ownersVoid r).gate.yieldCount = s.gate.yieldCount ∧ (s.ownersVoid r).eng.absence = s.eng.absence ∧
      (s.ownersVoid r).eng.rollCount = s.eng.rollCount ∧ (s.ownersVoid r).eng.serial = s.eng.serial ∧
      (s.ownersVoid r).key.states = s.key.states ∧ (s.ownersVoid r).key.debounce = s.key.debounce ∧
      (s.ownersVoid r).key.setAside = s.key.setAside ∧ (s.ownersVoid r).cred.slots = s.cred.slots ∧
      (s.ownersVoid r).cred.liveStamp = s.cred.liveStamp ∧ (s.ownersVoid r).cred.pendingSlot = s.cred.pendingSlot ∧
      (s.ownersVoid r).cred.plainKey = s.cred.plainKey ∧ (s.ownersVoid r).cred.busy = s.cred.busy ∧
      (s.ownersVoid r).cred.waiting = s.cred.waiting ∧ (s.ownersVoid r).tal.tally = s.tal.tally ∧
      (s.ownersVoid r).tal.tallyStore = s.tal.tallyStore ∧ (s.ownersVoid r).sup.state = s.sup.state ∧
      (s.ownersVoid r).sup.warmup = s.sup.warmup ∧ (s.ownersVoid r).sup.stn = s.sup.stn ∧
      (s.ownersVoid r).sup.roster = s.sup.roster ∧ (s.ownersVoid r).sup.step = s.sup.step ∧
      (s.ownersVoid r).grd.matched = s.grd.matched ∧ (s.ownersVoid r).grd.mustChange = s.grd.mustChange ∧
      (s.ownersVoid r).grd.batteryTimer = s.grd.batteryTimer ∧ (s.ownersVoid r).grd.pulseTimer = s.grd.pulseTimer ∧
      (s.ownersVoid r).nv.slots = s.nv.slots ∧ (s.ownersVoid r).nv.liveStamp = s.nv.liveStamp ∧
      (s.ownersVoid r).nv.pendingSlot = s.nv.pendingSlot ∧ (s.ownersVoid r).nv.tally = s.nv.tally ∧
      (s.ownersVoid r).nv.holdOwed = s.nv.holdOwed ∧ (s.ownersVoid r).nv.policy = s.nv.policy ∧
      (s.ownersVoid r).nv.fixedMarks = s.nv.fixedMarks ∧ (s.ownersVoid r).nv.journal = s.nv.journal ∧
      (s.ownersVoid r).nv.flags = s.nv.flags ∧ (s.ownersVoid r).nv.serial = s.nv.serial := by
  simp only [State.ownersVoid]
  repeat' split
  all_goals first | rfl | (simp; done) | (simp_all; done)

@[simp] theorem State.ownersReject_inner (s : State) (r : RoundRec) :
    (s.ownersReject r).gate.fixedMarks = s.gate.fixedMarks ∧ (s.ownersReject r).gate.markStore = s.gate.markStore ∧
      (s.ownersReject r).gate.outstanding = s.gate.outstanding ∧
      (s.ownersReject r).gate.portReady = s.gate.portReady ∧
      (s.ownersReject r).gate.eraseWaiting = s.gate.eraseWaiting ∧
      (s.ownersReject r).gate.yieldCount = s.gate.yieldCount ∧ (s.ownersReject r).eng.absence = s.eng.absence ∧
      (s.ownersReject r).eng.rollCount = s.eng.rollCount ∧ (s.ownersReject r).eng.serial = s.eng.serial ∧
      (s.ownersReject r).key.states = s.key.states ∧ (s.ownersReject r).key.debounce = s.key.debounce ∧
      (s.ownersReject r).key.setAside = s.key.setAside ∧ (s.ownersReject r).cred.slots = s.cred.slots ∧
      (s.ownersReject r).cred.liveStamp = s.cred.liveStamp ∧
      (s.ownersReject r).cred.pendingSlot = s.cred.pendingSlot ∧ (s.ownersReject r).cred.plainKey = s.cred.plainKey ∧
      (s.ownersReject r).cred.busy = s.cred.busy ∧ (s.ownersReject r).cred.waiting = s.cred.waiting ∧
      (s.ownersReject r).tal.tally = s.tal.tally ∧ (s.ownersReject r).tal.tallyStore = s.tal.tallyStore ∧
      (s.ownersReject r).sup.state = s.sup.state ∧ (s.ownersReject r).sup.warmup = s.sup.warmup ∧
      (s.ownersReject r).sup.stn = s.sup.stn ∧ (s.ownersReject r).sup.roster = s.sup.roster ∧
      (s.ownersReject r).sup.step = s.sup.step ∧ (s.ownersReject r).grd.matched = s.grd.matched ∧
      (s.ownersReject r).grd.mustChange = s.grd.mustChange ∧
      (s.ownersReject r).grd.batteryTimer = s.grd.batteryTimer ∧
      (s.ownersReject r).grd.pulseTimer = s.grd.pulseTimer ∧ (s.ownersReject r).nv.slots = s.nv.slots ∧
      (s.ownersReject r).nv.liveStamp = s.nv.liveStamp ∧ (s.ownersReject r).nv.pendingSlot = s.nv.pendingSlot ∧
      (s.ownersReject r).nv.tally = s.nv.tally ∧ (s.ownersReject r).nv.holdOwed = s.nv.holdOwed ∧
      (s.ownersReject r).nv.policy = s.nv.policy ∧ (s.ownersReject r).nv.fixedMarks = s.nv.fixedMarks ∧
      (s.ownersReject r).nv.journal = s.nv.journal ∧ (s.ownersReject r).nv.flags = s.nv.flags ∧
      (s.ownersReject r).nv.serial = s.nv.serial := by
  simp only [State.ownersReject]
  repeat' split
  all_goals first | rfl | (simp; done) | (simp_all; done)

@[simp] theorem State.rejectTo_inner (s : State) (line : LineIf) :
    (s.rejectTo line).gate.fixedMarks = s.gate.fixedMarks ∧ (s.rejectTo line).gate.markStore = s.gate.markStore ∧
      (s.rejectTo line).gate.outstanding = s.gate.outstanding ∧ (s.rejectTo line).gate.portReady = s.gate.portReady ∧
      (s.rejectTo line).gate.eraseWaiting = s.gate.eraseWaiting ∧
      (s.rejectTo line).gate.yieldCount = s.gate.yieldCount ∧ (s.rejectTo line).eng.absence = s.eng.absence ∧
      (s.rejectTo line).eng.rollCount = s.eng.rollCount ∧ (s.rejectTo line).eng.serial = s.eng.serial ∧
      (s.rejectTo line).key.states = s.key.states ∧ (s.rejectTo line).key.debounce = s.key.debounce ∧
      (s.rejectTo line).cred.slots = s.cred.slots ∧ (s.rejectTo line).cred.liveStamp = s.cred.liveStamp ∧
      (s.rejectTo line).cred.pendingSlot = s.cred.pendingSlot ∧ (s.rejectTo line).cred.busy = s.cred.busy ∧
      (s.rejectTo line).cred.waiting = s.cred.waiting ∧ (s.rejectTo line).tal.tally = s.tal.tally ∧
      (s.rejectTo line).pol.table = s.pol.table ∧ (s.rejectTo line).pol.store = s.pol.store ∧
      (s.rejectTo line).pol.last = s.pol.last ∧ (s.rejectTo line).pol.memos = s.pol.memos ∧
      (s.rejectTo line).pol.timers = s.pol.timers ∧ (s.rejectTo line).pol.latch = s.pol.latch ∧
      (s.rejectTo line).sup.state = s.sup.state ∧ (s.rejectTo line).sup.warmup = s.sup.warmup ∧
      (s.rejectTo line).sup.stn = s.sup.stn ∧ (s.rejectTo line).sup.roster = s.sup.roster ∧
      (s.rejectTo line).sup.step = s.sup.step ∧ (s.rejectTo line).wipe.journal = s.wipe.journal ∧
      (s.rejectTo line).wipe.waiting = s.wipe.waiting ∧ (s.rejectTo line).wipe.orderPending = s.wipe.orderPending ∧
      (s.rejectTo line).wipe.erase = s.wipe.erase ∧ (s.rejectTo line).wipe.progressTimer = s.wipe.progressTimer ∧
      (s.rejectTo line).nv.slots = s.nv.slots ∧ (s.rejectTo line).nv.liveStamp = s.nv.liveStamp ∧
      (s.rejectTo line).nv.pendingSlot = s.nv.pendingSlot ∧ (s.rejectTo line).nv.tally = s.nv.tally ∧
      (s.rejectTo line).nv.holdOwed = s.nv.holdOwed ∧ (s.rejectTo line).nv.policy = s.nv.policy ∧
      (s.rejectTo line).nv.fixedMarks = s.nv.fixedMarks ∧ (s.rejectTo line).nv.journal = s.nv.journal ∧
      (s.rejectTo line).nv.flags = s.nv.flags ∧ (s.rejectTo line).nv.serial = s.nv.serial := by
  simp only [State.rejectTo]
  repeat' split
  all_goals first | rfl | (simp; done) | (simp_all; done)

@[simp] theorem State.rejectRound_inner (s : State) :
    (s.rejectRound).gate.fixedMarks = s.gate.fixedMarks ∧ (s.rejectRound).gate.markStore = s.gate.markStore ∧
      (s.rejectRound).gate.outstanding = s.gate.outstanding ∧ (s.rejectRound).gate.portReady = s.gate.portReady ∧
      (s.rejectRound).gate.eraseWaiting = s.gate.eraseWaiting ∧ (s.rejectRound).gate.yieldCount = s.gate.yieldCount ∧
      (s.rejectRound).eng.absence = s.eng.absence ∧ (s.rejectRound).eng.rollCount = s.eng.rollCount ∧
      (s.rejectRound).eng.serial = s.eng.serial ∧ (s.rejectRound).key.states = s.key.states ∧
      (s.rejectRound).key.debounce = s.key.debounce ∧ (s.rejectRound).cred.slots = s.cred.slots ∧
      (s.rejectRound).cred.liveStamp = s.cred.liveStamp ∧ (s.rejectRound).cred.pendingSlot = s.cred.pendingSlot ∧
      (s.rejectRound).cred.busy = s.cred.busy ∧ (s.rejectRound).cred.waiting = s.cred.waiting ∧
      (s.rejectRound).tal.tally = s.tal.tally ∧ (s.rejectRound).pol.table = s.pol.table ∧
      (s.rejectRound).pol.store = s.pol.store ∧ (s.rejectRound).pol.last = s.pol.last ∧
      (s.rejectRound).pol.memos = s.pol.memos ∧ (s.rejectRound).pol.timers = s.pol.timers ∧
      (s.rejectRound).pol.latch = s.pol.latch ∧ (s.rejectRound).sup.state = s.sup.state ∧
      (s.rejectRound).sup.warmup = s.sup.warmup ∧ (s.rejectRound).sup.stn = s.sup.stn ∧
      (s.rejectRound).sup.roster = s.sup.roster ∧ (s.rejectRound).sup.step = s.sup.step ∧
      (s.rejectRound).wipe.journal = s.wipe.journal ∧ (s.rejectRound).wipe.waiting = s.wipe.waiting ∧
      (s.rejectRound).wipe.orderPending = s.wipe.orderPending ∧ (s.rejectRound).wipe.erase = s.wipe.erase ∧
      (s.rejectRound).wipe.progressTimer = s.wipe.progressTimer ∧ (s.rejectRound).nv.slots = s.nv.slots ∧
      (s.rejectRound).nv.liveStamp = s.nv.liveStamp ∧ (s.rejectRound).nv.pendingSlot = s.nv.pendingSlot ∧
      (s.rejectRound).nv.tally = s.nv.tally ∧ (s.rejectRound).nv.holdOwed = s.nv.holdOwed ∧
      (s.rejectRound).nv.policy = s.nv.policy ∧ (s.rejectRound).nv.fixedMarks = s.nv.fixedMarks ∧
      (s.rejectRound).nv.journal = s.nv.journal ∧ (s.rejectRound).nv.flags = s.nv.flags ∧
      (s.rejectRound).nv.serial = s.nv.serial := by
  simp only [State.rejectRound]
  repeat' split
  all_goals first | rfl | (simp; done) | (simp_all; done)

@[simp] theorem State.truncate_inner (s : State) :
    (s.truncate).gate.fixedMarks = s.gate.fixedMarks ∧ (s.truncate).gate.markStore = s.gate.markStore ∧
      (s.truncate).gate.outstanding = s.gate.outstanding ∧ (s.truncate).gate.portReady = s.gate.portReady ∧
      (s.truncate).gate.eraseWaiting = s.gate.eraseWaiting ∧ (s.truncate).gate.yieldCount = s.gate.yieldCount ∧
      (s.truncate).eng.absence = s.eng.absence ∧ (s.truncate).eng.rollCount = s.eng.rollCount ∧
      (s.truncate).eng.serial = s.eng.serial ∧ (s.truncate).key.states = s.key.states ∧
      (s.truncate).key.debounce = s.key.debounce ∧ (s.truncate).cred.slots = s.cred.slots ∧
      (s.truncate).cred.liveStamp = s.cred.liveStamp ∧ (s.truncate).cred.pendingSlot = s.cred.pendingSlot ∧
      (s.truncate).cred.busy = s.cred.busy ∧ (s.truncate).cred.waiting = s.cred.waiting ∧
      (s.truncate).tal.tally = s.tal.tally ∧ (s.truncate).pol.table = s.pol.table ∧
      (s.truncate).pol.store = s.pol.store ∧ (s.truncate).pol.last = s.pol.last ∧
      (s.truncate).pol.memos = s.pol.memos ∧ (s.truncate).pol.timers = s.pol.timers ∧
      (s.truncate).pol.latch = s.pol.latch ∧ (s.truncate).sup.state = s.sup.state ∧
      (s.truncate).sup.warmup = s.sup.warmup ∧ (s.truncate).sup.stn = s.sup.stn ∧
      (s.truncate).sup.roster = s.sup.roster ∧ (s.truncate).sup.step = s.sup.step ∧
      (s.truncate).wipe.journal = s.wipe.journal ∧ (s.truncate).wipe.waiting = s.wipe.waiting ∧
      (s.truncate).wipe.orderPending = s.wipe.orderPending ∧ (s.truncate).wipe.erase = s.wipe.erase ∧
      (s.truncate).wipe.progressTimer = s.wipe.progressTimer ∧ (s.truncate).nv.slots = s.nv.slots ∧
      (s.truncate).nv.liveStamp = s.nv.liveStamp ∧ (s.truncate).nv.pendingSlot = s.nv.pendingSlot ∧
      (s.truncate).nv.tally = s.nv.tally ∧ (s.truncate).nv.holdOwed = s.nv.holdOwed ∧
      (s.truncate).nv.policy = s.nv.policy ∧ (s.truncate).nv.fixedMarks = s.nv.fixedMarks ∧
      (s.truncate).nv.journal = s.nv.journal ∧ (s.truncate).nv.flags = s.nv.flags ∧
      (s.truncate).nv.serial = s.nv.serial := by
  simp only [State.truncate]
  repeat' split
  all_goals first | rfl | (simp; done) | (simp_all; done)

@[simp] theorem State.markMissing_inner (s : State) :
    (s.markMissing).gate.fixedMarks = s.gate.fixedMarks ∧ (s.markMissing).gate.markStore = s.gate.markStore ∧
      (s.markMissing).gate.outstanding = s.gate.outstanding ∧ (s.markMissing).gate.portReady = s.gate.portReady ∧
      (s.markMissing).gate.eraseWaiting = s.gate.eraseWaiting ∧ (s.markMissing).gate.yieldCount = s.gate.yieldCount ∧
      (s.markMissing).eng.absence = s.eng.absence ∧ (s.markMissing).eng.rollCount = s.eng.rollCount ∧
      (s.markMissing).eng.serial = s.eng.serial ∧ (s.markMissing).key.states = s.key.states ∧
      (s.markMissing).key.debounce = s.key.debounce ∧ (s.markMissing).cred.slots = s.cred.slots ∧
      (s.markMissing).cred.liveStamp = s.cred.liveStamp ∧ (s.markMissing).cred.pendingSlot = s.cred.pendingSlot ∧
      (s.markMissing).cred.busy = s.cred.busy ∧ (s.markMissing).cred.waiting = s.cred.waiting ∧
      (s.markMissing).tal.tally = s.tal.tally ∧ (s.markMissing).pol.table = s.pol.table ∧
      (s.markMissing).pol.store = s.pol.store ∧ (s.markMissing).pol.last = s.pol.last ∧
      (s.markMissing).pol.memos = s.pol.memos ∧ (s.markMissing).pol.timers = s.pol.timers ∧
      (s.markMissing).pol.latch = s.pol.latch ∧ (s.markMissing).sup.state = s.sup.state ∧
      (s.markMissing).sup.warmup = s.sup.warmup ∧ (s.markMissing).sup.stn = s.sup.stn ∧
      (s.markMissing).sup.roster = s.sup.roster ∧ (s.markMissing).sup.step = s.sup.step ∧
      (s.markMissing).wipe.journal = s.wipe.journal ∧ (s.markMissing).wipe.waiting = s.wipe.waiting ∧
      (s.markMissing).wipe.orderPending = s.wipe.orderPending ∧ (s.markMissing).wipe.erase = s.wipe.erase ∧
      (s.markMissing).wipe.progressTimer = s.wipe.progressTimer ∧ (s.markMissing).nv.slots = s.nv.slots ∧
      (s.markMissing).nv.liveStamp = s.nv.liveStamp ∧ (s.markMissing).nv.pendingSlot = s.nv.pendingSlot ∧
      (s.markMissing).nv.tally = s.nv.tally ∧ (s.markMissing).nv.holdOwed = s.nv.holdOwed ∧
      (s.markMissing).nv.policy = s.nv.policy ∧ (s.markMissing).nv.fixedMarks = s.nv.fixedMarks ∧
      (s.markMissing).nv.journal = s.nv.journal ∧ (s.markMissing).nv.flags = s.nv.flags ∧
      (s.markMissing).nv.serial = s.nv.serial := by
  simp only [State.markMissing]
  repeat' split
  all_goals first | rfl | (simp; done) | (simp_all; done)

@[simp] theorem State.fieldMarked_inner (s : State) (level : Level) :
    (s.fieldMarked level).gate.fixedMarks = s.gate.fixedMarks ∧
      (s.fieldMarked level).gate.markStore = s.gate.markStore ∧
      (s.fieldMarked level).gate.outstanding = s.gate.outstanding ∧
      (s.fieldMarked level).gate.portReady = s.gate.portReady ∧
      (s.fieldMarked level).gate.eraseWaiting = s.gate.eraseWaiting ∧
      (s.fieldMarked level).gate.yieldCount = s.gate.yieldCount ∧ (s.fieldMarked level).eng.absence = s.eng.absence ∧
      (s.fieldMarked level).eng.rollCount = s.eng.rollCount ∧ (s.fieldMarked level).eng.serial = s.eng.serial ∧
      (s.fieldMarked level).key.states = s.key.states ∧ (s.fieldMarked level).key.debounce = s.key.debounce ∧
      (s.fieldMarked level).cred.slots = s.cred.slots ∧ (s.fieldMarked level).cred.liveStamp = s.cred.liveStamp ∧
      (s.fieldMarked level).pol.table = s.pol.table ∧ (s.fieldMarked level).pol.store = s.pol.store ∧
      (s.fieldMarked level).pol.last = s.pol.last ∧ (s.fieldMarked level).pol.memos = s.pol.memos ∧
      (s.fieldMarked level).pol.timers = s.pol.timers ∧ (s.fieldMarked level).pol.latch = s.pol.latch ∧
      (s.fieldMarked level).sup.state = s.sup.state ∧ (s.fieldMarked level).sup.warmup = s.sup.warmup ∧
      (s.fieldMarked level).sup.stn = s.sup.stn ∧ (s.fieldMarked level).sup.roster = s.sup.roster ∧
      (s.fieldMarked level).sup.step = s.sup.step ∧ (s.fieldMarked level).wipe.journal = s.wipe.journal ∧
      (s.fieldMarked level).wipe.erase = s.wipe.erase ∧
      (s.fieldMarked level).wipe.progressTimer = s.wipe.progressTimer ∧ (s.fieldMarked level).nv.slots = s.nv.slots ∧
      (s.fieldMarked level).nv.liveStamp = s.nv.liveStamp ∧ (s.fieldMarked level).nv.tally = s.nv.tally ∧
      (s.fieldMarked level).nv.holdOwed = s.nv.holdOwed ∧ (s.fieldMarked level).nv.policy = s.nv.policy ∧
      (s.fieldMarked level).nv.fixedMarks = s.nv.fixedMarks ∧ (s.fieldMarked level).nv.journal = s.nv.journal ∧
      (s.fieldMarked level).nv.flags = s.nv.flags ∧ (s.fieldMarked level).nv.serial = s.nv.serial := by
  simp only [State.fieldMarked]
  repeat' split
  all_goals first | rfl | (simp; done) | (simp_all; done)

@[simp] theorem State.awaitField_inner (s : State) (f : Field) :
    (s.awaitField f).line.view = s.line.view ∧ (s.awaitField f).line.role = s.line.role ∧
      (s.awaitField f).line.idleTimer = s.line.idleTimer ∧ (s.awaitField f).line.stuckTimer = s.line.stuckTimer ∧
      (s.awaitField f).line.holdTimer = s.line.holdTimer ∧ (s.awaitField f).line.header = s.line.header ∧
      (s.awaitField f).line.tail = s.line.tail := by
  simp only [State.awaitField]
  repeat' split
  all_goals first | rfl | (simp; done) | (simp_all; done)

@[simp] theorem State.loseHeader_inner (s : State) :
    (s.loseHeader).eng.absence = s.eng.absence ∧ (s.loseHeader).eng.rollCount = s.eng.rollCount ∧
      (s.loseHeader).eng.serial = s.eng.serial ∧ (s.loseHeader).line.view = s.line.view ∧
      (s.loseHeader).line.pos = s.line.pos ∧ (s.loseHeader).line.idleTimer = s.line.idleTimer ∧
      (s.loseHeader).line.stuckTimer = s.line.stuckTimer ∧ (s.loseHeader).line.holdTimer = s.line.holdTimer ∧
      (s.loseHeader).line.offer = s.line.offer ∧ (s.loseHeader).line.tail = s.line.tail := by
  simp only [State.loseHeader]
  repeat' split
  all_goals first | rfl | (simp; done) | (simp_all; done)

@[simp] theorem State.judgeContention_inner (s : State) (line : LineBits) :
    (s.judgeContention line).eng.absence = s.eng.absence ∧ (s.judgeContention line).eng.rollCount = s.eng.rollCount ∧
      (s.judgeContention line).eng.serial = s.eng.serial ∧ (s.judgeContention line).line.view = s.line.view ∧
      (s.judgeContention line).line.pos = s.line.pos ∧ (s.judgeContention line).line.idleTimer = s.line.idleTimer ∧
      (s.judgeContention line).line.stuckTimer = s.line.stuckTimer ∧
      (s.judgeContention line).line.holdTimer = s.line.holdTimer ∧
      (s.judgeContention line).line.offer = s.line.offer ∧ (s.judgeContention line).line.tail = s.line.tail := by
  simp only [State.judgeContention]
  repeat' split
  all_goals first | rfl | (simp; done) | (simp_all; done)

@[simp] theorem State.kindEnded_inner (s : State) (read : LineBits) :
    (s.kindEnded read).gate.fixedMarks = s.gate.fixedMarks ∧ (s.kindEnded read).gate.markStore = s.gate.markStore ∧
      (s.kindEnded read).gate.outstanding = s.gate.outstanding ∧
      (s.kindEnded read).gate.portReady = s.gate.portReady ∧
      (s.kindEnded read).gate.eraseWaiting = s.gate.eraseWaiting ∧
      (s.kindEnded read).gate.yieldCount = s.gate.yieldCount ∧ (s.kindEnded read).eng.absence = s.eng.absence ∧
      (s.kindEnded read).eng.rollCount = s.eng.rollCount ∧ (s.kindEnded read).eng.serial = s.eng.serial ∧
      (s.kindEnded read).key.states = s.key.states ∧ (s.kindEnded read).key.debounce = s.key.debounce ∧
      (s.kindEnded read).cred.slots = s.cred.slots ∧ (s.kindEnded read).cred.liveStamp = s.cred.liveStamp ∧
      (s.kindEnded read).cred.pendingSlot = s.cred.pendingSlot ∧ (s.kindEnded read).cred.busy = s.cred.busy ∧
      (s.kindEnded read).cred.waiting = s.cred.waiting ∧ (s.kindEnded read).tal.tally = s.tal.tally ∧
      (s.kindEnded read).pol.table = s.pol.table ∧ (s.kindEnded read).pol.store = s.pol.store ∧
      (s.kindEnded read).pol.last = s.pol.last ∧ (s.kindEnded read).pol.memos = s.pol.memos ∧
      (s.kindEnded read).pol.timers = s.pol.timers ∧ (s.kindEnded read).pol.latch = s.pol.latch ∧
      (s.kindEnded read).sup.state = s.sup.state ∧ (s.kindEnded read).sup.warmup = s.sup.warmup ∧
      (s.kindEnded read).sup.stn = s.sup.stn ∧ (s.kindEnded read).sup.roster = s.sup.roster ∧
      (s.kindEnded read).sup.step = s.sup.step ∧ (s.kindEnded read).wipe.journal = s.wipe.journal ∧
      (s.kindEnded read).wipe.waiting = s.wipe.waiting ∧ (s.kindEnded read).wipe.orderPending = s.wipe.orderPending ∧
      (s.kindEnded read).wipe.erase = s.wipe.erase ∧ (s.kindEnded read).wipe.progressTimer = s.wipe.progressTimer ∧
      (s.kindEnded read).nv.slots = s.nv.slots ∧ (s.kindEnded read).nv.liveStamp = s.nv.liveStamp ∧
      (s.kindEnded read).nv.pendingSlot = s.nv.pendingSlot ∧ (s.kindEnded read).nv.tally = s.nv.tally ∧
      (s.kindEnded read).nv.holdOwed = s.nv.holdOwed ∧ (s.kindEnded read).nv.policy = s.nv.policy ∧
      (s.kindEnded read).nv.fixedMarks = s.nv.fixedMarks ∧ (s.kindEnded read).nv.journal = s.nv.journal ∧
      (s.kindEnded read).nv.flags = s.nv.flags ∧ (s.kindEnded read).nv.serial = s.nv.serial := by
  simp only [State.kindEnded]
  repeat' split
  all_goals first | rfl | (simp; done) | (simp_all; done)

@[simp] theorem State.argEnded_inner (s : State) (read : LineBits) :
    (s.argEnded read).eng.absence = s.eng.absence ∧ (s.argEnded read).eng.rollCount = s.eng.rollCount ∧
      (s.argEnded read).eng.serial = s.eng.serial := by
  simp only [State.argEnded]
  repeat' split
  all_goals first | rfl | (simp; done) | (simp_all; done)

@[simp] theorem State.openersEnded_inner (s : State) (r : RoundRec) (read : LineBits) :
    (s.openersEnded r read).gate.fixedMarks = s.gate.fixedMarks ∧
      (s.openersEnded r read).gate.markStore = s.gate.markStore ∧
      (s.openersEnded r read).gate.outstanding = s.gate.outstanding ∧
      (s.openersEnded r read).gate.portReady = s.gate.portReady ∧
      (s.openersEnded r read).gate.eraseWaiting = s.gate.eraseWaiting ∧
      (s.openersEnded r read).gate.yieldCount = s.gate.yieldCount ∧
      (s.openersEnded r read).eng.absence = s.eng.absence ∧ (s.openersEnded r read).eng.rollCount = s.eng.rollCount ∧
      (s.openersEnded r read).eng.serial = s.eng.serial ∧ (s.openersEnded r read).key.states = s.key.states ∧
      (s.openersEnded r read).key.debounce = s.key.debounce ∧ (s.openersEnded r read).cred.slots = s.cred.slots ∧
      (s.openersEnded r read).cred.liveStamp = s.cred.liveStamp ∧
      (s.openersEnded r read).cred.pendingSlot = s.cred.pendingSlot ∧
      (s.openersEnded r read).cred.busy = s.cred.busy ∧ (s.openersEnded r read).cred.waiting = s.cred.waiting ∧
      (s.openersEnded r read).tal.tally = s.tal.tally ∧ (s.openersEnded r read).pol.table = s.pol.table ∧
      (s.openersEnded r read).pol.store = s.pol.store ∧ (s.openersEnded r read).pol.last = s.pol.last ∧
      (s.openersEnded r read).pol.memos = s.pol.memos ∧ (s.openersEnded r read).pol.timers = s.pol.timers ∧
      (s.openersEnded r read).pol.latch = s.pol.latch ∧ (s.openersEnded r read).sup.state = s.sup.state ∧
      (s.openersEnded r read).sup.warmup = s.sup.warmup ∧ (s.openersEnded r read).sup.stn = s.sup.stn ∧
      (s.openersEnded r read).sup.roster = s.sup.roster ∧ (s.openersEnded r read).sup.step = s.sup.step ∧
      (s.openersEnded r read).wipe.journal = s.wipe.journal ∧ (s.openersEnded r read).wipe.waiting = s.wipe.waiting ∧
      (s.openersEnded r read).wipe.orderPending = s.wipe.orderPending ∧
      (s.openersEnded r read).wipe.erase = s.wipe.erase ∧
      (s.openersEnded r read).wipe.progressTimer = s.wipe.progressTimer ∧
      (s.openersEnded r read).nv.slots = s.nv.slots ∧ (s.openersEnded r read).nv.liveStamp = s.nv.liveStamp ∧
      (s.openersEnded r read).nv.pendingSlot = s.nv.pendingSlot ∧ (s.openersEnded r read).nv.tally = s.nv.tally ∧
      (s.openersEnded r read).nv.holdOwed = s.nv.holdOwed ∧ (s.openersEnded r read).nv.policy = s.nv.policy ∧
      (s.openersEnded r read).nv.fixedMarks = s.nv.fixedMarks ∧ (s.openersEnded r read).nv.journal = s.nv.journal ∧
      (s.openersEnded r read).nv.flags = s.nv.flags ∧ (s.openersEnded r read).nv.serial = s.nv.serial := by
  simp only [State.openersEnded]
  repeat' split
  all_goals first | rfl | (simp; done) | (simp_all; done)

@[simp] theorem State.handEntry_inner (s : State) :
    (s.handEntry).eng.round = s.eng.round ∧ (s.handEntry).eng.absence = s.eng.absence ∧
      (s.handEntry).eng.rollCount = s.eng.rollCount ∧ (s.handEntry).eng.serial = s.eng.serial ∧
      (s.handEntry).key.states = s.key.states ∧ (s.handEntry).key.debounce = s.key.debounce ∧
      (s.handEntry).key.heldChange = s.key.heldChange ∧ (s.handEntry).key.setAside = s.key.setAside ∧
      (s.handEntry).cred.slots = s.cred.slots ∧ (s.handEntry).cred.liveStamp = s.cred.liveStamp ∧
      (s.handEntry).cred.pendingSlot = s.cred.pendingSlot ∧ (s.handEntry).cred.plainKey = s.cred.plainKey ∧
      (s.handEntry).cred.genKey = s.cred.genKey ∧ (s.handEntry).cred.roundChange = s.cred.roundChange ∧
      (s.handEntry).cred.busy = s.cred.busy ∧ (s.handEntry).cred.waiting = s.cred.waiting := by
  simp only [State.handEntry]
  repeat' split
  all_goals first | rfl | (simp; done) | (simp_all; done)

@[simp] theorem State.handChange_inner (s : State) (arg : Arg) :
    (s.handChange arg).key.states = s.key.states ∧ (s.handChange arg).key.debounce = s.key.debounce ∧
      (s.handChange arg).key.mode = s.key.mode ∧ (s.handChange arg).key.buffer = s.key.buffer ∧
      (s.handChange arg).key.overlong = s.key.overlong ∧ (s.handChange arg).key.firstCode = s.key.firstCode ∧
      (s.handChange arg).key.target = s.key.target ∧ (s.handChange arg).key.command = s.key.command ∧
      (s.handChange arg).key.shiftFreed = s.key.shiftFreed ∧ (s.handChange arg).key.entryTimer = s.key.entryTimer ∧
      (s.handChange arg).key.resetTimer = s.key.resetTimer ∧ (s.handChange arg).key.wipeWindow = s.key.wipeWindow ∧
      (s.handChange arg).key.heldEntry = s.key.heldEntry ∧ (s.handChange arg).key.setAside = s.key.setAside ∧
      (s.handChange arg).cred.slots = s.cred.slots ∧ (s.handChange arg).cred.liveStamp = s.cred.liveStamp ∧
      (s.handChange arg).cred.pendingSlot = s.cred.pendingSlot ∧ (s.handChange arg).cred.plainKey = s.cred.plainKey ∧
      (s.handChange arg).cred.genKey = s.cred.genKey ∧ (s.handChange arg).cred.roundEntry = s.cred.roundEntry ∧
      (s.handChange arg).cred.busy = s.cred.busy ∧ (s.handChange arg).cred.waiting = s.cred.waiting := by
  simp only [State.handChange]
  repeat' split
  all_goals first | rfl | (simp; done) | (simp_all; done)

@[simp] theorem State.awaitNext_inner (s : State) (r : RoundRec) (f : Field) :
    (s.awaitNext r f).line.view = s.line.view ∧ (s.awaitNext r f).line.role = s.line.role ∧
      (s.awaitNext r f).line.idleTimer = s.line.idleTimer ∧ (s.awaitNext r f).line.stuckTimer = s.line.stuckTimer ∧
      (s.awaitNext r f).line.holdTimer = s.line.holdTimer ∧ (s.awaitNext r f).line.header = s.line.header ∧
      (s.awaitNext r f).line.tail = s.line.tail := by
  simp only [State.awaitNext]
  repeat' split
  all_goals first | rfl | (simp; done) | (simp_all; done)

@[simp] theorem State.answerEnded_inner (s : State) (r : RoundRec) (read : LineBits) :
    (s.answerEnded r read).gate.fixedMarks = s.gate.fixedMarks ∧
      (s.answerEnded r read).gate.markStore = s.gate.markStore ∧
      (s.answerEnded r read).gate.pendingMark = s.gate.pendingMark ∧
      (s.answerEnded r read).gate.pmBusy = s.gate.pmBusy ∧ (s.answerEnded r read).gate.pmWaiting = s.gate.pmWaiting ∧
      (s.answerEnded r read).gate.staging = s.gate.staging ∧
      (s.answerEnded r read).gate.outstanding = s.gate.outstanding ∧
      (s.answerEnded r read).gate.portReady = s.gate.portReady ∧
      (s.answerEnded r read).gate.eraseWaiting = s.gate.eraseWaiting ∧
      (s.answerEnded r read).gate.yieldCount = s.gate.yieldCount ∧
      (s.answerEnded r read).eng.absence = s.eng.absence ∧ (s.answerEnded r read).eng.rollCount = s.eng.rollCount ∧
      (s.answerEnded r read).eng.serial = s.eng.serial ∧ (s.answerEnded r read).key.states = s.key.states ∧
      (s.answerEnded r read).key.debounce = s.key.debounce ∧ (s.answerEnded r read).cred.slots = s.cred.slots ∧
      (s.answerEnded r read).cred.liveStamp = s.cred.liveStamp ∧
      (s.answerEnded r read).cred.pendingSlot = s.cred.pendingSlot ∧
      (s.answerEnded r read).cred.genKey = s.cred.genKey ∧ (s.answerEnded r read).cred.busy = s.cred.busy ∧
      (s.answerEnded r read).cred.waiting = s.cred.waiting ∧ (s.answerEnded r read).pol.table = s.pol.table ∧
      (s.answerEnded r read).pol.store = s.pol.store ∧ (s.answerEnded r read).pol.last = s.pol.last ∧
      (s.answerEnded r read).pol.memos = s.pol.memos ∧ (s.answerEnded r read).pol.timers = s.pol.timers ∧
      (s.answerEnded r read).pol.latch = s.pol.latch ∧ (s.answerEnded r read).sup.state = s.sup.state ∧
      (s.answerEnded r read).sup.warmup = s.sup.warmup ∧ (s.answerEnded r read).sup.stn = s.sup.stn ∧
      (s.answerEnded r read).sup.roster = s.sup.roster ∧ (s.answerEnded r read).sup.step = s.sup.step ∧
      (s.answerEnded r read).grd.holdDue = s.grd.holdDue ∧ (s.answerEnded r read).line.view = s.line.view ∧
      (s.answerEnded r read).line.role = s.line.role ∧ (s.answerEnded r read).line.idleTimer = s.line.idleTimer ∧
      (s.answerEnded r read).line.stuckTimer = s.line.stuckTimer ∧
      (s.answerEnded r read).line.holdTimer = s.line.holdTimer ∧ (s.answerEnded r read).line.header = s.line.header ∧
      (s.answerEnded r read).line.tail = s.line.tail := by
  simp only [State.answerEnded]
  repeat' split
  all_goals first | rfl | (simp; done) | (simp_all; done)

@[simp] theorem State.bodyEnded_inner (s : State) (r : RoundRec) (f : Field) (read : LineBits) :
    (s.bodyEnded r f read).eng.queue = s.eng.queue ∧ (s.bodyEnded r f read).eng.absence = s.eng.absence ∧
      (s.bodyEnded r f read).eng.rollCount = s.eng.rollCount ∧ (s.bodyEnded r f read).eng.serial = s.eng.serial ∧
      (s.bodyEnded r f read).line.view = s.line.view ∧ (s.bodyEnded r f read).line.role = s.line.role ∧
      (s.bodyEnded r f read).line.idleTimer = s.line.idleTimer ∧
      (s.bodyEnded r f read).line.stuckTimer = s.line.stuckTimer ∧
      (s.bodyEnded r f read).line.holdTimer = s.line.holdTimer ∧ (s.bodyEnded r f read).line.header = s.line.header ∧
      (s.bodyEnded r f read).line.tail = s.line.tail := by
  simp only [State.bodyEnded]
  repeat' split
  all_goals first | rfl | (simp; done) | (simp_all; done)

@[simp] theorem State.serialEnded_inner (s : State) (r : RoundRec) (read : LineBits) :
    (s.serialEnded r read).gate.fixedMarks = s.gate.fixedMarks ∧
      (s.serialEnded r read).gate.markStore = s.gate.markStore ∧
      (s.serialEnded r read).gate.pendingMark = s.gate.pendingMark ∧
      (s.serialEnded r read).gate.pmBusy = s.gate.pmBusy ∧ (s.serialEnded r read).gate.pmWaiting = s.gate.pmWaiting ∧
      (s.serialEnded r read).eng.absence = s.eng.absence ∧ (s.serialEnded r read).eng.rollCount = s.eng.rollCount ∧
      (s.serialEnded r read).eng.serial = s.eng.serial ∧ (s.serialEnded r read).key.states = s.key.states ∧
      (s.serialEnded r read).key.debounce = s.key.debounce ∧ (s.serialEnded r read).cred.slots = s.cred.slots ∧
      (s.serialEnded r read).cred.liveStamp = s.cred.liveStamp ∧
      (s.serialEnded r read).cred.pendingSlot = s.cred.pendingSlot ∧ (s.serialEnded r read).cred.busy = s.cred.busy ∧
      (s.serialEnded r read).cred.waiting = s.cred.waiting ∧ (s.serialEnded r read).pol.table = s.pol.table ∧
      (s.serialEnded r read).pol.store = s.pol.store ∧ (s.serialEnded r read).pol.last = s.pol.last ∧
      (s.serialEnded r read).pol.memos = s.pol.memos ∧ (s.serialEnded r read).sup.state = s.sup.state ∧
      (s.serialEnded r read).sup.warmup = s.sup.warmup ∧ (s.serialEnded r read).sup.stn = s.sup.stn ∧
      (s.serialEnded r read).sup.roster = s.sup.roster ∧ (s.serialEnded r read).sup.step = s.sup.step ∧
      (s.serialEnded r read).wipe.journal = s.wipe.journal ∧ (s.serialEnded r read).wipe.busy = s.wipe.busy ∧
      (s.serialEnded r read).wipe.waiting = s.wipe.waiting ∧ (s.serialEnded r read).wipe.again = s.wipe.again ∧
      (s.serialEnded r read).wipe.orderPending = s.wipe.orderPending := by
  simp only [State.serialEnded]
  repeat' split
  all_goals first | rfl | (simp; done) | (simp_all; done)

@[simp] theorem State.detailEnded_inner (s : State) (r : RoundRec) (read : LineBits) :
    (s.detailEnded r read).eng.queue = s.eng.queue ∧ (s.detailEnded r read).eng.absence = s.eng.absence ∧
      (s.detailEnded r read).eng.rollCount = s.eng.rollCount ∧ (s.detailEnded r read).eng.serial = s.eng.serial ∧
      (s.detailEnded r read).stat.fit = s.stat.fit ∧ (s.detailEnded r read).line.view = s.line.view ∧
      (s.detailEnded r read).line.role = s.line.role ∧ (s.detailEnded r read).line.idleTimer = s.line.idleTimer ∧
      (s.detailEnded r read).line.stuckTimer = s.line.stuckTimer ∧
      (s.detailEnded r read).line.holdTimer = s.line.holdTimer ∧ (s.detailEnded r read).line.header = s.line.header ∧
      (s.detailEnded r read).line.tail = s.line.tail := by
  simp only [State.detailEnded]
  repeat' split
  all_goals first | rfl | (simp; done) | (simp_all; done)

@[simp] theorem State.takeField_inner (s : State) (r : RoundRec) (f : Field) (read : LineBits) :
    (s.takeField r f read).gate.fixedMarks = s.gate.fixedMarks ∧
      (s.takeField r f read).gate.markStore = s.gate.markStore ∧ (s.takeField r f read).eng.absence = s.eng.absence ∧
      (s.takeField r f read).eng.rollCount = s.eng.rollCount ∧ (s.takeField r f read).eng.serial = s.eng.serial ∧
      (s.takeField r f read).key.states = s.key.states ∧ (s.takeField r f read).key.debounce = s.key.debounce ∧
      (s.takeField r f read).cred.slots = s.cred.slots ∧ (s.takeField r f read).cred.liveStamp = s.cred.liveStamp ∧
      (s.takeField r f read).cred.pendingSlot = s.cred.pendingSlot ∧ (s.takeField r f read).cred.busy = s.cred.busy ∧
      (s.takeField r f read).cred.waiting = s.cred.waiting ∧ (s.takeField r f read).tal.tally = s.tal.tally ∧
      (s.takeField r f read).pol.table = s.pol.table ∧ (s.takeField r f read).pol.store = s.pol.store ∧
      (s.takeField r f read).pol.last = s.pol.last ∧ (s.takeField r f read).pol.memos = s.pol.memos ∧
      (s.takeField r f read).sup.state = s.sup.state ∧ (s.takeField r f read).sup.warmup = s.sup.warmup ∧
      (s.takeField r f read).sup.stn = s.sup.stn ∧ (s.takeField r f read).sup.roster = s.sup.roster ∧
      (s.takeField r f read).sup.step = s.sup.step ∧ (s.takeField r f read).wipe.journal = s.wipe.journal ∧
      (s.takeField r f read).wipe.waiting = s.wipe.waiting ∧
      (s.takeField r f read).wipe.orderPending = s.wipe.orderPending ∧ (s.takeField r f read).nv.slots = s.nv.slots ∧
      (s.takeField r f read).nv.liveStamp = s.nv.liveStamp ∧
      (s.takeField r f read).nv.pendingSlot = s.nv.pendingSlot ∧ (s.takeField r f read).nv.tally = s.nv.tally ∧
      (s.takeField r f read).nv.holdOwed = s.nv.holdOwed ∧ (s.takeField r f read).nv.policy = s.nv.policy ∧
      (s.takeField r f read).nv.fixedMarks = s.nv.fixedMarks ∧ (s.takeField r f read).nv.journal = s.nv.journal ∧
      (s.takeField r f read).nv.flags = s.nv.flags ∧ (s.takeField r f read).nv.serial = s.nv.serial := by
  simp only [State.takeField]
  repeat' split
  all_goals first | rfl | (simp; done) | (simp_all; done)

@[simp] theorem State.fieldEnded_inner (s : State) (read : LineBits) :
    (s.fieldEnded read).gate.fixedMarks = s.gate.fixedMarks ∧ (s.fieldEnded read).gate.markStore = s.gate.markStore ∧
      (s.fieldEnded read).eng.absence = s.eng.absence ∧ (s.fieldEnded read).eng.rollCount = s.eng.rollCount ∧
      (s.fieldEnded read).eng.serial = s.eng.serial ∧ (s.fieldEnded read).key.states = s.key.states ∧
      (s.fieldEnded read).key.debounce = s.key.debounce ∧ (s.fieldEnded read).cred.slots = s.cred.slots ∧
      (s.fieldEnded read).cred.liveStamp = s.cred.liveStamp ∧
      (s.fieldEnded read).cred.pendingSlot = s.cred.pendingSlot ∧ (s.fieldEnded read).cred.busy = s.cred.busy ∧
      (s.fieldEnded read).cred.waiting = s.cred.waiting ∧ (s.fieldEnded read).tal.tally = s.tal.tally ∧
      (s.fieldEnded read).pol.table = s.pol.table ∧ (s.fieldEnded read).pol.store = s.pol.store ∧
      (s.fieldEnded read).pol.last = s.pol.last ∧ (s.fieldEnded read).pol.memos = s.pol.memos ∧
      (s.fieldEnded read).sup.state = s.sup.state ∧ (s.fieldEnded read).sup.warmup = s.sup.warmup ∧
      (s.fieldEnded read).sup.stn = s.sup.stn ∧ (s.fieldEnded read).sup.roster = s.sup.roster ∧
      (s.fieldEnded read).sup.step = s.sup.step ∧ (s.fieldEnded read).wipe.journal = s.wipe.journal ∧
      (s.fieldEnded read).wipe.waiting = s.wipe.waiting ∧
      (s.fieldEnded read).wipe.orderPending = s.wipe.orderPending ∧ (s.fieldEnded read).nv.slots = s.nv.slots ∧
      (s.fieldEnded read).nv.liveStamp = s.nv.liveStamp ∧ (s.fieldEnded read).nv.pendingSlot = s.nv.pendingSlot ∧
      (s.fieldEnded read).nv.tally = s.nv.tally ∧ (s.fieldEnded read).nv.holdOwed = s.nv.holdOwed ∧
      (s.fieldEnded read).nv.policy = s.nv.policy ∧ (s.fieldEnded read).nv.fixedMarks = s.nv.fixedMarks ∧
      (s.fieldEnded read).nv.journal = s.nv.journal ∧ (s.fieldEnded read).nv.flags = s.nv.flags ∧
      (s.fieldEnded read).nv.serial = s.nv.serial := by
  simp only [State.fieldEnded]
  repeat' split
  all_goals first | rfl | (simp; done) | (simp_all; done)

@[simp] theorem State.release_inner (s : State) :
    (s.release).line.view = s.line.view ∧ (s.release).line.role = s.line.role ∧ (s.release).line.pos = s.line.pos ∧
      (s.release).line.idleTimer = s.line.idleTimer ∧ (s.release).line.stuckTimer = s.line.stuckTimer ∧
      (s.release).line.holdTimer = s.line.holdTimer ∧ (s.release).line.offer = s.line.offer ∧
      (s.release).line.header = s.line.header ∧ (s.release).line.tail = s.line.tail := by
  simp only [State.release]
  repeat' split
  all_goals first | rfl | (simp; done) | (simp_all; done)

@[simp] theorem State.holdEnd_inner (s : State) :
    (s.holdEnd).eng.queue = s.eng.queue ∧ (s.holdEnd).eng.absence = s.eng.absence ∧
      (s.holdEnd).eng.rollCount = s.eng.rollCount ∧ (s.holdEnd).eng.serial = s.eng.serial ∧
      (s.holdEnd).tal.tally = s.tal.tally ∧ (s.holdEnd).tal.deadline = s.tal.deadline ∧
      (s.holdEnd).tal.holdOwed = s.tal.holdOwed := by
  simp only [State.holdEnd]
  repeat' split
  all_goals first | rfl | (simp; done) | (simp_all; done)

@[simp] theorem State.holdMaxReached_inner (s : State) :
    (s.holdMaxReached).line.view = s.line.view ∧ (s.holdMaxReached).line.role = s.line.role ∧
      (s.holdMaxReached).line.pos = s.line.pos ∧ (s.holdMaxReached).line.idleTimer = s.line.idleTimer ∧
      (s.holdMaxReached).line.offer = s.line.offer ∧ (s.holdMaxReached).line.header = s.line.header ∧
      (s.holdMaxReached).line.tail = s.line.tail := by
  simp only [State.holdMaxReached]
  repeat' split
  all_goals first | rfl | (simp; done) | (simp_all; done)

@[simp] theorem State.ownerMade_inner (s : State) (owner : HoldOwner) :
    (s.ownerMade owner).gate.staging = s.gate.staging ∧ (s.ownerMade owner).gate.outstanding = s.gate.outstanding ∧
      (s.ownerMade owner).gate.portReady = s.gate.portReady ∧ (s.ownerMade owner).eng.round = s.eng.round ∧
      (s.ownerMade owner).eng.absence = s.eng.absence ∧ (s.ownerMade owner).eng.rollCount = s.eng.rollCount ∧
      (s.ownerMade owner).eng.serial = s.eng.serial ∧ (s.ownerMade owner).key.states = s.key.states ∧
      (s.ownerMade owner).key.debounce = s.key.debounce ∧ (s.ownerMade owner).key.setAside = s.key.setAside ∧
      (s.ownerMade owner).sup.state = s.sup.state ∧ (s.ownerMade owner).sup.warmup = s.sup.warmup ∧
      (s.ownerMade owner).sup.stn = s.sup.stn ∧ (s.ownerMade owner).sup.roster = s.sup.roster ∧
      (s.ownerMade owner).sup.step = s.sup.step ∧ (s.ownerMade owner).grd.pulseTimer = s.grd.pulseTimer ∧
      (s.ownerMade owner).grd.holdDue = s.grd.holdDue ∧ (s.ownerMade owner).wipe.again = s.wipe.again ∧
      (s.ownerMade owner).nv.holdOwed = s.nv.holdOwed ∧ (s.ownerMade owner).nv.policy = s.nv.policy ∧
      (s.ownerMade owner).nv.fixedMarks = s.nv.fixedMarks ∧ (s.ownerMade owner).nv.flags = s.nv.flags ∧
      (s.ownerMade owner).nv.serial = s.nv.serial := by
  simp only [State.ownerMade]
  repeat' split
  all_goals first | rfl | (simp; done) | (simp_all; done)

@[simp] theorem State.ownerFailed_inner (s : State) (owner : HoldOwner) :
    (s.ownerFailed owner).gate.fixedMarks = s.gate.fixedMarks ∧
      (s.ownerFailed owner).gate.markStore = s.gate.markStore ∧ (s.ownerFailed owner).gate.session = s.gate.session ∧
      (s.ownerFailed owner).gate.staging = s.gate.staging ∧
      (s.ownerFailed owner).gate.markLockOpen = s.gate.markLockOpen ∧
      (s.ownerFailed owner).gate.presented = s.gate.presented ∧
      (s.ownerFailed owner).gate.outstanding = s.gate.outstanding ∧
      (s.ownerFailed owner).gate.portReady = s.gate.portReady ∧
      (s.ownerFailed owner).gate.eraseWaiting = s.gate.eraseWaiting ∧
      (s.ownerFailed owner).gate.yieldCount = s.gate.yieldCount ∧ (s.ownerFailed owner).eng.queue = s.eng.queue ∧
      (s.ownerFailed owner).eng.absence = s.eng.absence ∧ (s.ownerFailed owner).eng.rollCount = s.eng.rollCount ∧
      (s.ownerFailed owner).eng.serial = s.eng.serial ∧ (s.ownerFailed owner).cred.slots = s.cred.slots ∧
      (s.ownerFailed owner).cred.liveStamp = s.cred.liveStamp ∧
      (s.ownerFailed owner).cred.plainKey = s.cred.plainKey ∧ (s.ownerFailed owner).cred.genKey = s.cred.genKey ∧
      (s.ownerFailed owner).cred.roundEntry = s.cred.roundEntry ∧
      (s.ownerFailed owner).cred.roundChange = s.cred.roundChange ∧ (s.ownerFailed owner).tal.tally = s.tal.tally ∧
      (s.ownerFailed owner).tal.deadline = s.tal.deadline ∧ (s.ownerFailed owner).tal.holdOwed = s.tal.holdOwed ∧
      (s.ownerFailed owner).tal.owedStore = s.tal.owedStore ∧ (s.ownerFailed owner).wipe.journal = s.wipe.journal ∧
      (s.ownerFailed owner).wipe.orderPending = s.wipe.orderPending ∧
      (s.ownerFailed owner).wipe.erase = s.wipe.erase ∧
      (s.ownerFailed owner).wipe.progressTimer = s.wipe.progressTimer ∧ (s.ownerFailed owner).stat.fit = s.stat.fit ∧
      (s.ownerFailed owner).nv.slots = s.nv.slots ∧ (s.ownerFailed owner).nv.liveStamp = s.nv.liveStamp ∧
      (s.ownerFailed owner).nv.tally = s.nv.tally ∧ (s.ownerFailed owner).nv.holdOwed = s.nv.holdOwed ∧
      (s.ownerFailed owner).nv.policy = s.nv.policy ∧ (s.ownerFailed owner).nv.fixedMarks = s.nv.fixedMarks ∧
      (s.ownerFailed owner).nv.journal = s.nv.journal ∧ (s.ownerFailed owner).nv.flags = s.nv.flags ∧
      (s.ownerFailed owner).nv.serial = s.nv.serial := by
  simp only [State.ownerFailed]
  repeat' split
  all_goals first | rfl | (simp; done) | (simp_all; done)

@[simp] theorem State.heldStoreMade_inner (s : State) :
    (s.heldStoreMade).gate.staging = s.gate.staging ∧ (s.heldStoreMade).gate.outstanding = s.gate.outstanding ∧
      (s.heldStoreMade).gate.portReady = s.gate.portReady ∧ (s.heldStoreMade).eng.absence = s.eng.absence ∧
      (s.heldStoreMade).eng.rollCount = s.eng.rollCount ∧ (s.heldStoreMade).eng.serial = s.eng.serial ∧
      (s.heldStoreMade).key.states = s.key.states ∧ (s.heldStoreMade).key.debounce = s.key.debounce ∧
      (s.heldStoreMade).key.setAside = s.key.setAside ∧ (s.heldStoreMade).sup.state = s.sup.state ∧
      (s.heldStoreMade).sup.warmup = s.sup.warmup ∧ (s.heldStoreMade).sup.stn = s.sup.stn ∧
      (s.heldStoreMade).sup.roster = s.sup.roster ∧ (s.heldStoreMade).sup.step = s.sup.step ∧
      (s.heldStoreMade).grd.pulseTimer = s.grd.pulseTimer ∧ (s.heldStoreMade).grd.holdDue = s.grd.holdDue ∧
      (s.heldStoreMade).wipe.again = s.wipe.again ∧ (s.heldStoreMade).line.view = s.line.view ∧
      (s.heldStoreMade).line.role = s.line.role ∧ (s.heldStoreMade).line.pos = s.line.pos ∧
      (s.heldStoreMade).line.idleTimer = s.line.idleTimer ∧ (s.heldStoreMade).line.stuckTimer = s.line.stuckTimer ∧
      (s.heldStoreMade).line.holdTimer = s.line.holdTimer ∧ (s.heldStoreMade).line.offer = s.line.offer ∧
      (s.heldStoreMade).line.header = s.line.header ∧ (s.heldStoreMade).line.tail = s.line.tail ∧
      (s.heldStoreMade).nv.holdOwed = s.nv.holdOwed ∧ (s.heldStoreMade).nv.policy = s.nv.policy ∧
      (s.heldStoreMade).nv.fixedMarks = s.nv.fixedMarks ∧ (s.heldStoreMade).nv.flags = s.nv.flags ∧
      (s.heldStoreMade).nv.serial = s.nv.serial := by
  simp only [State.heldStoreMade]
  repeat' split
  all_goals first | rfl | (simp; done) | (simp_all; done)

@[simp] theorem State.heldStoreFailed_inner (s : State) :
    (s.heldStoreFailed).gate.fixedMarks = s.gate.fixedMarks ∧ (s.heldStoreFailed).gate.markStore = s.gate.markStore ∧
      (s.heldStoreFailed).gate.session = s.gate.session ∧ (s.heldStoreFailed).gate.staging = s.gate.staging ∧
      (s.heldStoreFailed).gate.markLockOpen = s.gate.markLockOpen ∧
      (s.heldStoreFailed).gate.presented = s.gate.presented ∧
      (s.heldStoreFailed).gate.outstanding = s.gate.outstanding ∧
      (s.heldStoreFailed).gate.portReady = s.gate.portReady ∧
      (s.heldStoreFailed).gate.eraseWaiting = s.gate.eraseWaiting ∧
      (s.heldStoreFailed).gate.yieldCount = s.gate.yieldCount ∧ (s.heldStoreFailed).eng.queue = s.eng.queue ∧
      (s.heldStoreFailed).eng.absence = s.eng.absence ∧ (s.heldStoreFailed).eng.rollCount = s.eng.rollCount ∧
      (s.heldStoreFailed).eng.serial = s.eng.serial ∧ (s.heldStoreFailed).cred.slots = s.cred.slots ∧
      (s.heldStoreFailed).cred.liveStamp = s.cred.liveStamp ∧ (s.heldStoreFailed).cred.plainKey = s.cred.plainKey ∧
      (s.heldStoreFailed).cred.genKey = s.cred.genKey ∧ (s.heldStoreFailed).cred.roundEntry = s.cred.roundEntry ∧
      (s.heldStoreFailed).cred.roundChange = s.cred.roundChange ∧ (s.heldStoreFailed).tal.tally = s.tal.tally ∧
      (s.heldStoreFailed).tal.deadline = s.tal.deadline ∧ (s.heldStoreFailed).tal.holdOwed = s.tal.holdOwed ∧
      (s.heldStoreFailed).tal.owedStore = s.tal.owedStore ∧ (s.heldStoreFailed).wipe.journal = s.wipe.journal ∧
      (s.heldStoreFailed).wipe.orderPending = s.wipe.orderPending ∧ (s.heldStoreFailed).wipe.erase = s.wipe.erase ∧
      (s.heldStoreFailed).wipe.progressTimer = s.wipe.progressTimer ∧ (s.heldStoreFailed).stat.fit = s.stat.fit ∧
      (s.heldStoreFailed).line.view = s.line.view ∧ (s.heldStoreFailed).line.role = s.line.role ∧
      (s.heldStoreFailed).line.pos = s.line.pos ∧ (s.heldStoreFailed).line.idleTimer = s.line.idleTimer ∧
      (s.heldStoreFailed).line.stuckTimer = s.line.stuckTimer ∧
      (s.heldStoreFailed).line.holdTimer = s.line.holdTimer ∧ (s.heldStoreFailed).line.offer = s.line.offer ∧
      (s.heldStoreFailed).line.header = s.line.header ∧ (s.heldStoreFailed).line.tail = s.line.tail ∧
      (s.heldStoreFailed).nv.slots = s.nv.slots ∧ (s.heldStoreFailed).nv.liveStamp = s.nv.liveStamp ∧
      (s.heldStoreFailed).nv.tally = s.nv.tally ∧ (s.heldStoreFailed).nv.holdOwed = s.nv.holdOwed ∧
      (s.heldStoreFailed).nv.policy = s.nv.policy ∧ (s.heldStoreFailed).nv.fixedMarks = s.nv.fixedMarks ∧
      (s.heldStoreFailed).nv.journal = s.nv.journal ∧ (s.heldStoreFailed).nv.flags = s.nv.flags ∧
      (s.heldStoreFailed).nv.serial = s.nv.serial := by
  simp only [State.heldStoreFailed]
  repeat' split
  all_goals first | rfl | (simp; done) | (simp_all; done)

@[simp] theorem State.lateStoreMade_inner (s : State) (owner : HoldOwner) :
    (s.lateStoreMade owner).gate.staging = s.gate.staging ∧
      (s.lateStoreMade owner).gate.outstanding = s.gate.outstanding ∧
      (s.lateStoreMade owner).gate.portReady = s.gate.portReady ∧ (s.lateStoreMade owner).eng.round = s.eng.round ∧
      (s.lateStoreMade owner).eng.absence = s.eng.absence ∧ (s.lateStoreMade owner).eng.rollCount = s.eng.rollCount ∧
      (s.lateStoreMade owner).eng.serial = s.eng.serial ∧ (s.lateStoreMade owner).key.states = s.key.states ∧
      (s.lateStoreMade owner).key.debounce = s.key.debounce ∧ (s.lateStoreMade owner).key.setAside = s.key.setAside ∧
      (s.lateStoreMade owner).sup.state = s.sup.state ∧ (s.lateStoreMade owner).sup.warmup = s.sup.warmup ∧
      (s.lateStoreMade owner).sup.stn = s.sup.stn ∧ (s.lateStoreMade owner).sup.roster = s.sup.roster ∧
      (s.lateStoreMade owner).sup.step = s.sup.step ∧ (s.lateStoreMade owner).grd.pulseTimer = s.grd.pulseTimer ∧
      (s.lateStoreMade owner).grd.holdDue = s.grd.holdDue ∧ (s.lateStoreMade owner).wipe.again = s.wipe.again ∧
      (s.lateStoreMade owner).nv.holdOwed = s.nv.holdOwed ∧ (s.lateStoreMade owner).nv.policy = s.nv.policy ∧
      (s.lateStoreMade owner).nv.fixedMarks = s.nv.fixedMarks ∧ (s.lateStoreMade owner).nv.flags = s.nv.flags ∧
      (s.lateStoreMade owner).nv.serial = s.nv.serial := by
  simp only [State.lateStoreMade]
  repeat' split
  all_goals first | rfl | (simp; done) | (simp_all; done)

@[simp] theorem State.recordRound_inner (s : State) (r : RoundRec) :
    (s.recordRound r).eng.queue = s.eng.queue ∧ (s.recordRound r).eng.rollCount = s.eng.rollCount ∧
      (s.recordRound r).eng.serial = s.eng.serial ∧ (s.recordRound r).stat.fit = s.stat.fit := by
  simp only [State.recordRound]
  repeat' split
  all_goals first | rfl | (simp; done) | (simp_all; done)

@[simp] theorem State.discardAbove_inner (s : State) (high : Nat) :
    (s.discardAbove high).cred.slots = s.cred.slots ∧ (s.discardAbove high).cred.liveStamp = s.cred.liveStamp ∧
      (s.discardAbove high).cred.plainKey = s.cred.plainKey ∧ (s.discardAbove high).cred.genKey = s.cred.genKey ∧
      (s.discardAbove high).cred.roundEntry = s.cred.roundEntry ∧
      (s.discardAbove high).cred.roundChange = s.cred.roundChange ∧ (s.discardAbove high).nv.slots = s.nv.slots ∧
      (s.discardAbove high).nv.liveStamp = s.nv.liveStamp ∧ (s.discardAbove high).nv.tally = s.nv.tally ∧
      (s.discardAbove high).nv.holdOwed = s.nv.holdOwed ∧ (s.discardAbove high).nv.policy = s.nv.policy ∧
      (s.discardAbove high).nv.fixedMarks = s.nv.fixedMarks ∧
      (s.discardAbove high).nv.pendingMark = s.nv.pendingMark ∧ (s.discardAbove high).nv.journal = s.nv.journal ∧
      (s.discardAbove high).nv.flags = s.nv.flags ∧ (s.discardAbove high).nv.serial = s.nv.serial := by
  simp only [State.discardAbove]
  repeat' split
  all_goals first | rfl | (simp; done) | (simp_all; done)

@[simp] theorem State.clearMustChange_inner (s : State) (target : CodeSlotNo) :
    (s.clearMustChange target).grd.state = s.grd.state ∧ (s.clearMustChange target).grd.matched = s.grd.matched ∧
      (s.clearMustChange target).grd.batteryTimer = s.grd.batteryTimer ∧
      (s.clearMustChange target).grd.pulseTimer = s.grd.pulseTimer ∧
      (s.clearMustChange target).grd.holdDue = s.grd.holdDue := by
  simp only [State.clearMustChange]
  repeat' split
  all_goals first | rfl | (simp; done) | (simp_all; done)

@[simp] theorem State.promoteAt_inner (s : State) (high : Nat) (low : Nat) :
    (s.promoteAt high low).gate.fixedMarks = s.gate.fixedMarks ∧
      (s.promoteAt high low).gate.markStore = s.gate.markStore ∧
      (s.promoteAt high low).gate.pendingMark = s.gate.pendingMark ∧
      (s.promoteAt high low).gate.pmBusy = s.gate.pmBusy ∧ (s.promoteAt high low).gate.pmWaiting = s.gate.pmWaiting ∧
      (s.promoteAt high low).gate.staging = s.gate.staging ∧
      (s.promoteAt high low).gate.outstanding = s.gate.outstanding ∧
      (s.promoteAt high low).gate.portReady = s.gate.portReady ∧
      (s.promoteAt high low).gate.eraseWaiting = s.gate.eraseWaiting ∧
      (s.promoteAt high low).gate.yieldCount = s.gate.yieldCount ∧ (s.promoteAt high low).eng.round = s.eng.round ∧
      (s.promoteAt high low).eng.absence = s.eng.absence ∧ (s.promoteAt high low).eng.rollCount = s.eng.rollCount ∧
      (s.promoteAt high low).eng.serial = s.eng.serial ∧ (s.promoteAt high low).key.states = s.key.states ∧
      (s.promoteAt high low).key.debounce = s.key.debounce ∧ (s.promoteAt high low).key.setAside = s.key.setAside ∧
      (s.promoteAt high low).cred.plainKey = s.cred.plainKey ∧ (s.promoteAt high low).cred.genKey = s.cred.genKey ∧
      (s.promoteAt high low).cred.roundEntry = s.cred.roundEntry ∧
      (s.promoteAt high low).cred.roundChange = s.cred.roundChange ∧ (s.promoteAt high low).sup.state = s.sup.state ∧
      (s.promoteAt high low).sup.warmup = s.sup.warmup ∧ (s.promoteAt high low).sup.stn = s.sup.stn ∧
      (s.promoteAt high low).sup.roster = s.sup.roster ∧ (s.promoteAt high low).sup.step = s.sup.step ∧
      (s.promoteAt high low).grd.matched = s.grd.matched ∧
      (s.promoteAt high low).grd.batteryTimer = s.grd.batteryTimer ∧
      (s.promoteAt high low).grd.pulseTimer = s.grd.pulseTimer ∧ (s.promoteAt high low).grd.holdDue = s.grd.holdDue ∧
      (s.promoteAt high low).nv.slots = s.nv.slots ∧ (s.promoteAt high low).nv.liveStamp = s.nv.liveStamp ∧
      (s.promoteAt high low).nv.tally = s.nv.tally ∧ (s.promoteAt high low).nv.holdOwed = s.nv.holdOwed ∧
      (s.promoteAt high low).nv.policy = s.nv.policy ∧ (s.promoteAt high low).nv.fixedMarks = s.nv.fixedMarks ∧
      (s.promoteAt high low).nv.pendingMark = s.nv.pendingMark ∧ (s.promoteAt high low).nv.journal = s.nv.journal ∧
      (s.promoteAt high low).nv.flags = s.nv.flags ∧ (s.promoteAt high low).nv.serial = s.nv.serial := by
  simp only [State.promoteAt]
  repeat' split
  all_goals first | rfl | (simp; done) | (simp_all; done)

@[simp] theorem State.flagBehind_inner (s : State) (high : Nat) :
    (s.flagBehind high).eng.queue = s.eng.queue ∧ (s.flagBehind high).eng.absence = s.eng.absence ∧
      (s.flagBehind high).eng.rollCount = s.eng.rollCount ∧ (s.flagBehind high).eng.serial = s.eng.serial ∧
      (s.flagBehind high).stat.fit = s.stat.fit := by
  simp only [State.flagBehind]
  repeat' split
  all_goals first | rfl | (simp; done) | (simp_all; done)

@[simp] theorem State.stampEffects_inner (s : State) (high : Nat) (low : Nat) :
    (s.stampEffects high low).gate.fixedMarks = s.gate.fixedMarks ∧
      (s.stampEffects high low).gate.markStore = s.gate.markStore ∧
      (s.stampEffects high low).gate.pendingMark = s.gate.pendingMark ∧
      (s.stampEffects high low).gate.pmBusy = s.gate.pmBusy ∧
      (s.stampEffects high low).gate.pmWaiting = s.gate.pmWaiting ∧
      (s.stampEffects high low).gate.staging = s.gate.staging ∧
      (s.stampEffects high low).gate.outstanding = s.gate.outstanding ∧
      (s.stampEffects high low).gate.portReady = s.gate.portReady ∧
      (s.stampEffects high low).gate.eraseWaiting = s.gate.eraseWaiting ∧
      (s.stampEffects high low).gate.yieldCount = s.gate.yieldCount ∧
      (s.stampEffects high low).eng.absence = s.eng.absence ∧
      (s.stampEffects high low).eng.rollCount = s.eng.rollCount ∧
      (s.stampEffects high low).eng.serial = s.eng.serial ∧ (s.stampEffects high low).key.states = s.key.states ∧
      (s.stampEffects high low).key.debounce = s.key.debounce ∧
      (s.stampEffects high low).key.setAside = s.key.setAside ∧
      (s.stampEffects high low).cred.plainKey = s.cred.plainKey ∧
      (s.stampEffects high low).cred.genKey = s.cred.genKey ∧
      (s.stampEffects high low).cred.roundEntry = s.cred.roundEntry ∧
      (s.stampEffects high low).cred.roundChange = s.cred.roundChange ∧
      (s.stampEffects high low).sup.state = s.sup.state ∧ (s.stampEffects high low).sup.warmup = s.sup.warmup ∧
      (s.stampEffects high low).sup.stn = s.sup.stn ∧ (s.stampEffects high low).sup.roster = s.sup.roster ∧
      (s.stampEffects high low).sup.step = s.sup.step ∧ (s.stampEffects high low).grd.matched = s.grd.matched ∧
      (s.stampEffects high low).grd.batteryTimer = s.grd.batteryTimer ∧
      (s.stampEffects high low).grd.pulseTimer = s.grd.pulseTimer ∧
      (s.stampEffects high low).grd.holdDue = s.grd.holdDue ∧ (s.stampEffects high low).stat.fit = s.stat.fit ∧
      (s.stampEffects high low).nv.slots = s.nv.slots ∧ (s.stampEffects high low).nv.liveStamp = s.nv.liveStamp ∧
      (s.stampEffects high low).nv.tally = s.nv.tally ∧ (s.stampEffects high low).nv.holdOwed = s.nv.holdOwed ∧
      (s.stampEffects high low).nv.policy = s.nv.policy ∧ (s.stampEffects high low).nv.fixedMarks = s.nv.fixedMarks ∧
      (s.stampEffects high low).nv.pendingMark = s.nv.pendingMark ∧
      (s.stampEffects high low).nv.journal = s.nv.journal ∧ (s.stampEffects high low).nv.flags = s.nv.flags ∧
      (s.stampEffects high low).nv.serial = s.nv.serial := by
  simp only [State.stampEffects]
  repeat' split
  all_goals first | rfl | (simp; done) | (simp_all; done)

@[simp] theorem State.endRoll_inner (s : State) (r : RoundRec) (cls : RoundClass) :
    (s.endRoll r cls).gate.pendingMark = s.gate.pendingMark ∧ (s.endRoll r cls).gate.pmBusy = s.gate.pmBusy ∧
      (s.endRoll r cls).gate.pmWaiting = s.gate.pmWaiting ∧ (s.endRoll r cls).gate.staging = s.gate.staging ∧
      (s.endRoll r cls).gate.outstanding = s.gate.outstanding ∧ (s.endRoll r cls).gate.portReady = s.gate.portReady ∧
      (s.endRoll r cls).eng.absence = s.eng.absence ∧ (s.endRoll r cls).eng.serial = s.eng.serial ∧
      (s.endRoll r cls).key.states = s.key.states ∧ (s.endRoll r cls).key.debounce = s.key.debounce ∧
      (s.endRoll r cls).key.setAside = s.key.setAside ∧ (s.endRoll r cls).cred.roundEntry = s.cred.roundEntry ∧
      (s.endRoll r cls).cred.roundChange = s.cred.roundChange ∧ (s.endRoll r cls).sup.state = s.sup.state ∧
      (s.endRoll r cls).sup.warmup = s.sup.warmup ∧ (s.endRoll r cls).sup.stn = s.sup.stn ∧
      (s.endRoll r cls).sup.roster = s.sup.roster ∧ (s.endRoll r cls).sup.step = s.sup.step ∧
      (s.endRoll r cls).grd.pulseTimer = s.grd.pulseTimer ∧ (s.endRoll r cls).grd.holdDue = s.grd.holdDue ∧
      (s.endRoll r cls).wipe.journal = s.wipe.journal ∧ (s.endRoll r cls).stat.fit = s.stat.fit ∧
      (s.endRoll r cls).nv.slots = s.nv.slots ∧ (s.endRoll r cls).nv.liveStamp = s.nv.liveStamp ∧
      (s.endRoll r cls).nv.tally = s.nv.tally ∧ (s.endRoll r cls).nv.holdOwed = s.nv.holdOwed ∧
      (s.endRoll r cls).nv.policy = s.nv.policy ∧ (s.endRoll r cls).nv.fixedMarks = s.nv.fixedMarks ∧
      (s.endRoll r cls).nv.pendingMark = s.nv.pendingMark ∧ (s.endRoll r cls).nv.journal = s.nv.journal ∧
      (s.endRoll r cls).nv.flags = s.nv.flags ∧ (s.endRoll r cls).nv.serial = s.nv.serial := by
  simp only [State.endRoll]
  repeat' split
  all_goals first | rfl | (simp; done) | (simp_all; done)

@[simp] theorem State.matchEffects_inner (s : State) (r : RoundRec) (slot : CodeSlotNo) :
    (s.matchEffects r slot).gate.fixedMarks = s.gate.fixedMarks ∧
      (s.matchEffects r slot).gate.markStore = s.gate.markStore ∧
      (s.matchEffects r slot).gate.pendingMark = s.gate.pendingMark ∧
      (s.matchEffects r slot).gate.pmBusy = s.gate.pmBusy ∧
      (s.matchEffects r slot).gate.pmWaiting = s.gate.pmWaiting ∧
      (s.matchEffects r slot).gate.staging = s.gate.staging ∧
      (s.matchEffects r slot).gate.outstanding = s.gate.outstanding ∧
      (s.matchEffects r slot).gate.portReady = s.gate.portReady ∧
      (s.matchEffects r slot).gate.eraseWaiting = s.gate.eraseWaiting ∧
      (s.matchEffects r slot).gate.yieldCount = s.gate.yieldCount ∧ (s.matchEffects r slot).eng.round = s.eng.round ∧
      (s.matchEffects r slot).eng.absence = s.eng.absence ∧ (s.matchEffects r slot).eng.rollCount = s.eng.rollCount ∧
      (s.matchEffects r slot).eng.serial = s.eng.serial ∧ (s.matchEffects r slot).key.states = s.key.states ∧
      (s.matchEffects r slot).key.debounce = s.key.debounce ∧ (s.matchEffects r slot).key.setAside = s.key.setAside ∧
      (s.matchEffects r slot).cred.slots = s.cred.slots ∧ (s.matchEffects r slot).cred.liveStamp = s.cred.liveStamp ∧
      (s.matchEffects r slot).cred.pendingSlot = s.cred.pendingSlot ∧
      (s.matchEffects r slot).cred.genKey = s.cred.genKey ∧
      (s.matchEffects r slot).cred.roundEntry = s.cred.roundEntry ∧
      (s.matchEffects r slot).cred.roundChange = s.cred.roundChange ∧
      (s.matchEffects r slot).cred.busy = s.cred.busy ∧ (s.matchEffects r slot).cred.waiting = s.cred.waiting ∧
      (s.matchEffects r slot).tal.deadline = s.tal.deadline ∧ (s.matchEffects r slot).tal.holdOwed = s.tal.holdOwed ∧
      (s.matchEffects r slot).tal.owedStore = s.tal.owedStore ∧ (s.matchEffects r slot).sup.state = s.sup.state ∧
      (s.matchEffects r slot).sup.warmup = s.sup.warmup ∧ (s.matchEffects r slot).sup.stn = s.sup.stn ∧
      (s.matchEffects r slot).sup.roster = s.sup.roster ∧ (s.matchEffects r slot).sup.step = s.sup.step ∧
      (s.matchEffects r slot).grd.pulseTimer = s.grd.pulseTimer := by
  simp only [State.matchEffects]
  repeat' split
  all_goals first | rfl | (simp; done) | (simp_all; done)

@[simp] theorem State.endCheck_inner (s : State) (r : RoundRec) (cls : RoundClass) :
    (s.endCheck r cls).gate.fixedMarks = s.gate.fixedMarks ∧ (s.endCheck r cls).gate.markStore = s.gate.markStore ∧
      (s.endCheck r cls).gate.pendingMark = s.gate.pendingMark ∧ (s.endCheck r cls).gate.pmBusy = s.gate.pmBusy ∧
      (s.endCheck r cls).gate.pmWaiting = s.gate.pmWaiting ∧ (s.endCheck r cls).gate.staging = s.gate.staging ∧
      (s.endCheck r cls).gate.outstanding = s.gate.outstanding ∧
      (s.endCheck r cls).gate.portReady = s.gate.portReady ∧
      (s.endCheck r cls).gate.eraseWaiting = s.gate.eraseWaiting ∧
      (s.endCheck r cls).gate.yieldCount = s.gate.yieldCount ∧ (s.endCheck r cls).eng.absence = s.eng.absence ∧
      (s.endCheck r cls).eng.rollCount = s.eng.rollCount ∧ (s.endCheck r cls).eng.serial = s.eng.serial ∧
      (s.endCheck r cls).key.states = s.key.states ∧ (s.endCheck r cls).key.debounce = s.key.debounce ∧
      (s.endCheck r cls).key.setAside = s.key.setAside ∧ (s.endCheck r cls).cred.slots = s.cred.slots ∧
      (s.endCheck r cls).cred.liveStamp = s.cred.liveStamp ∧
      (s.endCheck r cls).cred.pendingSlot = s.cred.pendingSlot ∧ (s.endCheck r cls).cred.genKey = s.cred.genKey ∧
      (s.endCheck r cls).cred.roundChange = s.cred.roundChange ∧ (s.endCheck r cls).cred.busy = s.cred.busy ∧
      (s.endCheck r cls).cred.waiting = s.cred.waiting ∧ (s.endCheck r cls).sup.state = s.sup.state ∧
      (s.endCheck r cls).sup.warmup = s.sup.warmup ∧ (s.endCheck r cls).sup.stn = s.sup.stn ∧
      (s.endCheck r cls).sup.roster = s.sup.roster ∧ (s.endCheck r cls).sup.step = s.sup.step ∧
      (s.endCheck r cls).grd.pulseTimer = s.grd.pulseTimer ∧ (s.endCheck r cls).stat.fit = s.stat.fit := by
  simp only [State.endCheck]
  repeat' split
  all_goals first | rfl | (simp; done) | (simp_all; done)

@[simp] theorem State.takePromotion_inner (s : State) (p : PendingChange) :
    (s.takePromotion p).gate.fixedMarks = s.gate.fixedMarks ∧ (s.takePromotion p).gate.markStore = s.gate.markStore ∧
      (s.takePromotion p).gate.pendingMark = s.gate.pendingMark ∧ (s.takePromotion p).gate.pmBusy = s.gate.pmBusy ∧
      (s.takePromotion p).gate.pmWaiting = s.gate.pmWaiting ∧ (s.takePromotion p).gate.staging = s.gate.staging ∧
      (s.takePromotion p).gate.outstanding = s.gate.outstanding ∧
      (s.takePromotion p).gate.portReady = s.gate.portReady ∧
      (s.takePromotion p).gate.eraseWaiting = s.gate.eraseWaiting ∧
      (s.takePromotion p).gate.yieldCount = s.gate.yieldCount ∧ (s.takePromotion p).eng.round = s.eng.round ∧
      (s.takePromotion p).eng.absence = s.eng.absence ∧ (s.takePromotion p).eng.rollCount = s.eng.rollCount ∧
      (s.takePromotion p).eng.serial = s.eng.serial ∧ (s.takePromotion p).key.states = s.key.states ∧
      (s.takePromotion p).key.debounce = s.key.debounce ∧ (s.takePromotion p).key.setAside = s.key.setAside ∧
      (s.takePromotion p).cred.slots = s.cred.slots ∧ (s.takePromotion p).cred.liveStamp = s.cred.liveStamp ∧
      (s.takePromotion p).cred.pendingSlot = s.cred.pendingSlot ∧ (s.takePromotion p).cred.genKey = s.cred.genKey ∧
      (s.takePromotion p).cred.roundEntry = s.cred.roundEntry ∧
      (s.takePromotion p).cred.roundChange = s.cred.roundChange ∧ (s.takePromotion p).cred.busy = s.cred.busy ∧
      (s.takePromotion p).cred.waiting = s.cred.waiting ∧ (s.takePromotion p).sup.state = s.sup.state ∧
      (s.takePromotion p).sup.warmup = s.sup.warmup ∧ (s.takePromotion p).sup.stn = s.sup.stn ∧
      (s.takePromotion p).sup.roster = s.sup.roster ∧ (s.takePromotion p).sup.step = s.sup.step ∧
      (s.takePromotion p).grd.pulseTimer = s.grd.pulseTimer ∧ (s.takePromotion p).grd.holdDue = s.grd.holdDue := by
  simp only [State.takePromotion]
  repeat' split
  all_goals first | rfl | (simp; done) | (simp_all; done)

@[simp] theorem State.endSetcode_inner (s : State) (r : RoundRec) (cls : RoundClass) :
    (s.endSetcode r cls).gate.fixedMarks = s.gate.fixedMarks ∧
      (s.endSetcode r cls).gate.markStore = s.gate.markStore ∧
      (s.endSetcode r cls).gate.pendingMark = s.gate.pendingMark ∧ (s.endSetcode r cls).gate.pmBusy = s.gate.pmBusy ∧
      (s.endSetcode r cls).gate.pmWaiting = s.gate.pmWaiting ∧ (s.endSetcode r cls).gate.staging = s.gate.staging ∧
      (s.endSetcode r cls).gate.outstanding = s.gate.outstanding ∧
      (s.endSetcode r cls).gate.portReady = s.gate.portReady ∧
      (s.endSetcode r cls).gate.eraseWaiting = s.gate.eraseWaiting ∧
      (s.endSetcode r cls).gate.yieldCount = s.gate.yieldCount ∧ (s.endSetcode r cls).eng.round = s.eng.round ∧
      (s.endSetcode r cls).eng.absence = s.eng.absence ∧ (s.endSetcode r cls).eng.rollCount = s.eng.rollCount ∧
      (s.endSetcode r cls).eng.serial = s.eng.serial ∧ (s.endSetcode r cls).key.states = s.key.states ∧
      (s.endSetcode r cls).key.debounce = s.key.debounce ∧ (s.endSetcode r cls).key.setAside = s.key.setAside ∧
      (s.endSetcode r cls).cred.roundEntry = s.cred.roundEntry ∧ (s.endSetcode r cls).sup.state = s.sup.state ∧
      (s.endSetcode r cls).sup.warmup = s.sup.warmup ∧ (s.endSetcode r cls).sup.stn = s.sup.stn ∧
      (s.endSetcode r cls).sup.roster = s.sup.roster ∧ (s.endSetcode r cls).sup.step = s.sup.step ∧
      (s.endSetcode r cls).grd.pulseTimer = s.grd.pulseTimer ∧ (s.endSetcode r cls).grd.holdDue = s.grd.holdDue ∧
      (s.endSetcode r cls).nv.slots = s.nv.slots ∧ (s.endSetcode r cls).nv.liveStamp = s.nv.liveStamp ∧
      (s.endSetcode r cls).nv.tally = s.nv.tally ∧ (s.endSetcode r cls).nv.holdOwed = s.nv.holdOwed ∧
      (s.endSetcode r cls).nv.policy = s.nv.policy ∧ (s.endSetcode r cls).nv.fixedMarks = s.nv.fixedMarks ∧
      (s.endSetcode r cls).nv.pendingMark = s.nv.pendingMark ∧ (s.endSetcode r cls).nv.journal = s.nv.journal ∧
      (s.endSetcode r cls).nv.flags = s.nv.flags ∧ (s.endSetcode r cls).nv.serial = s.nv.serial := by
  simp only [State.endSetcode]
  repeat' split
  all_goals first | rfl | (simp; done) | (simp_all; done)

@[simp] theorem State.endSession_inner (s : State) (applies : Bool) :
    (s.endSession applies).gate.fixedMarks = s.gate.fixedMarks ∧
      (s.endSession applies).gate.markStore = s.gate.markStore ∧
      (s.endSession applies).gate.pendingMark = s.gate.pendingMark ∧
      (s.endSession applies).gate.pmBusy = s.gate.pmBusy ∧ (s.endSession applies).gate.pmWaiting = s.gate.pmWaiting ∧
      (s.endSession applies).gate.markLockOpen = s.gate.markLockOpen ∧
      (s.endSession applies).gate.presented = s.gate.presented ∧
      (s.endSession applies).gate.outstanding = s.gate.outstanding ∧
      (s.endSession applies).gate.portReady = s.gate.portReady ∧
      (s.endSession applies).gate.eraseWaiting = s.gate.eraseWaiting ∧
      (s.endSession applies).gate.yieldCount = s.gate.yieldCount := by
  simp only [State.endSession]
  repeat' split
  all_goals first | rfl | (simp; done) | (simp_all; done)

@[simp] theorem State.endFixed_inner (s : State) (r : RoundRec) (applies : Bool) :
    (s.endFixed r applies).gate.session = s.gate.session ∧ (s.endFixed r applies).gate.staging = s.gate.staging ∧
      (s.endFixed r applies).gate.markLockOpen = s.gate.markLockOpen ∧
      (s.endFixed r applies).gate.presented = s.gate.presented ∧
      (s.endFixed r applies).gate.outstanding = s.gate.outstanding ∧
      (s.endFixed r applies).gate.portReady = s.gate.portReady ∧
      (s.endFixed r applies).gate.eraseWaiting = s.gate.eraseWaiting ∧
      (s.endFixed r applies).gate.yieldCount = s.gate.yieldCount ∧ (s.endFixed r applies).nv.slots = s.nv.slots ∧
      (s.endFixed r applies).nv.liveStamp = s.nv.liveStamp ∧
      (s.endFixed r applies).nv.pendingSlot = s.nv.pendingSlot ∧ (s.endFixed r applies).nv.tally = s.nv.tally ∧
      (s.endFixed r applies).nv.holdOwed = s.nv.holdOwed ∧ (s.endFixed r applies).nv.policy = s.nv.policy ∧
      (s.endFixed r applies).nv.fixedMarks = s.nv.fixedMarks ∧ (s.endFixed r applies).nv.journal = s.nv.journal ∧
      (s.endFixed r applies).nv.flags = s.nv.flags ∧ (s.endFixed r applies).nv.serial = s.nv.serial := by
  simp only [State.endFixed]
  repeat' split
  all_goals first | rfl | (simp; done) | (simp_all; done)

@[simp] theorem State.endSetmark_inner (s : State) (r : RoundRec) (cls : RoundClass) :
    (s.endSetmark r cls).gate.markLockOpen = s.gate.markLockOpen ∧
      (s.endSetmark r cls).gate.presented = s.gate.presented ∧
      (s.endSetmark r cls).gate.outstanding = s.gate.outstanding ∧
      (s.endSetmark r cls).gate.portReady = s.gate.portReady ∧
      (s.endSetmark r cls).gate.eraseWaiting = s.gate.eraseWaiting ∧
      (s.endSetmark r cls).gate.yieldCount = s.gate.yieldCount ∧ (s.endSetmark r cls).nv.slots = s.nv.slots ∧
      (s.endSetmark r cls).nv.liveStamp = s.nv.liveStamp ∧ (s.endSetmark r cls).nv.pendingSlot = s.nv.pendingSlot ∧
      (s.endSetmark r cls).nv.tally = s.nv.tally ∧ (s.endSetmark r cls).nv.holdOwed = s.nv.holdOwed ∧
      (s.endSetmark r cls).nv.policy = s.nv.policy ∧ (s.endSetmark r cls).nv.fixedMarks = s.nv.fixedMarks ∧
      (s.endSetmark r cls).nv.journal = s.nv.journal ∧ (s.endSetmark r cls).nv.flags = s.nv.flags ∧
      (s.endSetmark r cls).nv.serial = s.nv.serial := by
  simp only [State.endSetmark]
  repeat' split
  all_goals first | rfl | (simp; done) | (simp_all; done)

@[simp] theorem State.writePolicy_inner (s : State) (t : PolicyTable) :
    (s.writePolicy t).pol.memos = s.pol.memos ∧ (s.writePolicy t).pol.timers = s.pol.timers := by
  simp only [State.writePolicy]
  repeat' split
  all_goals first | rfl | (simp; done) | (simp_all; done)

@[simp] theorem State.applyItem_inner (s : State) (item : FitItem) :
    (s.applyItem item).gate.pendingMark = s.gate.pendingMark ∧ (s.applyItem item).gate.pmBusy = s.gate.pmBusy ∧
      (s.applyItem item).gate.pmWaiting = s.gate.pmWaiting ∧ (s.applyItem item).gate.session = s.gate.session ∧
      (s.applyItem item).gate.staging = s.gate.staging ∧ (s.applyItem item).gate.markLockOpen = s.gate.markLockOpen ∧
      (s.applyItem item).gate.presented = s.gate.presented ∧
      (s.applyItem item).gate.outstanding = s.gate.outstanding ∧
      (s.applyItem item).gate.portReady = s.gate.portReady ∧
      (s.applyItem item).gate.eraseWaiting = s.gate.eraseWaiting ∧
      (s.applyItem item).gate.yieldCount = s.gate.yieldCount ∧ (s.applyItem item).pol.memos = s.pol.memos ∧
      (s.applyItem item).pol.timers = s.pol.timers := by
  simp only [State.applyItem]
  repeat' split
  all_goals first | rfl | (simp; done) | (simp_all; done)

@[simp] theorem State.endFit_inner (s : State) (r : RoundRec) (cls : RoundClass) :
    (s.endFit r cls).gate.pendingMark = s.gate.pendingMark ∧ (s.endFit r cls).gate.pmBusy = s.gate.pmBusy ∧
      (s.endFit r cls).gate.pmWaiting = s.gate.pmWaiting ∧ (s.endFit r cls).gate.session = s.gate.session ∧
      (s.endFit r cls).gate.staging = s.gate.staging ∧ (s.endFit r cls).gate.markLockOpen = s.gate.markLockOpen ∧
      (s.endFit r cls).gate.presented = s.gate.presented ∧ (s.endFit r cls).gate.outstanding = s.gate.outstanding ∧
      (s.endFit r cls).gate.portReady = s.gate.portReady ∧ (s.endFit r cls).gate.eraseWaiting = s.gate.eraseWaiting ∧
      (s.endFit r cls).gate.yieldCount = s.gate.yieldCount ∧ (s.endFit r cls).pol.memos = s.pol.memos ∧
      (s.endFit r cls).pol.timers = s.pol.timers ∧ (s.endFit r cls).stat.flags = s.stat.flags ∧
      (s.endFit r cls).stat.reported = s.stat.reported ∧ (s.endFit r cls).stat.store = s.stat.store := by
  simp only [State.endFit]
  repeat' split
  all_goals first | rfl | (simp; done) | (simp_all; done)

@[simp] theorem State.endStatus_inner (s : State) (r : RoundRec) :
    (s.endStatus r).stat.flags = s.stat.flags ∧ (s.endStatus r).stat.store = s.stat.store ∧
      (s.endStatus r).stat.fit = s.stat.fit := by
  simp only [State.endStatus]
  repeat' split
  all_goals first | rfl | (simp; done) | (simp_all; done)

@[simp] theorem State.endClear_inner (s : State) (r : RoundRec) :
    (s.endClear r).pol.table = s.pol.table ∧ (s.endClear r).pol.armed = s.pol.armed ∧
      (s.endClear r).pol.last = s.pol.last ∧ (s.endClear r).pol.memos = s.pol.memos ∧
      (s.endClear r).pol.timers = s.pol.timers ∧ (s.endClear r).stat.fit = s.stat.fit := by
  simp only [State.endClear]
  repeat' split
  all_goals first | rfl | (simp; done) | (simp_all; done)

@[simp] theorem State.endProgress_inner (s : State) (r : RoundRec) (cls : RoundClass) :
    (s.endProgress r cls).gate.fixedMarks = s.gate.fixedMarks ∧
      (s.endProgress r cls).gate.markStore = s.gate.markStore ∧
      (s.endProgress r cls).gate.pendingMark = s.gate.pendingMark ∧
      (s.endProgress r cls).gate.pmBusy = s.gate.pmBusy ∧ (s.endProgress r cls).gate.pmWaiting = s.gate.pmWaiting ∧
      (s.endProgress r cls).gate.staging = s.gate.staging ∧
      (s.endProgress r cls).gate.outstanding = s.gate.outstanding ∧
      (s.endProgress r cls).gate.portReady = s.gate.portReady ∧
      (s.endProgress r cls).gate.eraseWaiting = s.gate.eraseWaiting ∧
      (s.endProgress r cls).gate.yieldCount = s.gate.yieldCount ∧ (s.endProgress r cls).eng.absence = s.eng.absence ∧
      (s.endProgress r cls).eng.rollCount = s.eng.rollCount ∧ (s.endProgress r cls).eng.serial = s.eng.serial ∧
      (s.endProgress r cls).key.states = s.key.states ∧ (s.endProgress r cls).key.debounce = s.key.debounce ∧
      (s.endProgress r cls).key.setAside = s.key.setAside ∧ (s.endProgress r cls).sup.state = s.sup.state ∧
      (s.endProgress r cls).sup.warmup = s.sup.warmup ∧ (s.endProgress r cls).sup.stn = s.sup.stn ∧
      (s.endProgress r cls).sup.roster = s.sup.roster ∧ (s.endProgress r cls).sup.step = s.sup.step ∧
      (s.endProgress r cls).grd.matched = s.grd.matched ∧ (s.endProgress r cls).grd.mustChange = s.grd.mustChange ∧
      (s.endProgress r cls).grd.batteryTimer = s.grd.batteryTimer ∧
      (s.endProgress r cls).grd.pulseTimer = s.grd.pulseTimer ∧ (s.endProgress r cls).grd.holdDue = s.grd.holdDue ∧
      (s.endProgress r cls).wipe.again = s.wipe.again ∧
      (s.endProgress r cls).wipe.orderPending = s.wipe.orderPending ∧
      (s.endProgress r cls).wipe.erase = s.wipe.erase ∧ (s.endProgress r cls).stat.fit = s.stat.fit := by
  simp only [State.endProgress]
  repeat' split
  all_goals first | rfl | (simp; done) | (simp_all; done)

@[simp] theorem State.ownersEnd_inner (s : State) (r : RoundRec) (cls : RoundClass) :
    (s.ownersEnd r cls).gate.outstanding = s.gate.outstanding ∧
      (s.ownersEnd r cls).gate.portReady = s.gate.portReady ∧ (s.ownersEnd r cls).eng.absence = s.eng.absence ∧
      (s.ownersEnd r cls).eng.serial = s.eng.serial ∧ (s.ownersEnd r cls).key.states = s.key.states ∧
      (s.ownersEnd r cls).key.debounce = s.key.debounce ∧ (s.ownersEnd r cls).key.setAside = s.key.setAside ∧
      (s.ownersEnd r cls).pol.memos = s.pol.memos ∧ (s.ownersEnd r cls).pol.timers = s.pol.timers ∧
      (s.ownersEnd r cls).sup.state = s.sup.state ∧ (s.ownersEnd r cls).sup.warmup = s.sup.warmup ∧
      (s.ownersEnd r cls).sup.stn = s.sup.stn ∧ (s.ownersEnd r cls).sup.roster = s.sup.roster ∧
      (s.ownersEnd r cls).sup.step = s.sup.step ∧ (s.ownersEnd r cls).grd.pulseTimer = s.grd.pulseTimer ∧
      (s.ownersEnd r cls).nv.slots = s.nv.slots ∧ (s.ownersEnd r cls).nv.liveStamp = s.nv.liveStamp ∧
      (s.ownersEnd r cls).nv.tally = s.nv.tally ∧ (s.ownersEnd r cls).nv.holdOwed = s.nv.holdOwed ∧
      (s.ownersEnd r cls).nv.policy = s.nv.policy ∧ (s.ownersEnd r cls).nv.fixedMarks = s.nv.fixedMarks ∧
      (s.ownersEnd r cls).nv.journal = s.nv.journal ∧ (s.ownersEnd r cls).nv.flags = s.nv.flags ∧
      (s.ownersEnd r cls).nv.serial = s.nv.serial := by
  simp only [State.ownersEnd]
  repeat' split
  all_goals first | rfl | (simp; done) | (simp_all; done)

@[simp] theorem State.roundEnded_inner (s : State) (accept : Slots) :
    (s.roundEnded accept).gate.outstanding = s.gate.outstanding ∧
      (s.roundEnded accept).gate.portReady = s.gate.portReady ∧ (s.roundEnded accept).key.states = s.key.states ∧
      (s.roundEnded accept).key.debounce = s.key.debounce ∧ (s.roundEnded accept).key.setAside = s.key.setAside ∧
      (s.roundEnded accept).pol.memos = s.pol.memos ∧ (s.roundEnded accept).pol.timers = s.pol.timers ∧
      (s.roundEnded accept).sup.state = s.sup.state ∧ (s.roundEnded accept).sup.warmup = s.sup.warmup ∧
      (s.roundEnded accept).sup.stn = s.sup.stn ∧ (s.roundEnded accept).sup.roster = s.sup.roster ∧
      (s.roundEnded accept).sup.step = s.sup.step ∧ (s.roundEnded accept).grd.pulseTimer = s.grd.pulseTimer ∧
      (s.roundEnded accept).nv.slots = s.nv.slots ∧ (s.roundEnded accept).nv.liveStamp = s.nv.liveStamp ∧
      (s.roundEnded accept).nv.tally = s.nv.tally ∧ (s.roundEnded accept).nv.holdOwed = s.nv.holdOwed ∧
      (s.roundEnded accept).nv.policy = s.nv.policy ∧ (s.roundEnded accept).nv.fixedMarks = s.nv.fixedMarks ∧
      (s.roundEnded accept).nv.journal = s.nv.journal ∧ (s.roundEnded accept).nv.flags = s.nv.flags ∧
      (s.roundEnded accept).nv.serial = s.nv.serial := by
  simp only [State.roundEnded]
  repeat' split
  all_goals first | rfl | (simp; done) | (simp_all; done)

@[simp] theorem State.loadFlags_inner (s : State) (r : LoadReport) :
    (s.loadFlags r).stat.reported = s.stat.reported ∧ (s.loadFlags r).stat.fit = s.stat.fit := by
  simp only [State.loadFlags]
  repeat' split
  all_goals first | rfl | (simp; done) | (simp_all; done)

@[simp] theorem foldl_slotBack_inner (l : List CodeSlotNo) (s : State) :
    (l.foldl (fun s i => s.askCred (.slotBack i)) s).cred.slots = s.cred.slots ∧
      (l.foldl (fun s i => s.askCred (.slotBack i)) s).cred.liveStamp = s.cred.liveStamp ∧
      (l.foldl (fun s i => s.askCred (.slotBack i)) s).cred.plainKey = s.cred.plainKey ∧
      (l.foldl (fun s i => s.askCred (.slotBack i)) s).cred.genKey = s.cred.genKey ∧
      (l.foldl (fun s i => s.askCred (.slotBack i)) s).cred.roundEntry = s.cred.roundEntry ∧
      (l.foldl (fun s i => s.askCred (.slotBack i)) s).cred.roundChange = s.cred.roundChange ∧
      (l.foldl (fun s i => s.askCred (.slotBack i)) s).nv.slots = s.nv.slots ∧
      (l.foldl (fun s i => s.askCred (.slotBack i)) s).nv.liveStamp = s.nv.liveStamp ∧
      (l.foldl (fun s i => s.askCred (.slotBack i)) s).nv.tally = s.nv.tally ∧
      (l.foldl (fun s i => s.askCred (.slotBack i)) s).nv.holdOwed = s.nv.holdOwed ∧
      (l.foldl (fun s i => s.askCred (.slotBack i)) s).nv.policy = s.nv.policy ∧
      (l.foldl (fun s i => s.askCred (.slotBack i)) s).nv.fixedMarks = s.nv.fixedMarks ∧
      (l.foldl (fun s i => s.askCred (.slotBack i)) s).nv.pendingMark = s.nv.pendingMark ∧
      (l.foldl (fun s i => s.askCred (.slotBack i)) s).nv.journal = s.nv.journal ∧
      (l.foldl (fun s i => s.askCred (.slotBack i)) s).nv.flags = s.nv.flags ∧
      (l.foldl (fun s i => s.askCred (.slotBack i)) s).nv.serial = s.nv.serial := by
  induction l generalizing s with
  | nil => simp
  | cons x l ih => simp [ih]

@[simp] theorem State.loadCredentials_inner (s : State) (r : LoadReport) :
    (s.loadCredentials r).cred.plainKey = s.cred.plainKey ∧ (s.loadCredentials r).cred.genKey = s.cred.genKey ∧
      (s.loadCredentials r).cred.roundEntry = s.cred.roundEntry ∧
      (s.loadCredentials r).cred.roundChange = s.cred.roundChange ∧ (s.loadCredentials r).nv.slots = s.nv.slots ∧
      (s.loadCredentials r).nv.liveStamp = s.nv.liveStamp ∧ (s.loadCredentials r).nv.tally = s.nv.tally ∧
      (s.loadCredentials r).nv.holdOwed = s.nv.holdOwed ∧ (s.loadCredentials r).nv.policy = s.nv.policy ∧
      (s.loadCredentials r).nv.fixedMarks = s.nv.fixedMarks ∧
      (s.loadCredentials r).nv.pendingMark = s.nv.pendingMark ∧ (s.loadCredentials r).nv.journal = s.nv.journal ∧
      (s.loadCredentials r).nv.flags = s.nv.flags ∧ (s.loadCredentials r).nv.serial = s.nv.serial := by
  simp only [State.loadCredentials]
  repeat' split
  all_goals first | rfl | (simp; done) | (simp_all; done)

@[simp] theorem State.loadTally_inner (s : State) (r : LoadReport) :
    (s.loadTally r).tal.deadline = s.tal.deadline := by
  simp only [State.loadTally]
  repeat' split
  all_goals first | rfl | (simp; done) | (simp_all; done)

@[simp] theorem State.loadPolicy_inner (s : State) (r : LoadReport) :
    (s.loadPolicy r).pol.armed = s.pol.armed ∧ (s.loadPolicy r).pol.memos = s.pol.memos ∧
      (s.loadPolicy r).pol.timers = s.pol.timers := by
  simp only [State.loadPolicy]
  repeat' split
  all_goals first | rfl | (simp; done) | (simp_all; done)

@[simp] theorem State.loadMarks_inner (s : State) (r : LoadReport) :
    (s.loadMarks r).gate.session = s.gate.session ∧ (s.loadMarks r).gate.staging = s.gate.staging ∧
      (s.loadMarks r).gate.markLockOpen = s.gate.markLockOpen ∧ (s.loadMarks r).gate.presented = s.gate.presented ∧
      (s.loadMarks r).gate.outstanding = s.gate.outstanding ∧ (s.loadMarks r).gate.portReady = s.gate.portReady ∧
      (s.loadMarks r).gate.eraseWaiting = s.gate.eraseWaiting ∧ (s.loadMarks r).gate.yieldCount = s.gate.yieldCount ∧
      (s.loadMarks r).nv.slots = s.nv.slots ∧ (s.loadMarks r).nv.liveStamp = s.nv.liveStamp ∧
      (s.loadMarks r).nv.pendingSlot = s.nv.pendingSlot ∧ (s.loadMarks r).nv.tally = s.nv.tally ∧
      (s.loadMarks r).nv.holdOwed = s.nv.holdOwed ∧ (s.loadMarks r).nv.policy = s.nv.policy ∧
      (s.loadMarks r).nv.fixedMarks = s.nv.fixedMarks ∧ (s.loadMarks r).nv.journal = s.nv.journal ∧
      (s.loadMarks r).nv.flags = s.nv.flags ∧ (s.loadMarks r).nv.serial = s.nv.serial := by
  simp only [State.loadMarks]
  repeat' split
  all_goals first | rfl | (simp; done) | (simp_all; done)

@[simp] theorem State.loadJournal_inner (s : State) (r : LoadReport) :
    (s.loadJournal r).cred.slots = s.cred.slots ∧ (s.loadJournal r).cred.liveStamp = s.cred.liveStamp ∧
      (s.loadJournal r).cred.plainKey = s.cred.plainKey ∧ (s.loadJournal r).cred.genKey = s.cred.genKey ∧
      (s.loadJournal r).cred.roundEntry = s.cred.roundEntry ∧
      (s.loadJournal r).cred.roundChange = s.cred.roundChange ∧ (s.loadJournal r).wipe.again = s.wipe.again ∧
      (s.loadJournal r).wipe.orderPending = s.wipe.orderPending ∧ (s.loadJournal r).wipe.erase = s.wipe.erase ∧
      (s.loadJournal r).wipe.progressTimer = s.wipe.progressTimer ∧ (s.loadJournal r).nv.slots = s.nv.slots ∧
      (s.loadJournal r).nv.liveStamp = s.nv.liveStamp ∧ (s.loadJournal r).nv.tally = s.nv.tally ∧
      (s.loadJournal r).nv.holdOwed = s.nv.holdOwed ∧ (s.loadJournal r).nv.policy = s.nv.policy ∧
      (s.loadJournal r).nv.fixedMarks = s.nv.fixedMarks ∧ (s.loadJournal r).nv.pendingMark = s.nv.pendingMark ∧
      (s.loadJournal r).nv.journal = s.nv.journal ∧ (s.loadJournal r).nv.flags = s.nv.flags ∧
      (s.loadJournal r).nv.serial = s.nv.serial := by
  simp only [State.loadJournal]
  repeat' split
  all_goals first | rfl | (simp; done) | (simp_all; done)

@[simp] theorem State.loadSerial_inner (s : State) (r : LoadReport) :
    (s.loadSerial r).eng.round = s.eng.round ∧ (s.loadSerial r).eng.queue = s.eng.queue ∧
      (s.loadSerial r).eng.absence = s.eng.absence ∧ (s.loadSerial r).eng.rollCount = s.eng.rollCount := by
  simp only [State.loadSerial]
  repeat' split
  all_goals first | rfl | (simp; done) | (simp_all; done)

@[simp] theorem State.loaded_inner (s : State) (r : LoadReport) :
    (s.loaded r).gate.session = s.gate.session ∧ (s.loaded r).gate.staging = s.gate.staging ∧
      (s.loaded r).gate.markLockOpen = s.gate.markLockOpen ∧ (s.loaded r).gate.presented = s.gate.presented ∧
      (s.loaded r).gate.outstanding = s.gate.outstanding ∧ (s.loaded r).gate.portReady = s.gate.portReady ∧
      (s.loaded r).gate.eraseWaiting = s.gate.eraseWaiting ∧ (s.loaded r).gate.yieldCount = s.gate.yieldCount ∧
      (s.loaded r).eng.round = s.eng.round ∧ (s.loaded r).eng.absence = s.eng.absence ∧
      (s.loaded r).eng.rollCount = s.eng.rollCount ∧ (s.loaded r).key.debounce = s.key.debounce ∧
      (s.loaded r).key.mode = s.key.mode ∧ (s.loaded r).key.buffer = s.key.buffer ∧
      (s.loaded r).key.overlong = s.key.overlong ∧ (s.loaded r).key.firstCode = s.key.firstCode ∧
      (s.loaded r).key.target = s.key.target ∧ (s.loaded r).key.command = s.key.command ∧
      (s.loaded r).key.shiftFreed = s.key.shiftFreed ∧ (s.loaded r).key.entryTimer = s.key.entryTimer ∧
      (s.loaded r).key.resetTimer = s.key.resetTimer ∧ (s.loaded r).key.wipeWindow = s.key.wipeWindow ∧
      (s.loaded r).key.heldEntry = s.key.heldEntry ∧ (s.loaded r).key.heldChange = s.key.heldChange ∧
      (s.loaded r).key.setAside = s.key.setAside ∧ (s.loaded r).cred.plainKey = s.cred.plainKey ∧
      (s.loaded r).cred.genKey = s.cred.genKey ∧ (s.loaded r).cred.roundEntry = s.cred.roundEntry ∧
      (s.loaded r).cred.roundChange = s.cred.roundChange ∧ (s.loaded r).tal.deadline = s.tal.deadline ∧
      (s.loaded r).pol.armed = s.pol.armed ∧ (s.loaded r).pol.memos = s.pol.memos ∧
      (s.loaded r).pol.timers = s.pol.timers ∧ (s.loaded r).sup.activity = s.sup.activity ∧
      (s.loaded r).sup.inactivity = s.sup.inactivity ∧ (s.loaded r).sup.warmup = s.sup.warmup ∧
      (s.loaded r).sup.stn = s.sup.stn ∧ (s.loaded r).sup.roster = s.sup.roster ∧
      (s.loaded r).wipe.again = s.wipe.again ∧ (s.loaded r).wipe.orderPending = s.wipe.orderPending ∧
      (s.loaded r).wipe.erase = s.wipe.erase ∧ (s.loaded r).wipe.progressTimer = s.wipe.progressTimer ∧
      (s.loaded r).stat.reported = s.stat.reported ∧ (s.loaded r).stat.fit = s.stat.fit ∧
      (s.loaded r).nv.slots = s.nv.slots ∧ (s.loaded r).nv.liveStamp = s.nv.liveStamp ∧
      (s.loaded r).nv.tally = s.nv.tally ∧ (s.loaded r).nv.holdOwed = s.nv.holdOwed ∧
      (s.loaded r).nv.policy = s.nv.policy ∧ (s.loaded r).nv.fixedMarks = s.nv.fixedMarks ∧
      (s.loaded r).nv.journal = s.nv.journal ∧ (s.loaded r).nv.flags = s.nv.flags ∧
      (s.loaded r).nv.serial = s.nv.serial := by
  simp only [State.loaded]
  repeat' split
  all_goals first | rfl | (simp; done) | (simp_all; done)

@[simp] theorem State.busFall_inner (s : State) :
    (s.busFall).gate.fixedMarks = s.gate.fixedMarks ∧ (s.busFall).gate.markStore = s.gate.markStore ∧
      (s.busFall).gate.pendingMark = s.gate.pendingMark ∧ (s.busFall).gate.pmBusy = s.gate.pmBusy ∧
      (s.busFall).gate.pmWaiting = s.gate.pmWaiting ∧ (s.busFall).gate.staging = s.gate.staging ∧
      (s.busFall).eng.absence = s.eng.absence ∧ (s.busFall).eng.rollCount = s.eng.rollCount ∧
      (s.busFall).eng.serial = s.eng.serial ∧ (s.busFall).key.states = s.key.states ∧
      (s.busFall).key.debounce = s.key.debounce ∧ (s.busFall).key.setAside = s.key.setAside ∧
      (s.busFall).cred.slots = s.cred.slots ∧ (s.busFall).cred.liveStamp = s.cred.liveStamp ∧
      (s.busFall).cred.pendingSlot = s.cred.pendingSlot ∧ (s.busFall).cred.genKey = s.cred.genKey ∧
      (s.busFall).cred.roundEntry = s.cred.roundEntry ∧ (s.busFall).cred.roundChange = s.cred.roundChange ∧
      (s.busFall).cred.busy = s.cred.busy ∧ (s.busFall).cred.waiting = s.cred.waiting ∧
      (s.busFall).sup.warmup = s.sup.warmup ∧ (s.busFall).sup.stn = s.sup.stn ∧
      (s.busFall).sup.roster = s.sup.roster ∧ (s.busFall).sup.step = s.sup.step ∧
      (s.busFall).grd.pulseTimer = s.grd.pulseTimer ∧ (s.busFall).grd.holdDue = s.grd.holdDue ∧
      (s.busFall).wipe.journal = s.wipe.journal ∧ (s.busFall).wipe.busy = s.wipe.busy ∧
      (s.busFall).wipe.waiting = s.wipe.waiting ∧ (s.busFall).wipe.again = s.wipe.again ∧
      (s.busFall).wipe.orderPending = s.wipe.orderPending ∧ (s.busFall).wipe.progressTimer = s.wipe.progressTimer ∧
      (s.busFall).stat.fit = s.stat.fit := by
  simp only [State.busFall]
  repeat' split
  all_goals first | rfl | (simp; done) | (simp_all; done)

@[simp] theorem State.busRise_inner (s : State) :
    (s.busRise).gate.fixedMarks = s.gate.fixedMarks ∧ (s.busRise).gate.markStore = s.gate.markStore ∧
      (s.busRise).gate.pendingMark = s.gate.pendingMark ∧ (s.busRise).gate.pmBusy = s.gate.pmBusy ∧
      (s.busRise).gate.pmWaiting = s.gate.pmWaiting ∧ (s.busRise).gate.session = s.gate.session ∧
      (s.busRise).gate.staging = s.gate.staging ∧ (s.busRise).gate.markLockOpen = s.gate.markLockOpen ∧
      (s.busRise).gate.outstanding = s.gate.outstanding ∧ (s.busRise).gate.portReady = s.gate.portReady ∧
      (s.busRise).sup.stn = s.sup.stn ∧ (s.busRise).sup.roster = s.sup.roster ∧ (s.busRise).sup.step = s.sup.step ∧
      (s.busRise).grd.matched = s.grd.matched ∧ (s.busRise).grd.mustChange = s.grd.mustChange ∧
      (s.busRise).grd.pulseTimer = s.grd.pulseTimer ∧ (s.busRise).grd.holdDue = s.grd.holdDue ∧
      (s.busRise).wipe.journal = s.wipe.journal ∧ (s.busRise).wipe.again = s.wipe.again ∧
      (s.busRise).wipe.orderPending = s.wipe.orderPending ∧ (s.busRise).wipe.progressTimer = s.wipe.progressTimer := by
  simp only [State.busRise]
  repeat' split
  all_goals first | rfl | (simp; done) | (simp_all; done)

@[simp] theorem State.warmedUp_inner (s : State) :
    (s.warmedUp).eng.round = s.eng.round ∧ (s.warmedUp).eng.absence = s.eng.absence ∧
      (s.warmedUp).eng.serial = s.eng.serial ∧ (s.warmedUp).key.mode = s.key.mode ∧
      (s.warmedUp).key.buffer = s.key.buffer ∧ (s.warmedUp).key.overlong = s.key.overlong ∧
      (s.warmedUp).key.firstCode = s.key.firstCode ∧ (s.warmedUp).key.target = s.key.target ∧
      (s.warmedUp).key.command = s.key.command ∧ (s.warmedUp).key.shiftFreed = s.key.shiftFreed ∧
      (s.warmedUp).key.entryTimer = s.key.entryTimer ∧ (s.warmedUp).key.resetTimer = s.key.resetTimer ∧
      (s.warmedUp).key.wipeWindow = s.key.wipeWindow ∧ (s.warmedUp).key.heldEntry = s.key.heldEntry ∧
      (s.warmedUp).key.heldChange = s.key.heldChange ∧ (s.warmedUp).key.setAside = s.key.setAside ∧
      (s.warmedUp).sup.state = s.sup.state ∧ (s.warmedUp).sup.stn = s.sup.stn ∧
      (s.warmedUp).sup.roster = s.sup.roster ∧ (s.warmedUp).sup.step = s.sup.step := by
  simp only [State.warmedUp]
  repeat' split
  all_goals first | rfl | (simp; done) | (simp_all; done)

@[simp] theorem State.recognizePress_inner (s : State) (k : Key) :
    (s.recognizePress k).gate.fixedMarks = s.gate.fixedMarks ∧
      (s.recognizePress k).gate.markStore = s.gate.markStore ∧
      (s.recognizePress k).gate.pendingMark = s.gate.pendingMark ∧ (s.recognizePress k).gate.pmBusy = s.gate.pmBusy ∧
      (s.recognizePress k).gate.pmWaiting = s.gate.pmWaiting ∧ (s.recognizePress k).gate.staging = s.gate.staging ∧
      (s.recognizePress k).gate.outstanding = s.gate.outstanding ∧
      (s.recognizePress k).gate.portReady = s.gate.portReady ∧
      (s.recognizePress k).gate.eraseWaiting = s.gate.eraseWaiting ∧
      (s.recognizePress k).gate.yieldCount = s.gate.yieldCount ∧ (s.recognizePress k).eng.round = s.eng.round ∧
      (s.recognizePress k).eng.absence = s.eng.absence ∧ (s.recognizePress k).eng.rollCount = s.eng.rollCount ∧
      (s.recognizePress k).eng.serial = s.eng.serial ∧ (s.recognizePress k).cred.slots = s.cred.slots ∧
      (s.recognizePress k).cred.liveStamp = s.cred.liveStamp ∧
      (s.recognizePress k).cred.pendingSlot = s.cred.pendingSlot ∧ (s.recognizePress k).cred.genKey = s.cred.genKey ∧
      (s.recognizePress k).cred.roundEntry = s.cred.roundEntry ∧
      (s.recognizePress k).cred.roundChange = s.cred.roundChange ∧ (s.recognizePress k).cred.busy = s.cred.busy ∧
      (s.recognizePress k).cred.waiting = s.cred.waiting ∧ (s.recognizePress k).pol.table = s.pol.table ∧
      (s.recognizePress k).pol.store = s.pol.store ∧ (s.recognizePress k).pol.last = s.pol.last ∧
      (s.recognizePress k).pol.memos = s.pol.memos ∧ (s.recognizePress k).pol.timers = s.pol.timers ∧
      (s.recognizePress k).pol.latch = s.pol.latch ∧ (s.recognizePress k).sup.state = s.sup.state ∧
      (s.recognizePress k).sup.warmup = s.sup.warmup ∧ (s.recognizePress k).sup.stn = s.sup.stn ∧
      (s.recognizePress k).sup.roster = s.sup.roster ∧ (s.recognizePress k).sup.step = s.sup.step ∧
      (s.recognizePress k).grd.holdDue = s.grd.holdDue := by
  simp only [State.recognizePress]
  repeat' split
  all_goals first | rfl | (simp; done) | (simp_all; done)

@[simp] theorem State.recognizeRelease_inner (s : State) (k : Key) :
    (s.recognizeRelease k).key.heldEntry = s.key.heldEntry ∧
      (s.recognizeRelease k).key.heldChange = s.key.heldChange ∧ (s.recognizeRelease k).key.setAside = s.key.setAside := by
  simp only [State.recognizeRelease]
  repeat' split
  all_goals first | rfl | (simp; done) | (simp_all; done)

@[simp] theorem State.idleReached_inner (s : State) :
    (s.idleReached).sup.state = s.sup.state ∧ (s.idleReached).sup.warmup = s.sup.warmup ∧
      (s.idleReached).sup.stn = s.sup.stn ∧ (s.idleReached).sup.roster = s.sup.roster ∧
      (s.idleReached).sup.step = s.sup.step ∧ (s.idleReached).line.role = s.line.role ∧
      (s.idleReached).line.pos = s.line.pos ∧ (s.idleReached).line.holdTimer = s.line.holdTimer ∧
      (s.idleReached).line.ownDrive = s.line.ownDrive ∧ (s.idleReached).line.offer = s.line.offer ∧
      (s.idleReached).line.header = s.line.header := by
  simp only [State.idleReached]
  repeat' split
  all_goals first | rfl | (simp; done) | (simp_all; done)

@[simp] theorem State.lineStuck_inner (s : State) :
    (s.lineStuck).gate.fixedMarks = s.gate.fixedMarks ∧ (s.lineStuck).gate.markStore = s.gate.markStore ∧
      (s.lineStuck).gate.outstanding = s.gate.outstanding ∧ (s.lineStuck).gate.portReady = s.gate.portReady ∧
      (s.lineStuck).gate.eraseWaiting = s.gate.eraseWaiting ∧ (s.lineStuck).gate.yieldCount = s.gate.yieldCount ∧
      (s.lineStuck).eng.absence = s.eng.absence ∧ (s.lineStuck).eng.rollCount = s.eng.rollCount ∧
      (s.lineStuck).eng.serial = s.eng.serial ∧ (s.lineStuck).key.states = s.key.states ∧
      (s.lineStuck).key.debounce = s.key.debounce ∧ (s.lineStuck).cred.slots = s.cred.slots ∧
      (s.lineStuck).cred.liveStamp = s.cred.liveStamp ∧ (s.lineStuck).cred.pendingSlot = s.cred.pendingSlot ∧
      (s.lineStuck).cred.busy = s.cred.busy ∧ (s.lineStuck).cred.waiting = s.cred.waiting ∧
      (s.lineStuck).tal.tally = s.tal.tally ∧ (s.lineStuck).pol.table = s.pol.table ∧
      (s.lineStuck).pol.store = s.pol.store ∧ (s.lineStuck).pol.last = s.pol.last ∧
      (s.lineStuck).pol.memos = s.pol.memos ∧ (s.lineStuck).pol.timers = s.pol.timers ∧
      (s.lineStuck).pol.latch = s.pol.latch ∧ (s.lineStuck).sup.state = s.sup.state ∧
      (s.lineStuck).sup.warmup = s.sup.warmup ∧ (s.lineStuck).sup.stn = s.sup.stn ∧
      (s.lineStuck).sup.roster = s.sup.roster ∧ (s.lineStuck).sup.step = s.sup.step ∧
      (s.lineStuck).wipe.journal = s.wipe.journal ∧ (s.lineStuck).wipe.waiting = s.wipe.waiting ∧
      (s.lineStuck).wipe.orderPending = s.wipe.orderPending ∧ (s.lineStuck).wipe.erase = s.wipe.erase ∧
      (s.lineStuck).wipe.progressTimer = s.wipe.progressTimer ∧ (s.lineStuck).nv.slots = s.nv.slots ∧
      (s.lineStuck).nv.liveStamp = s.nv.liveStamp ∧ (s.lineStuck).nv.pendingSlot = s.nv.pendingSlot ∧
      (s.lineStuck).nv.tally = s.nv.tally ∧ (s.lineStuck).nv.holdOwed = s.nv.holdOwed ∧
      (s.lineStuck).nv.policy = s.nv.policy ∧ (s.lineStuck).nv.fixedMarks = s.nv.fixedMarks ∧
      (s.lineStuck).nv.journal = s.nv.journal ∧ (s.lineStuck).nv.flags = s.nv.flags ∧
      (s.lineStuck).nv.serial = s.nv.serial := by
  simp only [State.lineStuck]
  repeat' split
  all_goals first | rfl | (simp; done) | (simp_all; done)

@[simp] theorem State.owedEnded_inner (s : State) (made : Bool) :
    (s.owedEnded made).eng.queue = s.eng.queue ∧ (s.owedEnded made).eng.absence = s.eng.absence ∧
      (s.owedEnded made).eng.rollCount = s.eng.rollCount ∧ (s.owedEnded made).eng.serial = s.eng.serial ∧
      (s.owedEnded made).tal.tally = s.tal.tally ∧ (s.owedEnded made).tal.tallyStore = s.tal.tallyStore ∧
      (s.owedEnded made).tal.deadline = s.tal.deadline ∧ (s.owedEnded made).stat.fit = s.stat.fit ∧
      (s.owedEnded made).nv.slots = s.nv.slots ∧ (s.owedEnded made).nv.liveStamp = s.nv.liveStamp ∧
      (s.owedEnded made).nv.pendingSlot = s.nv.pendingSlot ∧ (s.owedEnded made).nv.tally = s.nv.tally ∧
      (s.owedEnded made).nv.policy = s.nv.policy ∧ (s.owedEnded made).nv.fixedMarks = s.nv.fixedMarks ∧
      (s.owedEnded made).nv.pendingMark = s.nv.pendingMark ∧ (s.owedEnded made).nv.journal = s.nv.journal ∧
      (s.owedEnded made).nv.flags = s.nv.flags ∧ (s.owedEnded made).nv.serial = s.nv.serial := by
  simp only [State.owedEnded]
  repeat' split
  all_goals first | rfl | (simp; done) | (simp_all; done)

@[simp] theorem State.flagsEnded_inner (s : State) (made : Bool) :
    (s.flagsEnded made).eng.queue = s.eng.queue ∧ (s.flagsEnded made).eng.absence = s.eng.absence ∧
      (s.flagsEnded made).eng.rollCount = s.eng.rollCount ∧ (s.flagsEnded made).eng.serial = s.eng.serial ∧
      (s.flagsEnded made).stat.fit = s.stat.fit ∧ (s.flagsEnded made).nv.slots = s.nv.slots ∧
      (s.flagsEnded made).nv.liveStamp = s.nv.liveStamp ∧ (s.flagsEnded made).nv.pendingSlot = s.nv.pendingSlot ∧
      (s.flagsEnded made).nv.tally = s.nv.tally ∧ (s.flagsEnded made).nv.holdOwed = s.nv.holdOwed ∧
      (s.flagsEnded made).nv.policy = s.nv.policy ∧ (s.flagsEnded made).nv.fixedMarks = s.nv.fixedMarks ∧
      (s.flagsEnded made).nv.pendingMark = s.nv.pendingMark ∧ (s.flagsEnded made).nv.journal = s.nv.journal ∧
      (s.flagsEnded made).nv.serial = s.nv.serial := by
  simp only [State.flagsEnded]
  repeat' split
  all_goals first | rfl | (simp; done) | (simp_all; done)

@[simp] theorem State.policyEnded_inner (s : State) (made : Bool) :
    (s.policyEnded made).eng.queue = s.eng.queue ∧ (s.policyEnded made).eng.absence = s.eng.absence ∧
      (s.policyEnded made).eng.rollCount = s.eng.rollCount ∧ (s.policyEnded made).eng.serial = s.eng.serial ∧
      (s.policyEnded made).pol.table = s.pol.table ∧ (s.policyEnded made).pol.armed = s.pol.armed ∧
      (s.policyEnded made).pol.last = s.pol.last ∧ (s.policyEnded made).pol.memos = s.pol.memos ∧
      (s.policyEnded made).pol.timers = s.pol.timers ∧ (s.policyEnded made).pol.latch = s.pol.latch ∧
      (s.policyEnded made).stat.fit = s.stat.fit ∧ (s.policyEnded made).nv.slots = s.nv.slots ∧
      (s.policyEnded made).nv.liveStamp = s.nv.liveStamp ∧ (s.policyEnded made).nv.pendingSlot = s.nv.pendingSlot ∧
      (s.policyEnded made).nv.tally = s.nv.tally ∧ (s.policyEnded made).nv.holdOwed = s.nv.holdOwed ∧
      (s.policyEnded made).nv.fixedMarks = s.nv.fixedMarks ∧ (s.policyEnded made).nv.pendingMark = s.nv.pendingMark ∧
      (s.policyEnded made).nv.journal = s.nv.journal ∧ (s.policyEnded made).nv.flags = s.nv.flags ∧
      (s.policyEnded made).nv.serial = s.nv.serial := by
  simp only [State.policyEnded]
  repeat' split
  all_goals first | rfl | (simp; done) | (simp_all; done)

@[simp] theorem State.present_inner (s : State) (r : BridgeRequest) :
    (s.present r).gate.fixedMarks = s.gate.fixedMarks ∧ (s.present r).gate.markStore = s.gate.markStore ∧
      (s.present r).gate.pendingMark = s.gate.pendingMark ∧ (s.present r).gate.pmBusy = s.gate.pmBusy ∧
      (s.present r).gate.pmWaiting = s.gate.pmWaiting ∧ (s.present r).gate.session = s.gate.session ∧
      (s.present r).gate.staging = s.gate.staging ∧ (s.present r).gate.markLockOpen = s.gate.markLockOpen ∧
      (s.present r).gate.outstanding = s.gate.outstanding ∧ (s.present r).gate.portReady = s.gate.portReady ∧
      (s.present r).gate.eraseWaiting = s.gate.eraseWaiting ∧ (s.present r).gate.yieldCount = s.gate.yieldCount := by
  simp only [State.present]
  repeat' split
  all_goals first | rfl | (simp; done) | (simp_all; done)

@[simp] theorem State.completeAccess_inner (s : State) (status : Nat) :
    (s.completeAccess status).gate.fixedMarks = s.gate.fixedMarks ∧
      (s.completeAccess status).gate.markStore = s.gate.markStore ∧
      (s.completeAccess status).gate.pendingMark = s.gate.pendingMark ∧
      (s.completeAccess status).gate.pmBusy = s.gate.pmBusy ∧
      (s.completeAccess status).gate.pmWaiting = s.gate.pmWaiting ∧
      (s.completeAccess status).gate.staging = s.gate.staging ∧
      (s.completeAccess status).gate.portReady = s.gate.portReady ∧
      (s.completeAccess status).gate.eraseWaiting = s.gate.eraseWaiting ∧
      (s.completeAccess status).gate.yieldCount = s.gate.yieldCount ∧
      (s.completeAccess status).eng.round = s.eng.round ∧ (s.completeAccess status).eng.absence = s.eng.absence ∧
      (s.completeAccess status).eng.rollCount = s.eng.rollCount ∧
      (s.completeAccess status).eng.serial = s.eng.serial ∧ (s.completeAccess status).key.states = s.key.states ∧
      (s.completeAccess status).key.debounce = s.key.debounce ∧
      (s.completeAccess status).key.setAside = s.key.setAside ∧ (s.completeAccess status).cred.slots = s.cred.slots ∧
      (s.completeAccess status).cred.liveStamp = s.cred.liveStamp ∧
      (s.completeAccess status).cred.pendingSlot = s.cred.pendingSlot ∧
      (s.completeAccess status).cred.genKey = s.cred.genKey ∧
      (s.completeAccess status).cred.roundEntry = s.cred.roundEntry ∧
      (s.completeAccess status).cred.roundChange = s.cred.roundChange ∧
      (s.completeAccess status).cred.busy = s.cred.busy ∧ (s.completeAccess status).cred.waiting = s.cred.waiting ∧
      (s.completeAccess status).sup.state = s.sup.state ∧ (s.completeAccess status).sup.warmup = s.sup.warmup ∧
      (s.completeAccess status).sup.stn = s.sup.stn ∧ (s.completeAccess status).sup.roster = s.sup.roster ∧
      (s.completeAccess status).sup.step = s.sup.step ∧
      (s.completeAccess status).grd.batteryTimer = s.grd.batteryTimer ∧
      (s.completeAccess status).grd.pulseTimer = s.grd.pulseTimer ∧
      (s.completeAccess status).grd.holdDue = s.grd.holdDue := by
  simp only [State.completeAccess]
  repeat' split
  all_goals first | rfl | (simp; done) | (simp_all; done)

/-- Entry to WIPING keeps whether a destruction dropped a staging. -/
@[simp] theorem State.enterWiping_stagingDropped (s : State) :
    s.enterWiping.cred.stagingDropped = s.cred.stagingDropped := by
  simp [State.enterWiping]

end Sys2Proof.Machine
end

