-- ==== Sys2Proof/Laws/PerInstr.lean ====
section
/-! SUPPORT. What makes a command's operands ill-formed, said once per command. -/

namespace Sys2Proof.Laws.Shape

/-- A command whose operands the spec does not give is a power-on at which no supply appears (R160), or a not-before time of a
kind that is not retried (R50). -/
def Statement (i : Instr) : Prop :=
  i.wf = false →
    (∃ stn rsz bus pfw, i = .powerOn stn rsz bus pfw false ∧ (bus && !pfw) = false)
      ∨ ∃ kind, i = .retryDue kind ∧ kind.retryable = false

theorem powerOn (stn : BitVec 3) (rsz : BitVec 3) (busSense : Bool) (pfw : Bool) (batSense : Bool) : Statement (.powerOn stn rsz busSense pfw batSense) := by
  intro h
  have h' : ((busSense && !pfw) || batSense) = false := h
  simp only [Bool.or_eq_false_iff] at h'
  obtain ⟨h1, h2⟩ := h'
  subst h2
  exact Or.inl ⟨stn, rsz, busSense, pfw, rfl, h1⟩

theorem loadingEnd (report : LoadReport) : Statement (.loadingEnd report) := nofun

theorem busPowerFall (cause : FallCause) : Statement (.busPowerFall cause) := nofun

theorem busPowerRise (cause : RiseCause) : Statement (.busPowerRise cause) := nofun

theorem batteryRemoved : Statement .batteryRemoved := nofun

theorem batteryChangeInBus (fitted : Bool) : Statement (.batteryChangeInBus fitted) := nofun

theorem supplyFail : Statement .supplyFail := nofun

theorem keyLineChange (k : Key) (down : Bool) : Statement (.keyLineChange k down) := nofun

theorem keyPress (k : Key) : Statement (.keyPress k) := nofun

theorem keyRelease (k : Key) : Statement (.keyRelease k) := nofun

theorem entryTimerExpiry : Statement .entryTimerExpiry := nofun

theorem resetTimerExpiry : Statement .resetTimerExpiry := nofun

theorem wipeWindowExpiry : Statement .wipeWindowExpiry := nofun

theorem heldEntryTimerExpiry : Statement .heldEntryTimerExpiry := nofun

theorem heldChangeTimerExpiry : Statement .heldChangeTimerExpiry := nofun

theorem batteryOpenExpiry : Statement .batteryOpenExpiry := nofun

theorem pulseTimerExpiry : Statement .pulseTimerExpiry := nofun

theorem holdDeadlineReached : Statement .holdDeadlineReached := nofun

theorem policyTimerExpiry (t : TimerNo) : Statement (.policyTimerExpiry t) := nofun

theorem progressTimerExpiry : Statement .progressTimerExpiry := nofun

theorem inactivityTimerExpiry : Statement .inactivityTimerExpiry := nofun

theorem wake (source : WakeSource) : Statement (.wake source) := nofun

theorem warmupEnd : Statement .warmupEnd := nofun

theorem idleGapReached : Statement .idleGapReached := nofun

theorem openRound : Statement .openRound := nofun

theorem retryDue (kind : RoundKind) : Statement (.retryDue kind) := fun h =>
  Or.inr ⟨kind, rfl, h⟩

theorem roundStart : Statement .roundStart := nofun

theorem lateRoundSeen : Statement .lateRoundSeen := nofun

theorem fieldMark (level : Level) : Statement (.fieldMark level) := nofun

theorem fieldEnd (read : LineBits) : Statement (.fieldEnd read) := nofun

theorem holdFieldEnd : Statement .holdFieldEnd := nofun

theorem holdMaxExpiry : Statement .holdMaxExpiry := nofun

theorem lineStuckExpiry : Statement .lineStuckExpiry := nofun

theorem lineReleased : Statement .lineReleased := nofun

theorem roundEnd (accept : Slots) : Statement (.roundEnd accept) := nofun

theorem holdStoreFinished : Statement .holdStoreFinished := nofun

theorem holdStoreFailed : Statement .holdStoreFailed := nofun

theorem lateStoreFinished (owner : HoldOwner) : Statement (.lateStoreFinished owner) := nofun

theorem journalStoreMade : Statement .journalStoreMade := nofun

theorem journalStoreFailed : Statement .journalStoreFailed := nofun

theorem tableDestructionMade : Statement .tableDestructionMade := nofun

theorem credentialStoreEnded (made : Bool) : Statement (.credentialStoreEnded made) := nofun

theorem tallyStoreEnded (made : Bool) : Statement (.tallyStoreEnded made) := nofun

theorem holdOwedStoreEnded (made : Bool) : Statement (.holdOwedStoreEnded made) := nofun

theorem flagStoreEnded (made : Bool) : Statement (.flagStoreEnded made) := nofun

theorem fixedMarkStoreEnded (made : Bool) : Statement (.fixedMarkStoreEnded made) := nofun

theorem policyStoreEnded (made : Bool) : Statement (.policyStoreEnded made) := nofun

theorem read (extent : Extent) (block : Nat) : Statement (.read extent block) := nofun

theorem write (extent : Extent) (block : Nat) : Statement (.write extent block) := nofun

theorem trim (extent : Extent) (block : Nat) : Statement (.trim extent block) := nofun

theorem portReady : Statement .portReady := nofun

theorem accessCompletion (status : Nat) : Statement (.accessCompletion status) := nofun

theorem eraseCompletion (success : Bool) : Statement (.eraseCompletion success) := nofun

theorem pendingMarkStoreEnded (made : Bool) : Statement (.pendingMarkStoreEnded made) := nofun

end Sys2Proof.Laws.Shape
end

