-- ==== Sys2Proof/Laws/State.lean ====
section
/-! SUPPORT. What the elementary updates write. What they leave alone is in Laws/Frames.lean. -/

namespace Sys2Proof.Machine

/-! ## Clock and notices -/

@[simp] theorem State.note_notices (s : State) (n : Notice) : (s.note n).notices = s.notices ++ [n] := rfl
@[simp] theorem State.reach_now (s : State) (t : Nat) : (s.reach t).now = max s.now t := rfl
@[simp] theorem State.tick_now (s : State) : s.tick.now = s.now + 1 := rfl

/-! ## Queue -/

@[simp] theorem State.withdraw_queue (s : State) (k : RoundKind) :
    (s.withdraw k).eng.queue = s.eng.queue.filter fun r => r.kind != k || r.inFlight := rfl
@[simp] theorem State.unqueue_queue (s : State) (k : RoundKind) :
    (s.unqueue k).eng.queue = queueRemove k s.eng.queue := rfl
@[simp] theorem State.unsend_queue (s : State) : s.unsend.eng.queue = s.eng.queue.map Request.unsent := rfl

/-- A post outside STRAP_FAULT. -/
theorem State.post_queue (s : State) (k : RoundKind) (a : Arg) (h : s.grd.state ≠ .strapFault) :
    (s.post k a).eng.queue = queuePost k a s.eng.queue := by
  simp [State.post, h]

/-- A post in STRAP_FAULT. -/
theorem State.post_strapFault (s : State) (k : RoundKind) (a : Arg) (h : s.grd.state = .strapFault) :
    s.post k a = s := by
  simp [State.post, h]

/-! ## Line and round -/

@[simp] theorem State.holds_ownDrive (s : State) : s.holds.line.ownDrive = true := rfl
@[simp] theorem State.release_ownDrive (s : State) : s.release.line.ownDrive = false := rfl
@[simp] theorem State.unsend_header (s : State) : s.unsend.line.header = none := rfl
@[simp] theorem State.unsend_ownDrive (s : State) : s.unsend.line.ownDrive = false := rfl
@[simp] theorem State.awaitField_pos (s : State) (f : Field) : (s.awaitField f).line.pos = .atMark f := rfl
@[simp] theorem State.awaitField_offer (s : State) (f : Field) : (s.awaitField f).line.offer = .nothing := rfl
@[simp] theorem State.mapRound_round (s : State) (f : RoundRec → RoundRec) :
    (s.mapRound f).eng.round = s.eng.round.map f := rfl

/-! ## The line's timers -/

@[simp] theorem LineIf.turnDominant_idle (l : LineIf) (n : Nat) : (l.turnDominant n).idleTimer = none := rfl
@[simp] theorem LineIf.turnDominant_stuck (l : LineIf) (n : Nat) :
    (l.turnDominant n).stuckTimer = some (l.stuckTimer.getD (n + Config.lineStuckTime)) := rfl
@[simp] theorem LineIf.turnRecessive_stuck (l : LineIf) (n : Nat) : (l.turnRecessive n).stuckTimer = none := rfl
@[simp] theorem LineIf.turnRecessive_idle (l : LineIf) (n : Nat) :
    (l.turnRecessive n).idleTimer = some (l.idleTimer.getD (n + Config.idleGap)) := rfl

@[simp] theorem LineIf.toGap_idle (l : LineIf) : l.toGap.idleTimer = l.idleTimer := rfl
@[simp] theorem LineIf.toGap_stuck (l : LineIf) : l.toGap.stuckTimer = l.stuckTimer := rfl
@[simp] theorem LineIf.toGap_view (l : LineIf) : l.toGap.view = .gap := rfl

/-- A field's end moves the idle and line-stuck timers alone. -/
theorem LineIf.sensed_eq (l : LineIf) (f : Field) (v : LineBits) (n : Nat) :
    l.sensed f v n =
      { l with idleTimer := (l.sensed f v n).idleTimer, stuckTimer := (l.sensed f v n).stuckTimer } := by
  unfold LineIf.sensed
  repeat' split
  all_goals rfl

/-- At most one of the two timers runs after a field's end. -/
theorem LineIf.sensed_one (l : LineIf) (f : Field) (v : LineBits) (n : Nat) :
    (l.sensed f v n).idleTimer = none ↔ (l.sensed f v n).stuckTimer.isSome := by
  unfold LineIf.sensed
  repeat' split
  all_goals simp [LineIf.turnDominant, LineIf.turnRecessive]

@[simp] theorem State.senseField_pos (s : State) (f : Field) (v : LineBits) :
    (s.senseField f v).line.pos = s.line.pos := by
  unfold State.senseField
  rw [LineIf.sensed_eq]
@[simp] theorem State.senseField_offer (s : State) (f : Field) (v : LineBits) :
    (s.senseField f v).line.offer = s.line.offer := by
  unfold State.senseField
  rw [LineIf.sensed_eq]

/-! ## Keypad -/

@[simp] theorem Keypad.toIdle_mode (k : Keypad) : k.toIdle.mode = .idle := rfl
@[simp] theorem Keypad.toIdle_buffer (k : Keypad) : k.toIdle.buffer = [] := rfl
@[simp] theorem Keypad.toIdle_overlong (k : Keypad) : k.toIdle.overlong = false := rfl
@[simp] theorem Keypad.toIdle_firstCode (k : Keypad) : k.toIdle.firstCode = none := rfl
@[simp] theorem Keypad.toIdle_target (k : Keypad) : k.toIdle.target = none := rfl
@[simp] theorem Keypad.toIdle_command (k : Keypad) : k.toIdle.command = none := rfl
@[simp] theorem Keypad.toIdle_shiftFreed (k : Keypad) : k.toIdle.shiftFreed = false := rfl
@[simp] theorem Keypad.toIdle_entryTimer (k : Keypad) : k.toIdle.entryTimer = none := rfl
@[simp] theorem Keypad.toIdle_resetTimer (k : Keypad) : k.toIdle.resetTimer = none := rfl
@[simp] theorem Keypad.toIdle_wipeWindow (k : Keypad) : k.toIdle.wipeWindow = none := rfl
@[simp] theorem State.keypadIdle_key (s : State) : s.keypadIdle.key = s.key.toIdle := rfl
@[simp] theorem State.keypadRefuse_key (s : State) : s.keypadRefuse.key = s.key.toIdle := rfl
@[simp] theorem State.dropSetAside_setAside (s : State) : s.dropSetAside.key.setAside = [] := rfl

/-! ## Guard, tally and hold -/

@[simp] theorem State.pulse_timer (s : State) (n : Nat) :
    (s.pulse n).grd.pulseTimer = some (s.now + 1000 * n) := rfl
@[simp] theorem State.keypadRefuse_pulse (s : State) :
    s.keypadRefuse.grd.pulseTimer = some (s.now + 1000 * 1) := rfl
@[simp] theorem State.setOwed_holdOwed (s : State) (n : Nat) : (s.setOwed n).tal.holdOwed = n := rfl
@[simp] theorem State.clearHold_deadline (s : State) : s.clearHold.tal.deadline = none := rfl
@[simp] theorem State.clearHold_holdOwed (s : State) : s.clearHold.tal.holdOwed = 0 := rfl

@[simp] theorem State.setGuard_state (s : State) (g : GuardState) : (s.setGuard g).grd.state = g := by
  unfold State.setGuard
  split
  · assumption
  · simp only [State.note, State.regate, State.keypadReset, State.withdraw, State.stayAwake, State.activityEvent]
    repeat' split
    all_goals rfl

/-- A tally set to a value is that value. -/
@[simp] theorem State.setTally_tally (s : State) (v : Nat) : (s.setTally v).tal.tally = v := by
  unfold State.setTally
  split
  · assumption
  · rfl

/-- Entry to WIPING takes the key, the matched slot, must-change and the hold (R16). -/
@[simp] theorem State.enterWiping_state (s : State) : s.enterWiping.grd.state = .wiping := by
  simp [State.enterWiping]

/-! ## Gate, flags and triggers -/

@[simp] theorem State.dropErase_erase (s : State) : s.dropErase.gate.eraseWaiting = none := rfl
@[simp] theorem State.dropErase_yield (s : State) : s.dropErase.gate.yieldCount = 0 := rfl
@[simp] theorem State.issueAccess_toBank (s : State) (r : BridgeRequest) :
    (s.issueAccess r).toBank = s.toBank ++ [.access r] := rfl
@[simp] theorem State.issueAccess_outstanding (s : State) (r : BridgeRequest) :
    (s.issueAccess r).gate.outstanding = s.gate.outstanding ++ [r] := rfl
@[simp] theorem State.issueErase_toBank (s : State) (e : Nat) :
    (s.issueErase e).toBank = s.toBank ++ [.erase e] := rfl
@[simp] theorem State.disarm_armed (s : State) (set : BitVec 8) :
    (s.disarm set).pol.armed = s.pol.armed &&& ~~~set := rfl

/-- A flag that is set is in force (R168). -/
@[simp] theorem State.setFlag_flags (s : State) (f : Flag) : (s.setFlag f).stat.flags = s.stat.flags ||| f.mask := by
  unfold State.setFlag
  dsimp only
  split <;> rfl

/-- Its reported mark goes (R169). -/
@[simp] theorem State.setFlag_reported (s : State) (f : Flag) :
    (s.setFlag f).stat.reported = s.stat.reported &&& ~~~f.mask := by
  unfold State.setFlag
  dsimp only
  split <;> rfl

/-! ## A staging that a destruction dropped -/

@[simp] theorem State.beginCred_stagingDropped (s : State) (j : CredJob) :
    (s.beginCred j).cred.stagingDropped = s.cred.stagingDropped := by
  cases j <;> rfl
@[simp] theorem State.nextCred_stagingDropped (s : State) : s.nextCred.cred.stagingDropped = s.cred.stagingDropped := by
  simp only [State.nextCred]
  repeat' split
  all_goals simp
@[simp] theorem State.askCred_stagingDropped (s : State) (j : CredJob) :
    (s.askCred j).cred.stagingDropped = s.cred.stagingDropped := by
  simp only [State.askCred]
  repeat' split
  all_goals simp

/-- Behind a store that is no destruction, a destruction drops what waits and keeps whether a staging was among it. -/
theorem State.askDestruction_waits (s : State) (h : s.cred.busy ≠ none) (d : s.cred.busy ≠ some .destroy) :
    s.askDestruction = { s with cred := { s.cred with
      waiting := [.destroy]
      stagingDropped := s.cred.waiting.any CredJob.isStage || s.cred.stagingDropped } } := by
  unfold State.askDestruction
  split <;> simp_all

/-- Once its staging is dropped, a station holds the line of a SETCODE round for no store in progress. -/
theorem heldStore_stagingDropped (s : State) (r : RoundRec) (hr : s.eng.round = some r) (hk : r.kind = some .setcode)
    (hd : s.cred.stagingDropped = true) : heldStore s = none := by
  simp [heldStore, ownStoreRuns, hr, hk, hd]

end Sys2Proof.Machine
end

