-- ==== Sys2Proof/Laws/Settle.lean ====
section
/-! SUPPORT. The end of an event: what drain, regate, grantPort, dormantIfQuiet and settle do, and when they do
nothing. -/

namespace Sys2Proof.Machine

/-! ## Taking notices -/

theorem drainNotices_nil (n : Nat) (s : State) (h : s.notices = []) : drainNotices n s = s := by
  cases n with
  | zero => simp [drainNotices, ← h]
  | succ n => simp [drainNotices, h]

theorem drainNotices_cons (n : Nat) (s : State) (x : Notice) (xs : List Notice) (h : s.notices = x :: xs) :
    drainNotices (n + 1) s = drainNotices n (State.takeNotice { s with notices := xs } x) := by
  simp [drainNotices, h]

/-- Nothing is left to take after the notices are drained. -/
@[simp] theorem drainNotices_notices (n : Nat) (s : State) : (drainNotices n s).notices = [] := by
  induction n generalizing s with
  | zero => rfl
  | succ n ih =>
    simp only [drainNotices]
    split
    · assumption
    · exact ih _

@[simp] theorem State.drain_notices (s : State) : s.drain.notices = [] := drainNotices_notices _ s

theorem State.drain_nil (s : State) (h : s.notices = []) : s.drain = s := drainNotices_nil _ s h

/-- What every notice keeps, draining keeps. -/
theorem drainNotices_keeps (P : State → Prop) (hn : ∀ s l, P s → P { s with notices := l })
    (ht : ∀ s n, P s → P (s.takeNotice n)) (n : Nat) (s : State) (h : P s) : P (drainNotices n s) := by
  induction n generalizing s with
  | zero => exact hn s [] h
  | succ n ih =>
    simp only [drainNotices]
    split
    · exact h
    · exact ih _ (ht _ _ (hn s _ h))

theorem State.drain_keeps (P : State → Prop) (hn : ∀ s l, P s → P { s with notices := l })
    (ht : ∀ s n, P s → P (s.takeNotice n)) (s : State) (h : P s) : P s.drain :=
  drainNotices_keeps P hn ht _ s h

/-- What every action keeps, a firing keeps. -/
theorem State.fire_keeps (P : State → Prop) (ha : ∀ s e, P s → P (s.runAction e))
    (hd : ∀ s set, P s → P (s.disarm set)) (s : State) (e : EntryNo) (h : P s) : P (s.fire e) := by
  unfold State.fire
  split
  · have : ∀ (l : List EntryNo) (s : State), P s → P (l.foldl State.runAction s) := by
      intro l
      induction l with
      | nil => exact fun _ h => h
      | cons x l ih => exact fun s h => ih _ (ha s x h)
    exact hd _ _ (this _ _ (ha s e h))
  · exact h

/-- What every action keeps, and what the block's own fields do not touch, a notice keeps. -/
theorem State.takeNotice_keeps (P : State → Prop) (ha : ∀ s e, P s → P (s.runAction e))
    (hp : ∀ s (p : Policy), p.table = s.pol.table → P s → P { s with pol := p }) (s : State) (n : Notice) (h : P s) :
    P (s.takeNotice n) := by
  have hd : ∀ s set, P s → P (s.disarm set) := fun s set h => hp s _ rfl h
  have hf : ∀ (l : List EntryNo) (s : State), P s → P (l.foldl State.fire s) := by
    intro l
    induction l with
    | nil => exact fun _ h => h
    | cons x l ih => exact fun s h => ih _ (State.fire_keeps P ha hd s x h)
  unfold State.takeNotice
  split
  · exact h
  · split
    · unfold State.faultDisarm
      split
      · exact hp s _ rfl h
      · exact h
    · unfold State.armAtStart
      split
      · exact h
      · exact hp s _ rfl h
    · exact hf _ _ (hp s _ rfl h)

/-! ## The gate's part -/

theorem State.regate_none (s : State) (h : s.gate.presented = none) : s.regate = s := by
  simp [State.regate, h]

theorem State.regate_of_decided (s : State) (h : DecisionsTaken s) : s.regate = s := by
  unfold State.regate
  split
  · rfl
  · next r hr => simp [h r hr]

/-- A refused request leaves the slot, and its refusal goes to the bridge (R131). -/
theorem State.regate_refuse (s : State) (r : BridgeRequest) (x : RefuseReason) (h : s.gate.presented = some r)
    (hd : gateDecision s r = .refuse x) :
    s.regate =
      { s with toBridge := s.toBridge ++ [.refusal r x], gate := { s.gate with presented := none } } := by
  simp [State.regate, h, hd]

theorem State.regate_presented (s : State) (r : BridgeRequest) (h : s.regate.gate.presented = some r) :
    s.gate.presented = some r ∧ gateDecision s r = .forward ∧ s.regate = s := by
  revert h
  unfold State.regate
  split
  · simp_all
  · next q hq =>
    split
    · simp
    · intro h
      rw [hq] at h
      cases h
      exact ⟨hq, by assumption, rfl⟩

theorem State.regate_decided (s : State) : DecisionsTaken s.regate := by
  intro r h
  obtain ⟨-, hd, he⟩ := s.regate_presented r h
  rwa [he]

theorem State.grantPort_of_granted (s : State) (h : PortGranted s) : s.grantPort = s := by
  unfold State.grantPort
  split
  · next hr =>
    obtain ⟨h1, h2⟩ := h hr
    simp [h1, h2]
  · rfl

theorem State.grantPort_notReady (s : State) (h : s.gate.portReady = false) : s.grantPort = s := by
  simp [State.grantPort, h]

/-- The grant leaves no candidate on a READY port (R137). -/
theorem State.grantPort_granted (s : State) : PortGranted s.grantPort := by
  unfold State.grantPort
  split
  · next hr =>
    split
    · next h1 h2 => exact fun _ => ⟨h1, h2⟩
    all_goals (try split) <;> · intro h; simp [State.issueErase, State.issueAccess] at h
  · next hr => exact fun h => absurd h hr

/-- What is granted keeps the decisions taken: only the presented request leaves. -/
theorem State.grantPort_decided (s : State) (h : DecisionsTaken s) : DecisionsTaken s.grantPort := by
  unfold State.grantPort
  split
  · split
    · exact h
    · intro r hr; exact h r hr
    · intro r hr; simp [State.issueAccess] at hr
    · split
      · intro r hr; simp [State.issueAccess] at hr
      · intro r hr; exact h r hr
  · exact h

/-! ## Dormancy -/

theorem State.dormantIfQuiet_awake (s : State) (h : AwakeForCause s) : s.dormantIfQuiet = s := by
  unfold State.dormantIfQuiet
  split
  · next hq => exact absurd hq h
  · rfl

theorem State.dormantIfQuiet_notExpired (s : State) (h : s.sup.inactivity ≠ .expired) : s.dormantIfQuiet = s :=
  s.dormantIfQuiet_awake fun hq => h hq.2.1

theorem State.dormantIfQuiet_cause (s : State) : AwakeForCause s.dormantIfQuiet := by
  unfold State.dormantIfQuiet
  split
  · intro h; simp [State.enterDormant] at h
  · next h => exact h

/-- A station falls dormant at the end of an event, or the event ends as it is. -/
theorem State.dormantIfQuiet_cases (s : State) :
    s.dormantIfQuiet = s
      ∨ (s.sup.activity = .doze ∧ s.sup.inactivity = .expired ∧ s.dormantIfQuiet = s.enterDormant) := by
  unfold State.dormantIfQuiet
  split
  · next h => exact .inr ⟨h.1, h.2.1, rfl⟩
  · exact .inl rfl

/-! ## The end of an event -/

/-- An event that leaves nothing over ends as its own effect left it. -/
theorem State.settle_settled (s : State) (h : Settled s) : s.settle = s := by
  unfold State.settle
  rw [s.drain_nil h.notices, s.regate_of_decided h.decided, s.grantPort_of_granted h.granted,
    s.dormantIfQuiet_awake h.awake]

/-- Without notices the end of an event is the gate's part and dormancy. -/
theorem State.settle_quiet (s : State) (h : s.notices = []) :
    s.settle = s.regate.grantPort.dormantIfQuiet := by
  unfold State.settle
  rw [s.drain_nil h]

theorem event_next (f : State → State) (s : State) : event f s = .next (f { s with notices := [] }).settle := rfl

/-- From a settled state the event's own effect is applied to the state as it stands. -/
theorem event_settled (f : State → State) (s : State) (h : s.notices = []) : event f s = .next (f s).settle := by
  have : ({ s with notices := [] } : State) = s := by rw [← h]
  rw [event_next, this]

/-- An event on a settled station whose own effect leaves nothing over answers just that effect. -/
theorem event_exact {f : State → State} {s u : State} (h : Settled s) (hf : f s = u) (hn : u.notices = [])
    (hd : DecisionsTaken u) (hg : PortGranted u) (ha : AwakeForCause u) : event f s = .next u := by
  rw [event_settled f s h.notices, hf, u.settle_settled ⟨hn, hd, hg, ha⟩]

end Sys2Proof.Machine
end

