-- ==== Sys2Proof/Laws/Queue.lean ====
section
/-! SUPPORT. The opening queue: what posts, removals and changes in place do to its requests and its order. -/

namespace Sys2Proof.Machine

theorem kindCode_inj {a b : RoundKind} (h : kindCode a = kindCode b) : a = b := by
  cases a <;> cases b <;> simp_all [kindCode]

@[simp] theorem mem_queueInsert (r x : Request) (q : List Request) : x ∈ queueInsert r q ↔ x = r ∨ x ∈ q := by
  induction q with
  | nil => simp [queueInsert]
  | cons y q ih =>
    simp only [queueInsert]
    split
    · simp
    · simp only [List.mem_cons, ih]; tauto

theorem queueInsert_ne_nil (r : Request) (q : List Request) : queueInsert r q ≠ [] := by
  cases q with
  | nil => simp [queueInsert]
  | cons y q => simp only [queueInsert]; split <;> simp

@[simp] theorem repost_kind (r : Request) (a : Arg) : (r.repost a).kind = r.kind := by
  unfold Request.repost; split <;> rfl

@[simp] theorem unsent_kind (r : Request) : r.unsent.kind = r.kind := rfl

/-- What a post leaves in the queue (R47). -/
theorem mem_queuePost {k : RoundKind} {a : Arg} {q : List Request} {x : Request} (h : x ∈ queuePost k a q) :
    x ∈ q ∨ x = { kind := k, arg := a } ∨ ∃ r ∈ q, x = r.repost a ∧ r.kind = k := by
  unfold queuePost at h
  split at h
  · simp at h; tauto
  · split at h
    · exact .inl h
    · simp only [queueModify, List.mem_map] at h
      obtain ⟨y, hy, rfl⟩ := h
      split
      · exact .inr (.inr ⟨y, hy, rfl, by assumption⟩)
      · exact .inl hy

theorem queueFind_kind {k : RoundKind} {q : List Request} {r : Request} (h : queueFind k q = some r) :
    r ∈ q ∧ r.kind = k := by
  unfold queueFind at h
  exact ⟨List.mem_of_find?_eq_some h, by simpa using List.find?_some h⟩

theorem queueFind_isSome {k : RoundKind} {q : List Request} : (queueFind k q).isSome = true ↔ ∃ r ∈ q, r.kind = k := by
  simp [queueFind]

/-- A post leaves a request of its kind in the queue. -/
theorem queuePost_has (k : RoundKind) (a : Arg) (q : List Request) : ∃ r ∈ queuePost k a q, r.kind = k := by
  unfold queuePost
  split
  · exact ⟨_, (mem_queueInsert _ _ _).2 (.inl rfl), rfl⟩
  · next r hr =>
    obtain ⟨hm, hk⟩ := queueFind_kind hr
    split
    · exact ⟨r, hm, hk⟩
    · exact ⟨_, List.mem_map.2 ⟨r, hm, rfl⟩, by simp [hk]⟩

/-- A post keeps a request of every kind there was. -/
theorem queuePost_keeps {k k' : RoundKind} {a : Arg} {q : List Request} (h : ∃ r ∈ q, r.kind = k') :
    ∃ r ∈ queuePost k a q, r.kind = k' := by
  obtain ⟨r, hr, hk⟩ := h
  unfold queuePost
  split
  · exact ⟨r, by simp [hr], hk⟩
  · split
    · exact ⟨r, hr, hk⟩
    · refine ⟨_, List.mem_map.2 ⟨r, hr, rfl⟩, ?_⟩
      split <;> simp [hk]

theorem queuePost_ne_nil (k : RoundKind) (a : Arg) (q : List Request) : queuePost k a q ≠ [] := by
  obtain ⟨r, hr, -⟩ := queuePost_has k a q
  exact List.ne_nil_of_mem hr

theorem State.post_ne_nil (s : State) (k : RoundKind) (a : Arg) (h : s.eng.queue ≠ []) :
    (s.post k a).eng.queue ≠ [] := by
  unfold State.post
  split
  · exact h
  · exact queuePost_ne_nil k a _

/-- The order of the kinds. -/
def QueueRises (q : List Request) : Prop := q.Pairwise fun a b => kindCode a.kind < kindCode b.kind

theorem QueueRises.insert {r : Request} {q : List Request} (h : QueueRises q) (hn : ∀ x ∈ q, x.kind ≠ r.kind) :
    QueueRises (queueInsert r q) := by
  induction q with
  | nil => simp [queueInsert, QueueRises]
  | cons y q ih =>
    have hy := List.pairwise_cons.1 h
    simp only [queueInsert]
    split
    · next hlt =>
      refine List.pairwise_cons.2 ⟨?_, h⟩
      intro x hx
      rcases List.mem_cons.1 hx with rfl | hx
      · exact hlt
      · exact lt_trans hlt (hy.1 x hx)
    · next hge =>
      refine List.pairwise_cons.2 ⟨?_, ih hy.2 fun x hx => hn x (by simp [hx])⟩
      intro x hx
      rcases (mem_queueInsert _ _ _).1 hx with rfl | hx
      · have : kindCode y.kind ≠ kindCode x.kind := fun e => hn y (by simp) (kindCode_inj e)
        omega
      · exact hy.1 x hx

theorem QueueRises.map {q : List Request} (f : Request → Request) (hf : ∀ r, (f r).kind = r.kind) (h : QueueRises q) :
    QueueRises (q.map f) := by
  unfold QueueRises at *
  rw [List.pairwise_map]
  simpa [hf] using h

theorem QueueRises.filter {q : List Request} (p : Request → Bool) (h : QueueRises q) : QueueRises (q.filter p) :=
  List.Pairwise.filter p h

theorem QueueRises.post {k : RoundKind} {a : Arg} {q : List Request} (h : QueueRises q) :
    QueueRises (queuePost k a q) := by
  unfold queuePost
  split
  · next hn =>
    refine h.insert fun x hx e => ?_
    have := List.find?_eq_none.1 hn x hx
    simp_all
  · split
    · exact h
    · exact h.map _ fun r => by split <;> simp

/-- In a rising queue a request is the only one of its kind. -/
theorem QueueRises.unique {q : List Request} (h : QueueRises q) {a b : Request} (ha : a ∈ q) (hb : b ∈ q)
    (hk : a.kind = b.kind) : a = b := by
  induction q with
  | nil => cases ha
  | cons y q ih =>
    have hy := List.pairwise_cons.1 h
    rcases List.mem_cons.1 ha with ea | ma <;> rcases List.mem_cons.1 hb with eb | mb
    · rw [ea, eb]
    · have := hy.1 _ mb; rw [← ea, hk] at this; omega
    · have := hy.1 _ ma; rw [← eb, hk] at this; omega
    · exact ih hy.2 ma mb

/-- In a rising queue the request of a kind is the one found. -/
theorem QueueRises.find {q : List Request} (h : QueueRises q) {a : Request} (ha : a ∈ q) :
    queueFind a.kind q = some a := by
  have : (queueFind a.kind q).isSome = true := queueFind_isSome.2 ⟨a, ha, rfl⟩
  obtain ⟨b, hb⟩ := Option.isSome_iff_exists.1 this
  obtain ⟨hm, hk⟩ := queueFind_kind hb
  rw [hb, h.unique hm ha hk]

end Sys2Proof.Machine
end

