-- ==== Sys2Proof/Laws/Triggers.lean ====
section
/-! SUPPORT. What trigger actions may do within an event, said once: an induction principle over draining, and the
guard states that actions may lead to (R118). -/

namespace Sys2Proof.Machine

/-- What an action does, by cases (R119 to R121). -/
theorem State.runAction_cases (s : State) (e : EntryNo) :
    s.runAction e = s ∨ (∃ n, s.runAction e = s.holdRequest n) ∨ s.runAction e = s.lockLocally.post .lock lockPolicy
      ∨ s.runAction e = s.post .wipe wipePolicy ∨ (∃ n, s.runAction e = s.pulse n)
      ∨ ∃ p : Policy, p.table = s.pol.table ∧ p.armed = s.pol.armed ∧ s.runAction e = { s with pol := p } := by
  unfold State.runAction
  split
  · exact .inl rfl
  · exact .inr (.inl ⟨_, rfl⟩)
  · exact .inr (.inr (.inl rfl))
  · exact .inr (.inr (.inr (.inl rfl)))
  · next t n _ =>
    exact .inr (.inr (.inr (.inr (.inr ⟨{ s.pol with timers := s.pol.timers.set t.val (some (s.now + 1000 * n)) }, rfl, rfl, rfl⟩))))
  · next t _ =>
    exact .inr (.inr (.inr (.inr (.inr ⟨{ s.pol with timers := s.pol.timers.set t.val none }, rfl, rfl, rfl⟩))))
  · exact .inr (.inr (.inr (.inr (.inl ⟨_, rfl⟩))))
  · exact .inr (.inr (.inr (.inr (.inr ⟨{ s.pol with memos := s.pol.memos.set e.val s.tal.tally }, rfl, rfl, rfl⟩))))

/-- What holds, local locks, posts, pulses and the triggers' own fields keep, taking every notice of an event keeps. -/
theorem State.drain_keeps_all (P : State → Prop) (notes : ∀ s l, P s → P { s with notices := l })
    (hold : ∀ s n, P s → P (s.holdRequest n)) (lock : ∀ s, P s → P s.lockLocally)
    (post : ∀ s k a, P s → P (s.post k a)) (pulse : ∀ s n, P s → P (s.pulse n))
    (pol : ∀ s (p : Policy), p.table = s.pol.table → P s → P { s with pol := p }) (s : State) (h : P s) : P s.drain := by
  refine s.drain_keeps P notes (fun s n h => s.takeNotice_keeps P ?_ pol n h) h
  intro s e h
  rcases s.runAction_cases e with hr | ⟨n, hr⟩ | hr | hr | ⟨n, hr⟩ | ⟨p, ht, -, hr⟩ <;> rw [hr]
  · exact h
  · exact hold s n h
  · exact post _ _ _ (lock s h)
  · exact post _ _ _ h
  · exact pulse _ _ h
  · exact pol _ _ ht h

/-! ## Guard states -/

theorem GuardState.triggersMay.refl (a : GuardState) : a.triggersMay a := .inl rfl

theorem GuardState.triggersMay.trans {a b c : GuardState} (h1 : a.triggersMay b) (h2 : b.triggersMay c) :
    a.triggersMay c := by
  unfold GuardState.triggersMay at *
  rcases h1 with rfl | ⟨ha, hb | hb | hb⟩ | ⟨ha, hb⟩ <;>
    rcases h2 with rfl | ⟨hc, hd⟩ | ⟨hc, hd⟩ <;> simp_all

/-- The end of CLOSING (R15). -/
theorem State.endClosing_state (s : State) :
    s.endClosing.grd.state = if s.tal.deadline.isSome then .held else .locked := by
  simp only [State.endClosing, State.deadlineAhead, State.setGuard_state]
  split <;> simp_all

/-- Where a local lock leads (R10 to R15). -/
theorem State.lockLocally_state (s : State) :
    s.lockLocally.grd.state =
      if s.grd.state = .opened ∨ s.grd.state = .admin then
        if s.gate.outstanding = [] then (if s.tal.deadline.isSome then .held else .locked) else .closing
      else s.grd.state := by
  unfold State.lockLocally
  split
  · simp only [State.drained]
    by_cases ho : s.gate.outstanding = []
    · simp [ho, State.endClosing_state]
    · simp [ho]
  · rfl

theorem State.lockLocally_of_closed (s : State) (h : ¬(s.grd.state = .opened ∨ s.grd.state = .admin)) :
    s.lockLocally = s := by
  simp [State.lockLocally, h]

/-- Where a hold request leads: LOCKED to HELD at most (R6). -/
theorem State.holdRequest_state (s : State) (n : Nat) :
    (s.holdRequest n).grd.state = s.grd.state ∨ (s.grd.state = .locked ∧ (s.holdRequest n).grd.state = .held) := by
  have key : ∀ d : Nat, (s.moveDeadline d n).grd.state = s.grd.state
      ∨ (s.grd.state = .locked ∧ (s.moveDeadline d n).grd.state = .held) := by
    intro d
    unfold State.moveDeadline State.takeDeadline
    dsimp only
    split
    · exact .inl (by simp [State.setOwed])
    · split
      · next h => exact .inr ⟨by simpa [State.setOwed] using h, by simp⟩
      · exact .inl (by simp [State.setOwed])
  unfold State.holdRequest
  dsimp only
  split
  · split
    · exact .inl rfl
    · exact key _
  · exact key _

theorem State.holdRequest_triggersMay (s : State) (n : Nat) : s.grd.state.triggersMay (s.holdRequest n).grd.state := by
  rcases s.holdRequest_state n with h | ⟨h1, h2⟩
  · exact .inl h
  · exact .inr (.inr ⟨h1, h2⟩)

theorem State.lockLocally_triggersMay (s : State) : s.grd.state.triggersMay s.lockLocally.grd.state := by
  rw [s.lockLocally_state]
  split
  · next h =>
    refine .inr (.inl ⟨h, ?_⟩)
    split <;> (try split) <;> simp
  · exact .inl rfl

/-- Taking the notices moves the guard state as actions may. -/
theorem State.drain_triggersMay (s : State) : s.grd.state.triggersMay s.drain.grd.state := by
  refine s.drain_keeps_all (fun u => s.grd.state.triggersMay u.grd.state) ?_ ?_ ?_ ?_ ?_ ?_ (.inl rfl)
  · exact fun _ _ h => h
  · exact fun u n h => h.trans (u.holdRequest_triggersMay n)
  · exact fun u h => h.trans u.lockLocally_triggersMay
  · intro u k a h; simpa using h
  · intro u n h; simpa using h
  · exact fun _ _ _ h => h

@[simp] theorem State.regate_grd (s : State) : s.regate.grd = s.grd := by simp
@[simp] theorem State.grantPort_grd (s : State) : s.grantPort.grd = s.grd := by simp
@[simp] theorem State.dormantIfQuiet_grd (s : State) : s.dormantIfQuiet.grd = s.grd := by simp

/-- After taking the notices the guard state stands. -/
theorem State.settle_grd (s : State) : s.settle.grd = s.drain.grd := by simp [State.settle]

theorem State.settle_triggersMay (s : State) : s.grd.state.triggersMay s.settle.grd.state := by
  rw [s.settle_grd]; exact s.drain_triggersMay

/-! ## No entry armed -/

/-- With no entry armed a notice reaches the triggers' own fields alone. -/
theorem State.takeNotice_unarmed (s : State) (n : Notice) (h : s.pol.armed = 0) (hn : n ≠ .startingEnded) :
    ∃ p : Policy, p.table = s.pol.table ∧ p.armed = 0 ∧ p.timers = s.pol.timers ∧ p.memos = s.pol.memos
      ∧ s.takeNotice n = { s with pol := p } := by
  have hfire : ∀ (u : State) (e : EntryNo), u.pol.armed = 0 → u.fire e = u := by
    intro u e hu
    simp [State.fire, inEntries, hu]
  have hfold : ∀ (l : List EntryNo) (u : State), u.pol.armed = 0 → l.foldl State.fire u = u := by
    intro l
    induction l with
    | nil => exact fun _ _ => rfl
    | cons x l ih => intro u hu; rw [List.foldl_cons, hfire u x hu, ih u hu]
  unfold State.takeNotice
  split
  · exact ⟨s.pol, rfl, h, rfl, rfl, rfl⟩
  · split
    · unfold State.faultDisarm
      split
      · exact ⟨{ s.pol with armed := 0, latch := true }, rfl, rfl, rfl, rfl, rfl⟩
      · exact ⟨s.pol, rfl, h, rfl, rfl, rfl⟩
    · exact absurd rfl hn
    · dsimp only
      exact ⟨{ s.pol with last := lastAfterNotice s n }, rfl, h, rfl, rfl, hfold _ _ (by exact h)⟩

/-- With no entry armed and STARTING not ending, the triggers change their own fields alone. -/
theorem State.drain_unarmed (s : State) (h : s.pol.armed = 0) (hn : Notice.startingEnded ∉ s.notices) :
    ∃ p : Policy, p.table = s.pol.table ∧ p.armed = 0 ∧ p.timers = s.pol.timers ∧ p.memos = s.pol.memos
      ∧ s.drain = { s with pol := p, notices := [] } := by
  have key : ∀ (n : Nat) (u : State), u.pol.armed = 0 → Notice.startingEnded ∉ u.notices →
      ∃ p : Policy, p.table = u.pol.table ∧ p.armed = 0 ∧ p.timers = u.pol.timers ∧ p.memos = u.pol.memos
        ∧ drainNotices n u = { u with pol := p, notices := [] } := by
    intro n
    induction n with
    | zero => exact fun u hu _ => ⟨u.pol, rfl, hu, rfl, rfl, rfl⟩
    | succ n ih =>
      intro u hu hs
      simp only [drainNotices]
      split
      · next hnil => exact ⟨u.pol, rfl, hu, rfl, rfl, by rw [← hnil]⟩
      · next x xs hx =>
        rw [hx] at hs
        simp only [List.mem_cons, not_or] at hs
        obtain ⟨p, p1, p2, p3, p4, p5⟩ := State.takeNotice_unarmed { u with notices := xs } x hu (Ne.symm hs.1)
        rw [p5]
        obtain ⟨q, q1, q2, q3, q4, q5⟩ := ih { u with notices := xs, pol := p } p2 hs.2
        exact ⟨q, q1.trans p1, q2, q3.trans p3, q4.trans p4, q5⟩
  exact key _ s h hn

end Sys2Proof.Machine
end

