-- ==== Sys2Proof/Tests/Slice0.lean ====
section
/-! SUPPORT. The author's own tests: the well-formedness checks, worked values of the spec, one step of some commands, and
for each obligation with hypotheses a state and operands that meet them (test_meets_…). -/

namespace Sys2Proof.Tests

open Sys2Proof.Machine

/-! ## Well-formedness -/

theorem test_illformed_power_on_without_supply : Instr.wf (.powerOn 0 1 true true false) = false := by decide
theorem test_illformed_retry_of_check : Instr.wf (.retryDue .check) = false := by decide
theorem test_illformed_retry_of_setmark : Instr.wf (.retryDue .setmark) = false := by decide
theorem test_wellformed_power_on : Instr.wf (.powerOn 0 1 false true true) = true := by decide
theorem test_wellformed_retry_of_lock : Instr.wf (.retryDue .lock) = true := by decide
theorem test_no_word_spells_a_command : decodeTableWord 16 5 = none := by decide

/-! ## Worked values of the spec -/

/-- R29: 6 offered in a 7-bit merged-high field is driven as 121 and read back as 6. -/
theorem test_merged_high_complement : complementOf .tallyHi 6 = asBits 121 := by decide
theorem test_merged_high_result :
    fieldResult { state := .bus } (.bits (asBits 121)) .tallyHi (asBits 121) = ⟨.tallyHi, asBits 6, true⟩ := by decide
theorem test_merged_high_nobody_drives :
    (fieldResult { state := .bus } .nothing .tallyHi (asBits 127)).value = 0 := by decide
theorem test_merged_low_lost :
    (fieldResult { state := .bus } (.bits 9) .stampLo 4) = ⟨.stampLo, 4, false⟩ := by decide
/-- R27: the own slot as driven, slots outside the roster dropped. -/
theorem test_map_taken :
    takenMap { state := .bus, stn := 1, roster := 3 } true 0b11110001#8 = 0b011#8 := by decide
theorem test_setcode_arg : setcodeArg 2 .user 0x1ABC#16 = 0b1010101010111100#16 := by decide
theorem test_setmark_fixed_arg : markChangeOf (setmarkFixed 63 2) = some (.fixed 63 .frozen) := by decide
theorem test_setmark_all_arg : markChangeOf (setmarkSessionAll .readOnly) = some (.session none .readOnly) := by decide
theorem test_setmark_stray_bit : markChangeOf 0b0000010000000001#16 = none := by decide
theorem test_setmark_fixed_all_refused : markChangeOf 0b1000000001111111#16 = none := by decide
theorem test_fit_header : fitItemOf 0 0b10#32 = some (.header true false) := by decide
theorem test_fit_stray_bit : fitItemOf 0 0b110#32 = none := by decide
theorem test_fit_index_17 : fitItemOf 17 0 = none := by decide
theorem test_fit_mark_code_3 : fitItemOf 35 0b11#32 = none := by decide
theorem test_clear_arg : clearTarget 0xF040#16 = 15 ∧ (clearSet 0xF040#16).has .peerLost = true := by decide
theorem test_judge_kinds :
    judgeKind 0 = .stuck ∧ judgeKind 1 = .valid .wipe ∧ judgeKind 10 = .valid .fit ∧ judgeKind 11 = .badKind
      ∧ judgeKind 14 = .badKind ∧ judgeKind 15 = .idlePattern := by decide
theorem test_classify :
    classify (.digit 3) (keyMask .shift) = .chord 3 ∧ classify (.digit 3) (keyMask (.digit 4)) = .ignored
      ∧ classify (.digit 3) 0 = .digit 3 ∧ classify .unlock (keyMask .shift) = .chordUnlock := by decide
theorem test_straps : strapsBad 0 0 = true ∧ strapsBad 2 1 = true ∧ strapsBad 1 1 = false ∧ strapsBad 7 7 = false := by
  decide

/-! ## Small states -/

/-- Records with a policy table whose check value is a number and a serial. -/
def records : Nonvolatile :=
  { Nonvolatile.manufactured with policy := ⟨false, false, 9, Vector.replicate 8 {}⟩, serial := 0x80000001#32 }

/-- A station with its records loaded, on bus power or on battery, alone with one peer. -/
def calm (g : GuardState) (supply : SupplyState := .bus) : State :=
  { State.atPowerOn [] 1000 0 [] [] records ⟨0, supply == .bus, false, true⟩
      { state := supply, roster := 2, step := .done } with
    grd := { state := g } }

/-- The key of a press due at 1020, with or without SHIFT held. -/
def pressed (g : GuardState) (k : Key) (shift : Bool) (mode : KeypadMode := .idle) : State :=
  { calm g with
    pins := ⟨keyMask k, true, false, true⟩
    key := { states := if shift then keyMask .shift else 0, debounce := [(keyNumber k, 1020)], mode := mode } }

/-- A station that tracks a round. -/
def tracked (g : GuardState) (r : RoundRec) (p : FieldPos) (role : LineRole := .listener) (offer : Offer := .nothing) :
    State :=
  { calm g with line := { view := .round, role := role, pos := p, offer := offer }, eng := { (calm g).eng with round := some r } }

/-- The record of a round that this station answers. -/
def answering (k : RoundKind) (arg : Arg := 0) (results : List FieldResult := []) : RoundRec :=
  { kind := some k, arg := arg, answer := 3, answered := true, results := results }

/-- A result of a body field, equal to the own value. -/
def res (f : Field) (n : Nat) : FieldResult := ⟨f, asBits n, true⟩

/-- The state a command answers with, or the state before. -/
def after (c : Instr) (s : State) : State :=
  match exec c s with
  | .next t => t
  | _ => s

/-- A state with nothing presented, no READY port, no input left over and no timer run out in DOZE is settled. -/
theorem settled_of (s : State)
    (h : (s.notices == [] && s.gate.presented == none && !s.gate.portReady && s.sup.inactivity != .expired) = true) :
    Settled s := by
  simp only [Bool.and_eq_true, beq_iff_eq, Bool.not_eq_true', bne_iff_ne, ne_eq] at h
  obtain ⟨⟨⟨h1, h2⟩, h3⟩, h4⟩ := h
  refine ⟨h1, ?_, ?_, ?_⟩
  · intro r hr
    rw [h2] at hr
    cases hr
  · intro hp
    rw [h3] at hp
    simp at hp
  · rintro ⟨_, hx, _⟩
    exact h4 hx

theorem calm_settled (g : GuardState) (supply : SupplyState) : Settled (calm g supply) :=
  settled_of _ rfl

/-- In a round past KIND, with no header handed over, the requests in flight are the round's: the flight invariant. -/
theorem flight_in_round (s : State) (r : RoundRec) (p : FieldPos) (h : InRound s r p) (hp : ∀ b, p ≠ .inField .kind b)
    (q : ∀ x ∈ s.eng.queue, x.inFlight = true → r.kind = some x.kind)
    (rest : (s.line.header == none && s.tracking && s.sup.warmup == none && s.sup.activity != .dormant) = true) :
    FlightIsTheRounds s := by
  simp only [Bool.and_eq_true, beq_iff_eq, bne_iff_ne, ne_eq] at rest
  obtain ⟨⟨⟨h1, h2⟩, h3⟩, h4⟩ := rest
  refine ⟨fun x hx hf => .inr ⟨r, h.record, q x hx hf⟩, fun k a ha => ?_, fun _ => h.view, fun hv => absurd h.view hv,
    fun r' b _ hb => ?_, fun hn => ?_, fun hw => absurd h3 hw, fun hd => absurd hd h4⟩
  · rw [h1] at ha
    cases ha
  · exact absurd (h.pos.symm.trans hb) (hp b)
  · rw [h2] at hn
    cases hn

/-! ## One step of some commands -/

theorem test_tick : (match step (calm .locked) with | .next t => t.now | _ => 0) = 1001 := by decide
theorem test_step_takes_the_front :
    (match step { calm .locked with pending := [.portReady, .openRound] } with
      | .next t => (t.pending, t.gate.portReady) | _ => ([], false)) = ([.openRound], true) := by decide
theorem test_read_refused_in_locked :
    (after (.read 5 7) (calm .locked)).toBridge = [.refusal ⟨.read, 5, 7⟩ .locked] := by decide
theorem test_read_waits_for_the_port :
    (after .portReady (after (.read 5 7) (calm .opened))).toBank = [.access ⟨.read, 5, 7⟩] := by decide
theorem test_write_needs_power :
    (after (.write 5 7) (calm .opened .battery)).toBridge = [.refusal ⟨.write, 5, 7⟩ .noPower] := by decide
theorem test_digit_collected :
    (after (.keyPress (.digit 4)) (pressed .locked (.digit 4) false)).key.buffer = [4] := by decide
theorem test_short_entry_pulses :
    (after (.keyPress .unlock) (pressed .locked .unlock false)).grd.pulseTimer = some 2020 := by decide
theorem test_shift_zero_locks :
    (after (.keyPress (.digit 0)) (pressed .opened (.digit 0) true)).grd.state = .locked := by decide
theorem test_open_round_offers_lock :
    (after .openRound { calm .locked with
      line := { view := .idle }, eng := { queue := queuePost .lock 1 (queuePost .roll 0 []) } }).line.header
      = some (.lock, 1) := by decide
theorem test_roll_adopts_the_greatest_tally :
    (after (.roundEnd 2) (tracked .locked (answering .roll 0 [res .tallyHi 7]) (.inField .accept 0) .listener .slot)).tal.tally
      = 7 := by decide
theorem test_tally_result_above_99_is_clamped :
    (after (.roundEnd 2) (tracked .locked (answering .roll 0 [res .tallyHi 127]) (.inField .accept 0) .listener .slot)).tal.tally
      = 99 := by decide
theorem test_power_on_in_strap_fault : (after (.powerOn 1 0 true false true) State.reset).grd.state = .strapFault := by decide
theorem test_power_on_loads : (after (.powerOn 1 1 false false true) State.reset).sup.step = .loading := by decide
theorem test_late_round_stops_the_idle_timer :
    (after .lateRoundSeen { calm .locked with line := { idleTimer := some 1002 } }).line
      = { stuckTimer := some 1050, tail := true } := by decide
theorem test_fall_in_loading_takes_the_port :
    (after (.busPowerFall .warning) { calm .starting with
      sup := { state := .bus, roster := 2, step := .loading }
      gate := { (calm .starting).gate with portReady := true } }).gate.portReady = false := by decide
theorem test_idle_pattern_begins_the_journal_store_again :
    (after (.fieldEnd (asBits 15)) { tracked .locked {} (.inField .kind 0) with
      wipe := { journal := {}, again := some { phase := .ordered } } }).wipe.busy = some { phase := .ordered } := by decide
theorem test_incomplete_check_holds_beside_a_later_deadline :
    (after (.roundEnd 2) { tracked .locked (answering .check) (.inField .accept 0) .listener .slot with
      tal := { tally := 0, holdOwed := 60, deadline := some 61000 } }).grd.state = .held := by decide
theorem test_clash_disarms_and_latches :
    (fun p => (p.latch, p.armed)) (after (.fieldEnd 0) { tracked .locked (answering .roll) (.inField .serial 192) with
      pol := { table := ⟨true, false, 9, Vector.replicate 8 {}⟩, armed := 0xFF#8 } }).pol = (true, 0#8) := by decide
theorem test_dominant_accept_leaves_the_stuck_timer_running :
    (after (.roundEnd 0xFF) { calm .locked with
      line := { view := .round, pos := .inField .accept 0, stuckTimer := some 1030 }
      eng := { round := some (answering .lock) } }).line = { view := .gap, stuckTimer := some 1030 } := by decide
theorem test_recessive_accept_starts_the_idle_timer :
    (after (.roundEnd 0) { calm .locked with
      line := { view := .round, pos := .inField .accept 0, stuckTimer := some 1030 }
      eng := { round := some (answering .lock) } }).line = { view := .gap, idleTimer := some 1002 } := by decide
theorem test_a_line_may_be_found_stuck_in_idle :
    (after .lineStuckExpiry { calm .locked with line := { view := .idle } }).line = { view := .stuck } := by decide
theorem test_a_start_in_gap_starts_the_stuck_timer_anew :
    (after .roundStart { calm .locked with line := { view := .gap, stuckTimer := some 1010 } }).line.stuckTimer
      = some 1050 := by decide
theorem test_hold_owed_repeat_waits_for_the_hold_field_to_end :
    (after (.holdOwedStoreEnded false) { tracked .locked (answering .check) (.inField .hold 0) with
      tal := { tally := 0, holdOwed := 60, owedStore := { busy := some 60 } } }).tal.owedStore = { again := true } := by
  decide
theorem test_hold_field_end_repeats_hold_owed :
    (after .holdFieldEnd { tracked .locked (answering .check) (.inField .hold 0) with
      tal := { tally := 0, holdOwed := 60, owedStore := { again := true } } }).tal.owedStore = { busy := some 60 } := by
  decide
theorem test_indicators_locked : (calm .locked).indicators = ⟨true, false, false⟩ := by decide
theorem test_detail_report_length_of_tally :
    ((detailReport { calm .locked with tal := { tally := 99, holdOwed := 0 } }).extractLsb' 140 7).toNat = 99 := by decide

/-! ## The hypotheses of the obligations are met -/

theorem test_meets_StepTakesTheFrontCommandOrATick :
    ({ calm .locked with pending := [.portReady, .openRound] } : State).pending = .portReady :: [.openRound]
      ∧ (calm .locked).pending = [] := ⟨rfl, rfl⟩

/-- Tally, hold, queue and counts at the ends of their ranges. -/
def fullCounts : State :=
  { calm .wiping with
    tal := { tally := 99, tallyStore := { busy := some 99, waiting := some 0 }, deadline := some 3601000, holdOwed := 3600
             owedStore := { busy := some 3600, waiting := some 0 } }
    eng := {
      queue := [⟨.wipe, 4, 10, none, false, false⟩, ⟨.lock, 1, 0, some 5, false, false⟩, ⟨.roll, 0, 10, none, true, true⟩,
        ⟨.progress, 0, 3, none, false, false⟩]
      absence := Vector.replicate 8 3
      rollCount := 20 } }

theorem test_meets_TallyHoldQueueAndCountsStayInRange :
    TallyInRange fullCounts ∧ HoldInRange fullCounts ∧ QueueInOrder fullCounts ∧ CountsInRange fullCounts
      ∧ step fullCounts = .next { fullCounts with now := 1001 } := by
  refine ⟨⟨by decide, by decide, ⟨?_, ?_⟩⟩, ⟨by decide, by decide, ⟨?_, ?_⟩, ?_⟩, ⟨by decide, by decide⟩,
    ⟨by decide, by decide, by decide⟩, rfl⟩
  all_goals
    intro v h
    cases h
    decide

/-- A header handed over on an idle line, its request in flight. -/
def offering : State :=
  { calm .locked with
    line := { view := .idle, header := some (.roll, 0) }
    eng := { queue := [⟨.roll, 0, 10, none, true, true⟩] } }

theorem test_meets_TallyHoldQueueAndCountsStayInRange_flight :
    FlightIsTheRounds offering ∧ step offering = .next { offering with now := 1001 } := by
  refine ⟨⟨?_, ?_, ?_, fun _ => ⟨rfl, rfl⟩, ?_, ?_, ?_, ?_⟩, rfl⟩
  · intro x hx _
    simp only [offering, List.mem_singleton] at hx
    subst hx
    exact .inl ⟨0, rfl⟩
  · intro k a h
    exact .inl ⟨rfl, rfl⟩
  · intro h
    exact absurd rfl h
  · intro r b h
    cases h
  · intro h
    exact absurd h (by decide)
  · intro h
    exact absurd rfl h
  · intro h
    exact absurd h (by decide)

/-- Four requests outstanding, an erase passed over eight times. -/
def fullGate : State :=
  { calm .admin with
    gate := { (calm .admin).gate with
      outstanding := List.replicate 4 ⟨.read, 1, 0⟩, eraseWaiting := some 3, yieldCount := 8 }
    wipe := { (calm .admin).wipe with erase := .waiting } }

theorem test_meets_TheGateStaysInRange : GateInRange fullGate ∧ step fullGate = .next { fullGate with now := 1001 } :=
  ⟨⟨by decide, by decide, by decide, by decide⟩, rfl⟩

/-- ADMIN on battery with key, matched slot and open mark lock. -/
def openAdmin : State :=
  { calm .admin .battery with
    cred := { (calm .admin).cred with plainKey := some 7 }
    grd := { state := .admin, matched := some 0, batteryTimer := some 61000 }
    gate := { (calm .admin).gate with markLockOpen := true } }

theorem test_meets_TheKeyIsHeldOnlyWhileOpen :
    KeyInCustody openAdmin ∧ step openAdmin = .next { openAdmin with now := 1001 } :=
  ⟨⟨by decide, by decide, by decide, by decide, by decide, by decide, by decide⟩, rfl⟩

/-- A port that is READY. -/
def readyPort (g : GuardState) : State := { calm g with gate := { (calm g).gate with portReady := true } }

/-- The same with an extent PUBLIC. -/
def readyPublic : State :=
  { calm .locked with gate := { (calm .locked).gate with
      portReady := true, fixedMarks := (Vector.replicate 64 FixedMark.normal).set 63 .pub } }

theorem test_meets_AccessesReachTheBankOnlyWhenForwarded :
    (∃ t, exec (.write 63 5) (readyPort .opened) = .next t ∧ t.toBank = [] ++ [.access ⟨.write, 63, 5⟩])
      ∧ (∃ t, exec (.trim 0 5) (readyPort .admin) = .next t ∧ t.toBank = [] ++ [.access ⟨.trim, 0, 5⟩])
      ∧ ∃ t, exec (.read 63 5) readyPublic = .next t ∧ t.toBank = [] ++ [.access ⟨.read, 63, 5⟩] :=
  ⟨⟨_, rfl, by decide⟩, ⟨_, rfl, by decide⟩, ⟨_, rfl, by decide⟩⟩

theorem test_meets_WhatNoCommandTakesBack :
    (∃ t, exec .portReady (calm .locked) = .next t ∧ t.sup.state = .bus) ∧ (calm .locked).sup.state = .bus
      ∧ ∀ r, Instr.portReady ≠ .loadingEnd r :=
  ⟨⟨_, rfl, by decide⟩, rfl, by simp⟩

theorem test_meets_StrapFaultLastsAndIsInert :
    InertInStrapFault (calm .strapFault) ∧ (calm .strapFault).sup.state ≠ .off
      ∧ step (calm .strapFault) = .next { calm .strapFault with now := 1001 } :=
  ⟨⟨fun _ _ => by decide⟩, by decide, rfl⟩

theorem test_meets_GuardChangesAreHandedOn : (calm .admin).grd.state ≠ .closing := by decide

theorem test_meets_PowerComesAndGoes :
    State.reset.sup.state = .off ∧ ((true && !false) || false) = true ∧ ((false && !true) || true) = true
      ∧ (calm .locked .battery).sup.state ≠ .off ∧ (calm .locked .battery).pins.batSense = true
      ∧ ((calm .locked .battery).pins.busSense && !(calm .locked .battery).pins.pfw) = false
      ∧ ({ calm .locked with pins := ⟨0, true, false, false⟩ } : State).pins.batSense = false
      ∧ Settled (calm .locked) ∧ (calm .locked).sup.state = .bus :=
  ⟨by decide, by decide, by decide, by decide, by decide, by decide, by decide, calm_settled _ _, by decide⟩

/-- A station whose records are loading. -/
def loading : State := { calm .starting with sup := { state := .bus, roster := 2, step := .loading } }

theorem test_meets_LoadingEndBringsTheRecordsIntoForce :
    loading.sup.state ≠ .off ∧ loading.sup.step = .loading ∧ loading.grd.state = .starting ∧ NoStoreUnderWay loading
      ∧ loading.wipe.journal.phase ≠ .ordered
      ∧ (after (.loadingEnd { slot0 := true, slot3 := true, journal := true }) loading).wipe.journal.phase = .ordered :=
  ⟨by decide, by decide, by decide, ⟨rfl, rfl, rfl, rfl, ⟨rfl, rfl⟩, ⟨rfl, rfl⟩, ⟨rfl, rfl⟩⟩, by decide, by decide⟩

/-- That slot 0's store-back is the one begun is the model's choice (log 63). -/
theorem test_destruction_waits_for_one_store_back :
    (after (.loadingEnd { slot0 := true, slot3 := true, journal := true }) loading).cred.busy = some (.slotBack 0)
      ∧ (after (.loadingEnd { slot0 := true, slot3 := true, journal := true }) loading).cred.waiting = [.destroy] := by decide

theorem test_a_failed_serial_is_in_force_until_off :
    (after (.loadingEnd { serial := some 7 }) loading).eng.serial = 7
      ∧ (after (.loadingEnd { serial := some 7 }) loading).nv.serial = records.serial
      ∧ (after .supplyFail { after (.loadingEnd { serial := some 7 }) loading with pins := ⟨0, true, false, false⟩ }).eng.serial
        = records.serial := by decide

theorem test_meets_BusPowerFallLocksAndAbandons :
    (calm .closing).sup.state = .bus ∧ loading.sup.state = .bus ∧ (calm .closing).grd.state = .closing
      ∧ ¬((calm .locked).grd.state = .opened ∨ (calm .locked).grd.state = .admin ∨ (calm .locked).grd.state = .closing)
      ∧ (calm .locked).sup.activity ≠ .dormant := by decide

/-- A wiped station on battery before an extent that is not PUBLIC. -/
def wiped (phase : Phase) (next : Nat) : State :=
  { calm .wiping .battery with
    pins := ⟨0, true, true, true⟩, wipe := { journal := { phase := phase, cause := .policy, nextExtent := next } } }

theorem test_meets_BusPowerRiseWakesAndResumes :
    (wiped .passing 63).sup.state = .battery
      ∧ (wiped .passing 63).pins.busSense = true ∧ (calm .locked .battery).pins.pfw = false
      ∧ (wiped .passing 63).grd.state = .wiping ∧ (wiped .passing 63).wipe.busy = none
      ∧ (wiped .passing 63).wipe.again = none ∧ (wiped .passing 63).wipe.journal.phase = .passing
      ∧ (wiped .passing 63).wipe.erase = .absent ∧ (wiped .passing 63).wipe.journal.nextExtent = (63 : Extent).val
      ∧ (wiped .passing 63).gate.fixedMarks.get (63 : Extent) ≠ .pub ∧ (wiped .passing 63).gate.eraseWaiting = none
      ∧ readyPublic.gate.fixedMarks.get (63 : Extent) = .pub ∧ 64 ≤ (wiped .passing 64).wipe.journal.nextExtent
      ∧ (wiped .keyGone 0).wipe.journal.phase = .keyGone := by decide

/-- A station on battery whose inactivity timer runs. -/
def dozing (a : Activity) : State :=
  { calm .locked .battery with sup := { (calm .locked .battery).sup with activity := a, inactivity := .running 31000 } }

/-- A dormant station, warming up or not. -/
def dormant (warmup : Option Nat) : State :=
  { calm .locked .battery with
    sup := { (calm .locked .battery).sup with activity := .dormant, warmup := warmup }, pins := ⟨keyMask .shift, false, false, true⟩ }

theorem test_meets_InactivityDozesAndWakingRolls :
    Settled (dozing .awake) ∧ (dozing .awake).sup.activity = .awake ∧ Settled (dozing .doze)
      ∧ (dozing .doze).sup.inactivity = .running 31000 ∧ (dozing .doze).sup.activity = .doze
      ∧ Settled (dormant none) ∧ (dormant none).sup.state ≠ .off ∧ (dormant none).sup.activity = .dormant
      ∧ (dormant none).pins.keyLines &&& keyMask .shift ≠ 0
      ∧ Settled (dormant (some 1020)) ∧ (dormant (some 1020)).sup.warmup = some 1020 :=
  ⟨settled_of _ rfl, rfl, settled_of _ rfl, rfl, rfl, settled_of _ rfl, by decide, rfl, by decide, settled_of _ rfl, rfl⟩

/-! ### Keypad -/

/-- A release due at 1020. -/
def released (k : Key) : State :=
  { calm .locked with key := { states := keyMask k, debounce := [(keyNumber k, 1020)], mode := .resetHold } }

theorem test_meets_KeyLinesAndReleasesRunTheSampler :
    Settled (calm .locked) ∧ Settled (released .unlock) ∧ (released .unlock).key.debounceOf .unlock = some 1020
      ∧ (released .unlock).pins.keyLines &&& keyMask .unlock = 0
      ∧ (released .unlock).key.states &&& keyMask .unlock ≠ 0 :=
  ⟨calm_settled _ _, settled_of _ rfl, by decide, by decide, by decide⟩

theorem pressed_settled (g : GuardState) (k : Key) (shift : Bool) (mode : KeypadMode) :
    Settled (pressed g k shift mode) := settled_of _ rfl

/-- A press of SHIFT in a round whose header a CHECK has named, before and after ANSWER. -/
def pressedIn (p : FieldPos) (answered : Bool) : State :=
  { pressed .locked (.digit 0) false with
    line := { view := .round, pos := p }
    eng := { round := some { kind := some .check, answered := answered } } }

theorem test_meets_PressesAreClassifiedAndTaken :
    Settled (pressed .closing (.digit 9) false) ∧ PressDue (pressed .closing (.digit 9) false) (.digit 9) 1020
      ∧ PressFree (pressed .closing (.digit 9) false) ∧ (pressed .closing (.digit 9) false).grd.state = .closing
      ∧ PressDue (pressed .locked .shift false) .shift 1020
      ∧ classify .shift (pressed .locked .shift false).key.states = .modifier
      ∧ Settled (pressedIn (.atMark .fingerprint) true)
      ∧ setsAside (pressedIn (.atMark .fingerprint) true) = false
      ∧ discardsPress (pressedIn (.atMark .fingerprint) true) = true
      ∧ setsAside (pressedIn (.atMark .openers) false) = true
      ∧ setsAside (pressedIn (.inField .answer 0) false) = true :=
  ⟨pressed_settled _ _ _ _, ⟨by decide, by decide, by decide, by decide⟩, ⟨by decide, by decide⟩, rfl,
    ⟨by decide, by decide, by decide, by decide⟩, by decide, settled_of _ rfl, by decide, by decide, by decide, by decide⟩

/-- A press that is due and free, in its classification. -/
theorem press_ready (s : State) (k : Key) (t : Nat)
    (h : (s.key.debounceOf k == some t && s.pins.keyLines &&& keyMask k != 0 && s.key.states &&& keyMask k == 0
      && s.sup.activity != .dormant && !setsAside s && !discardsPress s) = true) :
    PressDue s k t ∧ PressFree s := by
  simp only [Bool.and_eq_true, beq_iff_eq, Bool.not_eq_true', bne_iff_ne, ne_eq] at h
  obtain ⟨⟨⟨⟨⟨h1, h2⟩, h3⟩, h4⟩, h5⟩, h6⟩ := h
  exact ⟨⟨h1, h2, h3, h4⟩, h5, h6⟩

theorem test_meets_EntriesFillAndAreSubmitted :
    (PressDue (pressed .held (.digit 9) false .collecting) (.digit 9) 1020
        ∧ PressFree (pressed .held (.digit 9) false .collecting))
      ∧ classify (.digit 9) (pressed .held (.digit 9) false .collecting).key.states = .digit 9
      ∧ (PressDue (pressed .locked .unlock false) .unlock 1020 ∧ PressFree (pressed .locked .unlock false))
      ∧ classify .unlock (pressed .locked .unlock false).key.states = .unlock
      ∧ Settled (pressed .locked .unlock false) :=
  ⟨press_ready _ _ _ (by decide), by decide, press_ready _ _ _ (by decide), by decide, pressed_settled _ _ _ _⟩

/-- A press in ADMIN or OPEN with a matched slot. -/
def pressedOpen (g : GuardState) (slot : CodeSlotNo) (mustChange : Bool) (d : Digit) : State :=
  { pressed g (.digit d) true with grd := { state := g, matched := some slot, mustChange := mustChange } }

theorem test_meets_ChordsOpenTheirEntries :
    (PressDue (pressedOpen .opened 2 true 1) (.digit 1) 1020 ∧ PressFree (pressedOpen .opened 2 true 1))
      ∧ classify (.digit 1) (pressedOpen .opened 2 true 1).key.states = .chord 1
      ∧ (pressedOpen .opened 2 true 1).grd.matched = some 2 ∧ Settled (pressedOpen .opened 2 true 1)
      ∧ (PressDue (pressedOpen .admin 0 false 9) (.digit 9) 1020 ∧ PressFree (pressedOpen .admin 0 false 9))
      ∧ classify (.digit 9) (pressedOpen .admin 0 false 9).key.states = .chord 9
      ∧ classify (.digit 7) (pressedOpen .admin 0 false 7).key.states = .chord 7
      ∧ (PressDue (pressedOpen .opened 1 true 2) (.digit 2) 1020 ∧ PressFree (pressedOpen .opened 1 true 2))
      ∧ (PressDue (pressed .blank .unlock true) .unlock 1020 ∧ PressFree (pressed .blank .unlock true))
      ∧ classify .unlock (pressed .blank .unlock true).key.states = .chordUnlock
      ∧ (pressed .held .unlock true .collecting).key.mode = .collecting :=
  ⟨press_ready _ _ _ (by decide), by decide, rfl, settled_of _ rfl, press_ready _ _ _ (by decide), by decide, by decide,
    press_ready _ _ _ (by decide), press_ready _ _ _ (by decide), by decide, rfl⟩

/-- A press in ADMIN with a pending command; slots 1 to 3 hold codes. -/
def commanding (k : Key) (shift : Bool) (mode : KeypadMode) (c : PendingCommand) (markLock : Bool := true) : State :=
  { pressed .admin k shift mode with
    key := { (pressed .admin k shift mode).key with command := some c }
    cred := { (calm .admin).cred with
      slots := Vector.replicate 4 ⟨.duress ⟨7, 1⟩, 5⟩, liveStamp := 65534 }
    gate := { (calm .admin).gate with markLockOpen := markLock } }

theorem test_meets_CommandsTakeTheirDigits :
    (PressDue (commanding (.digit 3) false .command ⟨3, []⟩) (.digit 3) 1020
        ∧ PressFree (commanding (.digit 3) false .command ⟨3, []⟩))
      ∧ Settled (commanding (.digit 3) false .command ⟨3, []⟩)
      ∧ classify (.digit 3) (commanding (.digit 3) false .command ⟨3, []⟩).key.states = .digit 3
      ∧ ((commanding (.digit 3) false .command ⟨3, []⟩).cred.slots.get (3 : CodeSlotNo)).contents ≠ .empty
      ∧ (commanding (.digit 3) false .command ⟨3, []⟩).cred.liveStamp ≠ 65535
      ∧ (PressDue (commanding (.digit 4) false .command ⟨9, []⟩) (.digit 4) 1020
        ∧ PressFree (commanding (.digit 4) false .command ⟨9, []⟩))
      ∧ (PressDue (commanding .unlock false .markEntry ⟨6, [6, 3, 2]⟩) .unlock 1020
        ∧ PressFree (commanding .unlock false .markEntry ⟨6, [6, 3, 2]⟩))
      ∧ classify .unlock (commanding .unlock false .markEntry ⟨6, [6, 3, 2]⟩).key.states = .unlock
      ∧ (10 * (6 : Digit).val + (3 : Digit).val < 64 ∧ 64 ≤ 10 * (6 : Digit).val + (4 : Digit).val)
      ∧ (PressDue (commanding (.digit 9) true .command ⟨9, []⟩) (.digit 9) 1020
        ∧ PressFree (commanding (.digit 9) true .command ⟨9, []⟩))
      ∧ classify (.digit 9) (commanding (.digit 9) true .command ⟨9, []⟩).key.states = .chord 9 :=
  ⟨press_ready _ _ _ (by decide), settled_of _ rfl, by decide, by decide, by decide, press_ready _ _ _ (by decide),
    press_ready _ _ _ (by decide), by decide, by decide, press_ready _ _ _ (by decide), by decide⟩

/-- A pressed key in a typing of a new code. -/
def typingNew (k : Key) (shift : Bool) (g : GuardState) (mode : KeypadMode) : State :=
  { pressed g k shift mode with
    key := { (pressed g k shift mode).key with buffer := List.replicate 15 9, target := some (1, .user) } }

theorem test_meets_CommandsTakeTheirDigits_chords :
    classify (.digit 1) (commanding (.digit 1) true .command ⟨3, []⟩).key.states = .chord 1
      ∧ (commanding (.digit 1) true .command ⟨3, []⟩).key.digitFollows = true
      ∧ (PressDue (commanding (.digit 0) true .command ⟨9, []⟩) (.digit 0) 1020
        ∧ PressFree (commanding (.digit 0) true .command ⟨9, []⟩))
      ∧ classify (.digit 0) (commanding (.digit 0) true .command ⟨9, []⟩).key.states = .chord 0
      ∧ (commanding (.digit 0) true .command ⟨9, []⟩).key.digitFollows = false
      ∧ (PressDue (commanding (.digit 8) true .command ⟨9, []⟩) (.digit 8) 1020
        ∧ PressFree (commanding (.digit 8) true .command ⟨9, []⟩))
      ∧ (PressDue (commanding .unlock true .markEntry ⟨6, [6, 3, 2]⟩) .unlock 1020
        ∧ PressFree (commanding .unlock true .markEntry ⟨6, [6, 3, 2]⟩))
      ∧ classify .unlock (commanding .unlock true .markEntry ⟨6, [6, 3, 2]⟩).key.states = .chordUnlock
      ∧ (PressDue (commanding .unlock false .command ⟨3, []⟩) .unlock 1020
        ∧ PressFree (commanding .unlock false .command ⟨3, []⟩))
      ∧ (((calm .admin).cred.slots.get (3 : CodeSlotNo)).contents = .empty ∧ (3 : CodeSlotNo).val = (3 : Digit).val) :=
  ⟨by decide, by decide, press_ready _ _ _ (by decide), by decide, by decide, press_ready _ _ _ (by decide),
    press_ready _ _ _ (by decide), by decide, press_ready _ _ _ (by decide), by decide⟩

theorem test_meets_CommandsTakeTheirDigits_typing :
    (PressDue (typingNew (.digit 9) false .blank .newSecond) (.digit 9) 1020
        ∧ PressFree (typingNew (.digit 9) false .blank .newSecond))
      ∧ Settled (typingNew (.digit 9) false .blank .newSecond)
      ∧ classify (.digit 9) (typingNew (.digit 9) false .blank .newSecond).key.states = .digit 9
      ∧ (PressDue (typingNew .unlock false .opened .newFirst) .unlock 1020
        ∧ PressFree (typingNew .unlock false .opened .newFirst))
      ∧ classify .unlock (typingNew .unlock false .opened .newFirst).key.states = .unlock
      ∧ (PressDue (typingNew (.digit 1) true .admin .newFirst) (.digit 1) 1020
        ∧ PressFree (typingNew (.digit 1) true .admin .newFirst))
      ∧ classify (.digit 1) (typingNew (.digit 1) true .admin .newFirst).key.states = .chord 1
      ∧ (PressDue (typingNew .unlock true .opened .newFirst) .unlock 1020
        ∧ PressFree (typingNew .unlock true .opened .newFirst))
      ∧ classify .unlock (typingNew .unlock true .opened .newFirst).key.states = .chordUnlock :=
  ⟨press_ready _ _ _ (by decide), settled_of _ rfl, by decide, press_ready _ _ _ (by decide), by decide,
    press_ready _ _ _ (by decide), by decide, press_ready _ _ _ (by decide), by decide⟩

/-- A digit pressed with SHIFT still held is the command's; once SHIFT has been released it would be a chord. -/
theorem test_digit_follows_its_chord :
    (after (.keyPress (.digit 1)) (commanding (.digit 1) true .command ⟨5, []⟩)).key.mode = .newFirst
      ∧ (after (.keyPress (.digit 1)) { commanding (.digit 1) true .command ⟨5, []⟩ with
          key := { (commanding (.digit 1) true .command ⟨5, []⟩).key with shiftFreed := true } }).key.mode = .idle := by
  decide

/-- The second typing of a new code of seven digits for slot 0 in BLANK. -/
def secondTyping : State :=
  { pressed .blank .unlock false .newSecond with
    key := { (pressed .blank .unlock false .newSecond).key with
      buffer := [1, 2, 3, 4, 5, 6, 7], firstCode := some ⟨[1, 2, 3, 4, 5, 6, 7], false⟩, target := some (0, .admin) } }

theorem test_meets_TheSecondTypingHoldsTheChangeOrPulses :
    (PressDue secondTyping .unlock 1020 ∧ PressFree secondTyping) ∧ Settled secondTyping
      ∧ classify .unlock secondTyping.key.states = .unlock ∧ secondTyping.grd.state = .blank
      ∧ secondTyping.key.firstCode = some ⟨secondTyping.key.buffer, false⟩
      ∧ secondTyping.key.target = some (0, .admin)
      ∧ (false = true ↔ ∃ i : CodeSlotNo, i ≠ 0 ∧ ∃ code, slotMark (secondTyping.cred.slots.get i).contents = some code
        ∧ secondTyping.key.buffer.length = code.length
        ∧ Config.verifierOf secondTyping.key.buffer = code.verifier) := by
  refine ⟨press_ready _ _ _ (by decide), settled_of _ rfl, by decide, rfl, rfl, rfl, (nomatch ·), ?_⟩
  rintro ⟨i, _, code, h, _⟩
  have empty : ∀ i : CodeSlotNo, slotMark (secondTyping.cred.slots.get i).contents = none := by decide
  rw [empty i] at h
  cases h

theorem test_meets_AdminChordsArmAndToggleTheMarkLock :
    (PressDue (pressedOpen .admin 0 false 8) (.digit 8) 1020 ∧ PressFree (pressedOpen .admin 0 false 8))
      ∧ classify (.digit 8) (pressedOpen .admin 0 false 8).key.states = .chord 8
      ∧ (PressDue (pressedOpen .admin 0 false 4) (.digit 4) 1020 ∧ PressFree (pressedOpen .admin 0 false 4))
      ∧ classify (.digit 4) (pressedOpen .admin 0 false 4).key.states = .chord 4
      ∧ (PressDue (pressedOpen .opened 2 false 2) (.digit 2) 1020 ∧ PressFree (pressedOpen .opened 2 false 2))
      ∧ Settled (pressedOpen .opened 2 false 2) :=
  ⟨press_ready _ _ _ (by decide), by decide, press_ready _ _ _ (by decide), by decide, press_ready _ _ _ (by decide),
    settled_of _ rfl⟩

/-- The three gesture timers run, and an entry and a change are held. -/
def gestures : State :=
  { calm .locked with key := {
      mode := .collecting, entryTimer := some 2000, resetTimer := some 3000, wipeWindow := some 4000
      heldEntry := some ⟨[1, 2, 3, 4, 5, 6, 7], 9, 5000⟩
      heldChange := some ⟨1, .user, 3, [1, 2, 3, 4, 5, 6, 7], 6000⟩ } }

theorem test_meets_GestureTimersAndHeldItemsExpire :
    Settled gestures ∧ gestures.key.entryTimer = some 2000 ∧ gestures.key.wipeWindow = some 4000
      ∧ gestures.key.resetTimer = some 3000 ∧ gestures.key.heldEntry.isSome = true
      ∧ gestures.key.heldChange.isSome = true := ⟨settled_of _ rfl, rfl, rfl, rfl, rfl, rfl⟩

/-! ### Locks and timers -/

/-- A LOCK round's ACCEPT field at an open station. -/
def lockRound : State := tracked .opened (answering .lock 1) (.inField .accept 0) .listener .slot

theorem test_meets_LockCausesLockTheStation :
    (PressDue (pressedOpen .opened 1 true 0) (.digit 0) 1020 ∧ PressFree (pressedOpen .opened 1 true 0))
      ∧ classify (.digit 0) (pressedOpen .opened 1 true 0).key.states = .chord 0
      ∧ (pressedOpen .opened 1 true 0).key.digitFollows = false
      ∧ (pressedOpen .opened 1 true 0).gate.outstanding = []
      ∧ openAdmin.grd.batteryTimer = some 61000 ∧ openAdmin.grd.state = .admin
      ∧ fullGate.grd.state = .admin ∧ fullGate.gate.outstanding ≠ []
      ∧ ((pressedOpen .opened 1 true 0).pol.armed = 0 ∧ openAdmin.pol.armed = 0)
      ∧ InRound lockRound (answering .lock 1) (.inField .accept 0) ∧ (answering .lock 1).part ≠ .rejected :=
  ⟨press_ready _ _ _ (by decide), by decide, by decide, rfl, rfl, rfl, rfl, by decide, ⟨rfl, rfl⟩, ⟨rfl, rfl, rfl⟩, by decide⟩

/-- Every block's timer runs. -/
def timing (g : GuardState) (phase : Phase) : State :=
  { calm g with
    grd := { state := g, pulseTimer := some 1500 }
    tal := { tally := 0, deadline := some 1600, holdOwed := 1 }
    pol := { (calm g).pol with timers := Vector.replicate 4 (some 1700) }
    wipe := { journal := { phase := phase }, progressTimer := some 1800 } }

theorem test_meets_TheBlocksTimersRunOut :
    Settled (timing .held .none) ∧ (timing .held .none).grd.pulseTimer = some 1500
      ∧ (timing .held .none).tal.deadline = some 1600 ∧ (timing .held .none).grd.state = .held
      ∧ (timing .opened .none).grd.state ≠ .held ∧ (timing .held .none).pol.armed = 0
      ∧ (timing .held .none).pol.timers.get (3 : TimerNo) = some 1700
      ∧ (timing .wiping .done).wipe.progressTimer = some 1800 ∧ (timing .wiping .done).wipe.journal.phase = .done :=
  ⟨settled_of _ rfl, rfl, rfl, rfl, by decide, rfl, by decide, rfl, rfl⟩

theorem test_meets_HoldRequestsMoveTheDeadlineLater :
    ((timing .held .none).tal.deadline = some 1600 ∧ (timing .held .none).now + 1000 * 0 ≤ 1600)
      ∧ (∀ d, (timing .held .none).tal.deadline = some d → d < (timing .held .none).now + 1000 * 3600)
      ∧ (timing .held .none).grd.state ≠ .strapFault ∧ (timing .held .none).inCheck = false
      ∧ (tracked .locked (answering .check) (.atMark .hold)).inCheck = true := by
  refine ⟨by decide, ?_, by decide, by decide, by decide⟩
  intro d h
  cases h
  decide

/-- Entry 7 armed, its action one that starts or stops a timer; entry 0 a threshold. -/
def triggered (action : BitVec 3) : State :=
  { calm .locked with pol := {
      table := ⟨false, false, 9, ((Vector.replicate 8 ({} : PolicyEntry)).set 7
        { causeCode := 2, actionCode := action, timer := 3, seconds := 65535 }).set 0 { causeCode := 1, causeArg := 99 }⟩
      armed := 0x81#8 } }

theorem test_meets_FiringsRunArmedEntriesOnce :
    inEntries (triggered 4).pol.armed 7 = true ∧ inEntries (triggered 4).pol.armed 3 = false
      ∧ (entryBehaviour ((triggered 4).entry 7)).2 = .startTimer 3 65535
      ∧ (entryBehaviour ((triggered 5).entry 7)).2 = .stopTimer 3
      ∧ (entryBehaviour ((triggered 7).entry 7)).2 = .snapshot
      ∧ (entryBehaviour ((triggered 2).entry 7)).2 = .lock ∧ (entryBehaviour ((triggered 3).entry 7)).2 = .wipe
      ∧ (entryBehaviour ((triggered 0).entry 7)).2 = .nop
      ∧ actionOf { actionCode := 1, seconds := 3600 } = some (.hold 3600)
      ∧ actionOf { actionCode := 6, seconds := 255 } = some (.pulse 255)
      ∧ (entryBehaviour ((triggered 4).entry 0)).1 = .tallyAtLeast 99 ∧ (98 < 99)
      ∧ (triggered 4).grd.state ≠ .strapFault := by decide

/-- Entry 7 alone armed, with a cause and SNAPSHOT; policy timer 3 runs, and the hold ends at 1600. -/
def oneArmed (g : GuardState) (supply : SupplyState) (causeCode : BitVec 3) (causeArg : BitVec 7) : State :=
  { calm g supply with
    tal := { tally := 0, holdOwed := 1, deadline := some 1600 }
    pol := {
      table := ⟨false, false, 9, (Vector.replicate 8 ({} : PolicyEntry)).set 7
        { causeCode := causeCode, causeArg := causeArg, actionCode := 7 }⟩
      armed := entryBit 7
      timers := Vector.replicate 4 (some 1700) } }

theorem test_meets_FiringsRunArmedEntriesOnce_events :
    entryBehaviour ((oneArmed .held .bus 2 3).entry 7) = (.timer 3, .snapshot)
      ∧ (oneArmed .held .bus 2 3).pol.timers.get (3 : TimerNo) = some 1700
      ∧ (entryBehaviour ((oneArmed .held .bus 6 0).entry 7)).1 = .busFall ∧ (oneArmed .held .bus 6 0).sup.state = .bus
      ∧ (entryBehaviour ((oneArmed .held .battery 5 0).entry 7)).1 = .busRise
      ∧ (oneArmed .held .battery 5 0).sup.state = .battery ∧ (oneArmed .held .battery 5 0).pins.pfw = false
      ∧ (entryBehaviour ((oneArmed .held .bus 3 3).entry 7)).1 = .stateEnter .locked
      ∧ (oneArmed .held .bus 3 3).grd.state = .held ∧ (oneArmed .held .bus 3 3).tal.deadline = some 1600
      ∧ (entryBehaviour ((oneArmed .held .bus 4 0).entry 7)).1 = .peerLost
      ∧ inEntries (oneArmed .held .bus 4 0).pol.last 7 = false := by decide

/-- A round's ACCEPT field at a station whose peer has missed two rounds, with entry 7 alone armed. -/
def losing (r : RoundRec) : State :=
  { oneArmed .locked .bus 4 0 with
    line := { view := .round, pos := .inField .accept 0, offer := .slot }
    eng := { round := some r, absence := (Vector.replicate 8 0).set 1 2 } }

/-- The ROLL that ends STARTING, with the arm-at-start entry 7, and a CLEAR for every station. -/
def starting : State :=
  { tracked .starting (answering .roll) (.inField .accept 0) .listener .slot with
    pol := { table := ⟨false, false, 9, (Vector.replicate 8 ({} : PolicyEntry)).set 7
      { repeats := true, armAtStart := true }⟩ } }

/-- The same ROLL with fault-disarm enabled and the latch set. -/
def latched : State :=
  { starting with pol := { starting.pol with table := { starting.pol.table with faultDisarm := true }, latch := true } }

theorem test_meets_FiringsRunArmedEntriesOnce_latched :
    InRound latched (answering .roll) (.inField .accept 0) ∧ latched.pol.latch = true
      ∧ latched.pol.table.faultDisarm = true ∧ latched.grd.state = .starting
      ∧ takenMap latched.sup (latched.line.offer == .slot) 2 = rosterSet latched.sup.roster
      ∧ (after (.roundEnd 2) latched).pol.armed = 0 ∧ (after (.roundEnd 2) starting).pol.armed = 128 :=
  ⟨⟨rfl, rfl, rfl⟩, by decide, by decide, by decide, by decide, by decide, by decide⟩

theorem test_meets_FiringsRunArmedEntriesOnce_rounds :
    InRound (losing { answering .status 8 with answer := 1 }) { answering .status 8 with answer := 1 } (.inField .accept 0)
      ∧ (∀ j : Fin 8, (losing { answering .status 8 with answer := 1 }).eng.absence.get j < 3)
      ∧ (losing { answering .status 8 with answer := 1 }).eng.absence.get (1 : Fin 8) = 2
      ∧ (1 : Fin 8).val < (losing { answering .status 8 with answer := 1 }).sup.roster
      ∧ (1#8).getLsbD 1 = false
      ∧ InRound starting (answering .roll) (.inField .accept 0) ∧ starting.pol.table.faultDisarm = false
      ∧ takenMap starting.sup (starting.line.offer == .slot) 2 = rosterSet starting.sup.roster
      ∧ starting.pol.latch = false ∧ (starting.entry 7).armAtStart = true
      ∧ InRound (tracked .locked (answering .clear 0xF004#16) (.inField .accept 0)) (answering .clear 0xF004#16)
          (.inField .accept 0)
      ∧ clearTarget (answering .clear 0xF004#16).arg = 15 :=
  ⟨⟨rfl, rfl, rfl⟩, by decide, by decide, by decide, by decide, ⟨rfl, rfl, rfl⟩, rfl, by decide, rfl, by decide,
    ⟨rfl, rfl, rfl⟩, by decide⟩

/-! ### The line and the round engine -/

theorem tracked_settled (g : GuardState) (r : RoundRec) (p : FieldPos) (role : LineRole) (offer : Offer) :
    Settled (tracked g r p role offer) := settled_of _ rfl

theorem tracked_in (g : GuardState) (r : RoundRec) (p : FieldPos) (role : LineRole) (offer : Offer) :
    InRound (tracked g r p role offer) r p := ⟨rfl, rfl, rfl⟩

theorem test_meets_PostedRequestsAreTakenByTheQueue :
    (calm .locked).grd.state ≠ .strapFault ∧ queueFind .check (calm .locked).eng.queue = none
      ∧ queueFind .progress fullCounts.eng.queue = some ⟨.progress, 0, 3, none, false, false⟩
      ∧ queueFind .roll fullCounts.eng.queue = some ⟨.roll, 0, 10, none, true, true⟩ := by decide

/-- The line between rounds. -/
def between (g : GuardState) (v : LineView) (header : Option (RoundKind × Arg)) : State :=
  { calm g with
    line := { view := v, idleTimer := some 1002, header := header }
    eng := { queue := [⟨.lock, 1, 0, some 1500, false, false⟩, ⟨.roll, 0, 0, some 1000, false, false⟩] } }

theorem test_meets_IdleGapsAndLateRounds :
    Settled (between .locked .gap none) ∧ (between .locked .gap none).tracking = true
      ∧ (between .locked .gap none).line.idleTimer = some 1002 ∧ (between .locked .gap none).line.view = .gap
      ∧ ({ between .locked .rejecting none with line := { view := .rejecting, tail := true } } : State).line.idleTimer = none
      ∧ Field.serial ≠ .hold
      ∧ (between .opened .syncing none).line.view = .syncing ∧ (between .opened .syncing none).grd.state = .opened
      ∧ (between .opened .syncing none).pol.armed = 0
      ∧ (between .opened .syncing none).gate.outstanding = [] ∧ (between .closing .syncing none).tracking = true :=
  ⟨settled_of _ rfl, by decide, rfl, rfl, rfl, by decide, rfl, rfl, rfl, rfl, by decide⟩

theorem test_meets_RequestsAreOfferedAndStartsTaken :
    Settled (between .locked .idle none) ∧ QueueInOrder (between .locked .idle none)
      ∧ (between .locked .idle none).tracking = true
      ∧ (∃ r ∈ (between .locked .idle none).eng.queue, r.eligible (between .locked .idle none).now = true
        ∧ ∀ x ∈ (between .locked .idle none).eng.queue, x.eligible (between .locked .idle none).now = true →
          kindCode r.kind ≤ kindCode x.kind)
      ∧ (∃ r ∈ (between .locked .idle none).eng.queue, r.notBefore = some 1500)
      ∧ (between .locked .idle (some (.roll, 0))).line.header = some (.roll, 0)
      ∧ (between .locked .gap none).line.header = none :=
  ⟨settled_of _ rfl, ⟨by decide, by decide⟩, by decide, ⟨⟨.roll, 0, 0, some 1000, false, false⟩, by decide, by decide, by decide⟩,
    ⟨⟨.lock, 1, 0, some 1500, false, false⟩, by decide, rfl⟩, rfl, rfl⟩

theorem test_meets_MarksFixOffersOrTruncate :
    Settled (tracked .opened (answering .check) (.atMark .agree))
      ∧ InRound (tracked .opened (answering .check) (.atMark .agree)) (answering .check) (.atMark .agree)
      ∧ (tracked .opened (answering .check) (.atMark .agree) .opener).line.role = .opener
      ∧ InRound (tracked .locked (answering .roll) (.inField .serial 128)) (answering .roll) (.inField .serial 128)
      ∧ 128 + 64 < fieldWidth .serial ∧ ¬(192 + 64 < fieldWidth .serial)
      ∧ (tracked .opened (answering .check) (.atMark .agree)).line.role ≠ .opener
      ∧ (tracked .opened (answering .check) (.atMark .agree)).line.role ≠ .contender
      ∧ (tracked .opened (answering .check) (.atMark .agree)).grd.state = .opened
      ∧ (tracked .opened (answering .check) (.atMark .agree)).pol.armed = 0 :=
  ⟨tracked_settled _ _ _ _ _, tracked_in _ _ _ _ _, rfl, tracked_in _ _ _ _ _, by decide, by decide, by decide, by decide, rfl,
    rfl⟩

theorem test_meets_MarksFixOffersOrTruncate_plain_marks :
    InRound (tracked .locked (answering .check) (.atMark .fingerprint)) (answering .check) (.atMark .fingerprint)
      ∧ (answering .check).kind ≠ some .setcode
      ∧ InRound (tracked .locked { kind := some .check } (.atMark .verdict)) { kind := some .check } (.atMark .verdict)
      ∧ ({ kind := some .check } : RoundRec).answered = false
      ∧ InRound (tracked .locked (answering .status 1) (.atMark .detail)) (answering .status 1) (.atMark .detail)
      ∧ (answering .status 1).arg.toNat ≠ (tracked .locked (answering .status 1) (.atMark .detail)).sup.stn.toNat :=
  ⟨tracked_in _ _ _ _ _, by decide, tracked_in _ _ _ _ _, rfl, tracked_in _ _ _ _ _, by decide⟩

/-- A station with a round entry and a confirmed change, in a round with a header of its own. -/
def offerer : State :=
  { tracked .locked (answering .check) (.atMark .fingerprint) .contender with
    line := { view := .round, role := .contender, pos := .atMark .arg, header := some (.check, 5) }
    cred := { (calm .locked).cred with
      roundEntry := some [1, 2, 3, 4, 5, 6, 7], roundChange := some ⟨0, .admin, 1, [1, 2, 3, 4, 5, 6, 7], false⟩ } }

theorem test_meets_MarksFixOffersOrTruncate_offers :
    offerer.line.role = .contender ∧ offerer.line.header = some (.check, 5) ∧ (answering .check).answered = true
      ∧ (∃ x, (answering .check 0 [res .agree 3]).result .agree = some x)
      ∧ (answering .check 0 [res .agree 3]).mapOf .agree = (answering .check 0 [res .agree 3]).answer
      ∧ takesVerdict offerer (answering .check 0 [res .agree 3, res .stored 3]) = true
      ∧ takesVerdict offerer (answering .check 0 [res .agree 3, res .stored 1]) = false
      ∧ (∀ i : CodeSlotNo, matchesSlot [1, 2, 3, 4, 5, 6, 7] (offerer.cred.slots.get i).contents = false)
      ∧ (answering .setcode).kind = some .setcode ∧ offerer.cred.roundChange.isSome = true
      ∧ (calm .locked).cred.roundChange = none ∧ ((7 : Nat) < 8 ∧ 32 * 8 ≤ 256 ∧ (asBits 4294967295).toNat < 2 ^ 32) :=
  ⟨rfl, rfl, rfl, ⟨_, rfl⟩, by decide, by decide, by decide, by decide, rfl, rfl, rfl, by decide⟩

theorem test_meets_MarksFixWhatOwnersKeep :
    Settled (tracked .admin (answering .setcode) (.atMark .fingerprint))
      ∧ InRound (tracked .admin (answering .setcode) (.atMark .fingerprint)) (answering .setcode) (.atMark .fingerprint)
      ∧ InRound (tracked .locked (answering .check) (.atMark .verdict)) (answering .check) (.atMark .verdict)
      ∧ InRound (tracked .locked (answering .status 0) (.atMark .detail)) (answering .status 0) (.atMark .detail)
      ∧ (answering .status 0).arg.toNat = (tracked .locked (answering .status 0) (.atMark .detail)).sup.stn.toNat :=
  ⟨tracked_settled _ _ _ _ _, tracked_in _ _ _ _ _, tracked_in _ _ _ _ _, tracked_in _ _ _ _ _, by decide⟩

theorem test_meets_MergedHighFieldsReadTheGreatestOffer :
    convention .tallyHi = .mergedHigh ∧ (∀ v ∈ [0, 127], v ≤ fieldMax .tallyHi)
      ∧ asBits 0 = asBits (([0, 127].map fun v => fieldMax .tallyHi - v).foldl min (fieldMax .tallyHi))
      ∧ asBits 65535 = asBits ((([] : List Nat).map fun v => fieldMax .stampHi - v).foldl min (fieldMax .stampHi)) := by
  decide

/-- A CHECK round in which both stations agreed, a WIPE round. -/
def agreedCheck (tallyHi : Nat) : RoundRec := answering .check 0 [res .agree 3, res .tallyHi tallyHi]

theorem test_meets_CheckAndWipeHoldMarks :
    InRound (tracked .locked (agreedCheck 100) (.atMark .hold)) (agreedCheck 100) (.atMark .hold)
      ∧ (agreedCheck 100).agreed = true ∧ (answering .check 0 [res .agree 1]).agreed = false
      ∧ Settled (tracked .locked (answering .wipe 1) (.atMark .hold))
      ∧ InRound (tracked .locked (answering .wipe 1) (.atMark .hold)) (answering .wipe 1) (.atMark .hold)
      ∧ (tracked .locked (answering .wipe 1) (.atMark .hold)).grd.state ≠ .strapFault
      ∧ (tracked .locked (answering .wipe 1) (.atMark .hold)).wipe.busy = none
      ∧ (tracked .locked (answering .wipe 1) (.atMark .hold)).wipe.again = none :=
  ⟨tracked_in _ _ _ _ _, by decide, by decide, tracked_settled _ _ _ _ _, tracked_in _ _ _ _ _, by decide, rfl, rfl⟩

/-- First setup at its HOLD mark in BLANK, and a USER code at its HOLD mark in ADMIN. -/
def setting (g : GuardState) (c : RoundChange) : State :=
  { tracked g (answering .setcode 0 [res .agree 3]) (.atMark .hold) with
    cred := { (calm g).cred with roundChange := some c, plainKey := if g = .admin then some 7 else none } }

theorem test_meets_TheSetcodeHoldMarkStages :
    Settled (setting .blank ⟨0, .admin, 1, [1, 2, 3, 4, 5, 6, 7], false⟩)
      ∧ InRound (setting .blank ⟨0, .admin, 1, [1, 2, 3, 4, 5, 6, 7], false⟩) (answering .setcode 0 [res .agree 3])
          (.atMark .hold)
      ∧ (answering .setcode 0 [res .agree 3]).agreed = true
      ∧ (answering .setcode 0 [res .agree 3]).droveIn (calm .blank).sup .agree = true
      ∧ (setting .blank ⟨0, .admin, 1, [1, 2, 3, 4, 5, 6, 7], false⟩).grd.state = .blank
      ∧ (setting .blank ⟨0, .admin, 1, [1, 2, 3, 4, 5, 6, 7], false⟩).cred.liveStamp = 0
      ∧ (setting .blank ⟨0, .admin, 1, [1, 2, 3, 4, 5, 6, 7], false⟩).cred.busy = none
      ∧ (setting .blank ⟨0, .admin, 1, [1, 2, 3, 4, 5, 6, 7], false⟩).wipe.journal.phase = .none
      ∧ (setting .admin ⟨1, .user, 2, [1, 2, 3, 4, 5, 6, 8], true⟩).grd.state = .admin
      ∧ (setting .admin ⟨1, .user, 2, [1, 2, 3, 4, 5, 6, 8], true⟩).cred.plainKey = some 7 :=
  ⟨settled_of _ rfl, ⟨rfl, rfl, rfl⟩, by decide, by decide, rfl, rfl, rfl, rfl, rfl, by decide⟩

theorem test_meets_TheSetcodeHoldMarkStages_not :
    (Settled (tracked .blank (answering .setcode 0 [res .agree 3]) (.atMark .hold))
        ∧ InRound (tracked .blank (answering .setcode 0 [res .agree 3]) (.atMark .hold))
          (answering .setcode 0 [res .agree 3]) (.atMark .hold))
      ∧ (tracked .blank (answering .setcode 0 [res .agree 3]) (.atMark .hold)).cred.roundChange = none
      ∧ (answering .setcode 0 [res .agree 1]).agreed = false
      ∧ (answering .setcode 0 [res .agree 2]).droveIn (calm .blank).sup .agree = false
      ∧ (setting .locked ⟨0, .admin, 1, [1, 2, 3, 4, 5, 6, 7], false⟩).grd.state = .locked
      ∧ ((setting .opened ⟨1, .user, 2, [1, 2, 3, 4, 5, 6, 8], false⟩).grd.state = .opened
        ∧ (setting .opened ⟨1, .user, 2, [1, 2, 3, 4, 5, 6, 8], false⟩).cred.plainKey = none) :=
  ⟨⟨tracked_settled _ _ _ _ _, tracked_in _ _ _ _ _⟩, rfl, by decide, by decide, rfl, rfl, rfl⟩

theorem test_meets_SetmarkAndFitHoldMarks :
    Settled (tracked .admin (answering .setmark (setmarkFixed 63 2)) (.atMark .hold))
      ∧ InRound (tracked .admin (answering .setmark (setmarkFixed 63 2)) (.atMark .hold))
          (answering .setmark (setmarkFixed 63 2)) (.atMark .hold)
      ∧ markChangeOf (setmarkFixed 63 2) = some (.fixed 63 .frozen)
      ∧ (tracked .admin (answering .setmark (setmarkFixed 63 2)) (.atMark .hold)).gate.pmBusy = none
      ∧ markChangeOf (setmarkSessionAll .writable) = some (.session none .writable) ∧ markChangeOf 64 = none
      ∧ InRound (tracked .blank (answering .fit 16 [res .item 0]) (.atMark .hold)) (answering .fit 16 [res .item 0])
          (.atMark .hold)
      ∧ fitItemOf 16 (BitVec.ofNat 32 ((answering .fit 16 [res .item 0]).numberOf .item)) ≠ none
      ∧ setmarkFixed 63 2 = (1 : BitVec 1) ++ (0 : BitVec 5) ++ (2 : BitVec 2) ++ (0 : BitVec 1) ++ (63 : BitVec 7)
      ∧ (17 ≤ (17 : Arg).toNat ∧ (31 : Arg).toNat ≤ 31 ∧ 36 ≤ (36 : Arg).toNat) :=
  ⟨tracked_settled _ _ _ _ _, tracked_in _ _ _ _ _, by decide, rfl, by decide, by decide, tracked_in _ _ _ _ _, by decide,
    by decide, by decide⟩

theorem test_meets_HeaderFieldsAreJudged :
    Settled (tracked .opened {} (.inField .kind 0)) ∧ InRound (tracked .opened {} (.inField .kind 0)) {} (.inField .kind 0)
      ∧ ((tracked .opened {} (.inField .kind 0)).grd.state = .opened ∧ (tracked .opened {} (.inField .kind 0)).pol.armed = 0)
      ∧ (tracked .opened {} (.inField .kind 0)).line.role = .listener
      ∧ (tracked .opened {} (.inField .kind 0)).line.offer = .nothing
      ∧ InRound (tracked .locked { kind := some .lock } (.inField .arg 0) .contender (.bits ((4 : Arg).setWidth 256)))
          { kind := some .lock } (.inField .arg 0)
      ∧ ((4 : Arg).toNat ≤ (asBits 4).toNat ∧ (asBits 3).toNat < (4 : Arg).toNat ∧ (asBits 65535).toNat < 65536)
      ∧ InRound (tracked .locked { kind := some .status } (.inField .openers 0)) { kind := some .status } (.inField .openers 0)
      ∧ 0 = takenOpeners (calm .locked).sup false ((asBits 0).setWidth 9)
      ∧ (256 = takenOpeners (calm .locked).sup false ((asBits 256).setWidth 9) ∧ (256 : BitVec 9).getLsbD 8 = true)
      ∧ ((2 = takenOpeners (calm .locked).sup false ((asBits 2).setWidth 9)) ∧ (2 : BitVec 9).getLsbD 8 = false) :=
  ⟨tracked_settled _ _ _ _ _, tracked_in _ _ _ _ _, ⟨rfl, rfl⟩, rfl, rfl, tracked_in _ _ _ _ _, by decide,
    tracked_in _ _ _ _ _, by decide, by decide, by decide⟩

theorem test_meets_HeaderFieldsAreJudged_contenders :
    Settled (tracked .locked {} (.inField .kind 0) .contender (.bits (asBits (kindCode .check))))
      ∧ InRound (tracked .locked {} (.inField .kind 0) .contender (.bits (asBits (kindCode .check)))) {} (.inField .kind 0)
      ∧ (kindCode .check ≤ 4 ∧ kindCode .check ≤ 15 ∧ kindCode .roll < kindCode .check)
      ∧ (({ calm .locked with wipe := { journal := {}, again := some { phase := .ordered } } } : State).wipe.again.isSome = true
        ∧ ({ calm .locked with wipe := { journal := {}, again := some { phase := .ordered } } } : State).wipe.busy = none)
      ∧ InRound (tracked .locked { kind := some .lock } (.inField .arg 0)) { kind := some .lock } (.inField .arg 0)
      ∧ (tracked .locked { kind := some .lock } (.inField .arg 0)).line.role ≠ .contender :=
  ⟨tracked_settled _ _ _ _ _, tracked_in _ _ _ _ _, by decide, ⟨rfl, rfl⟩, tracked_in _ _ _ _ _, by decide⟩

/-- A SETCODE round's ANSWER field at a station that holds the change. -/
def answeringChange : State :=
  { tracked .opened { kind := some .setcode, arg := setcodeArg 1 .user 3 } (.inField .answer 0) .listener .slot with
    key := { heldChange := some ⟨1, .user, 3, [1, 2, 3, 4, 5, 6, 7], 2000⟩ } }

theorem test_meets_AnswerAndBodyFieldsHandOver :
    Settled (tracked .locked { kind := some .check } (.inField .answer 0) .listener .slot)
      ∧ InRound (tracked .locked { kind := some .check } (.inField .answer 0) .listener .slot) { kind := some .check }
          (.inField .answer 0)
      ∧ (tracked .locked { kind := some .check } (.inField .answer 0) .listener .slot).line.offer = .slot
      ∧ nextAfter .answer (fieldsAfterArg .check 0) = some .fingerprint
      ∧ Settled answeringChange
      ∧ answeringChange.key.heldChange = some ⟨1, .user, 3, [1, 2, 3, 4, 5, 6, 7], 2000⟩
      ∧ setcodeArg 1 .user 3 ≠ setcodeArg 1 .user 4
      ∧ (tracked .locked { kind := some .fit, part := .refusing } (.inField .answer 0)).line.offer = .nothing
      ∧ (tracked .locked { kind := some .fit, part := .refusing } (.inField .answer 0)).key.setAside = [] :=
  ⟨tracked_settled _ _ _ _ _, tracked_in _ _ _ _ _, rfl, by decide, settled_of _ rfl, rfl, by decide, rfl, rfl⟩

/-- A station with presses set aside, which does not answer a CHECK round or listens to it. -/
def setAside (p : FieldPos) (keys : List Key) : State :=
  { tracked .locked { kind := some .check } p with
    key := { states := keyMask (.digit 5), setAside := keys } }

theorem test_meets_AnswerAndBodyFieldsHandOver_setAside :
    Settled (setAside (.inField .answer 0) [.digit 5])
      ∧ InRound (setAside (.inField .answer 0) [.digit 5]) { kind := some .check } (.inField .answer 0)
      ∧ (setAside (.inField .answer 0) [.digit 5]).line.offer = .nothing
      ∧ Settled (setAside (.atMark .answer) [.shift, .digit 5])
      ∧ InRound (setAside (.atMark .answer) [.shift, .digit 5]) { kind := some .check } (.atMark .answer)
      ∧ (setAside (.atMark .answer) [.shift, .digit 5]).line.role = .listener
      ∧ (setAside (.atMark .answer) [.shift, .digit 5]).sup.activity = .awake
      ∧ (setAside (.atMark .answer) [.shift, .digit 5]).pol.armed = 0 :=
  ⟨settled_of _ rfl, ⟨rfl, rfl, rfl⟩, rfl, settled_of _ rfl, ⟨rfl, rfl, rfl⟩, rfl, rfl, rfl⟩

/-- The press set aside is taken at the end of ANSWER, and at the rejection. -/
theorem test_set_aside_press_is_taken :
    (after (.fieldEnd 0) (setAside (.inField .answer 0) [.digit 5])).key.buffer = [5]
      ∧ (after (.fieldMark .recessive) (setAside (.atMark .answer) [.digit 5])).key.buffer = [5] := by decide

theorem test_meets_AnswerAndBodyFieldsHandOver_body :
    InRound (tracked .locked (answering .check) (.inField .verdictAgree 0)) (answering .check) (.inField .verdictAgree 0)
      ∧ Field.verdictAgree ∈ bodyFields .check 0 ∧ nextAfter .verdictAgree (fieldsAfterArg .check 0) = some .accept
      ∧ Field.serial ∈ bodyFields .roll 0
      ∧ serialClash (tracked .locked (answering .roll) (.inField .serial 192)) (BitVec.allOnes 256) = false
      ∧ Field.detail ∈ bodyFields .status 7 ∧ metSecondDriver (.bits 1) .detail 0 = true
      ∧ metSecondDriver (.bits 1) .detail 1 = false :=
  ⟨tracked_in _ _ _ _ _, by decide, by decide, by decide, by decide, by decide, by decide, by decide⟩

theorem test_meets_ASerialClashEndsInStrapFault :
    InRound (tracked .locked (answering .roll) (.inField .serial 192)) (answering .roll) (.inField .serial 192)
      ∧ (tracked .locked (answering .roll) (.inField .serial 192)).grd.state ≠ .strapFault
      ∧ (((tracked .locked (answering .roll) (.inField .serial 192)).eng.serial.setWidth 256).getLsbD 31 = true
        ∧ (slotRead 32 0 (asBits 0)).getLsbD 31 = false) :=
  ⟨tracked_in _ _ _ _ _, by decide, by decide⟩

/-- Inside a hold field. -/
def holding : State :=
  { tracked .locked (answering .check) (.inField .hold 0) with
    line := { view := .round, pos := .inField .hold 0, holdTimer := some 1200 } }

theorem test_meets_HoldFieldsAndStuckLinesEnd :
    Settled holding ∧ InRound holding (answering .check) (.inField .hold 0) ∧ holding.line.ownDrive = false
      ∧ holding.grd.state ≠ .strapFault ∧ holding.line.holdTimer = some 1200
      ∧ (tracked .opened {} (.inField .kind 0)).tracking = true ∧ (tracked .opened {} (.inField .kind 0)).line.view ≠ .stuck
      ∧ (tracked .opened {} (.inField .kind 0)).inHold = false
      ∧ ((between .opened .idle none).grd.state = .opened ∧ (between .opened .idle none).pol.armed = 0)
      ∧ (({ tracked .opened {} (.inField .kind 0) with line := { view := .round, stuckTimer := some 1050 } } : State).line.stuckTimer
          ≠ none ∧ (between .opened .idle none).line.view ≠ .round ∧ (between .opened .idle none).tracking = true)
      ∧ Settled (between .locked .stuck none) ∧ (between .locked .stuck none).line.view = .stuck :=
  ⟨settled_of _ rfl, ⟨rfl, rfl, rfl⟩, rfl, by decide, rfl, by decide, by decide, by decide, ⟨rfl, rfl⟩, by decide,
    settled_of _ rfl, rfl⟩

/-! ### Round ends -/

/-- The end of a round at its ACCEPT field. -/
def ending (g : GuardState) (r : RoundRec) : State := tracked g r (.inField .accept 0) .listener .slot

theorem ending_in (g : GuardState) (r : RoundRec) : InRound (ending g r) r (.inField .accept 0) := ⟨rfl, rfl, rfl⟩

/-- A LOCK round that ended COMPLETE, and its request. -/
def endedLock : RoundRec := { answering .lock 1 with accept := 3, cls := some .complete }

theorem test_meets_RoundEndsClassRecordAndRequests :
    endedLock.part ≠ .rejected ∧ endedLock.answered = true ∧ endedLock.accept = rosterSet (calm .locked).sup.roster
      ∧ InRound (ending .locked endedLock) endedLock (.inField .accept 0) ∧ (8 ≤ 8)
      ∧ served (calm .locked).sup endedLock ⟨.lock, 2, 0, none, true, false⟩ = true
      ∧ served (calm .locked).sup endedLock ⟨.check, 2, 0, none, false, false⟩ = false
      ∧ served (calm .locked).sup (answering .lock 1) ⟨.lock, 2, 0, none, true, true⟩ = false
      ∧ served (calm .locked).sup (answering .lock 1) ⟨.lock, 2, 10, none, true, false⟩ = false
      ∧ served (calm .locked).sup (answering .setmark 1) ⟨.setmark, 2, 0, none, true, false⟩ = false :=
  ⟨by decide, rfl, by decide, ending_in _ _, by decide, by decide, by decide, by decide, by decide, by decide⟩

/-- A LOCK round that ends PARTIAL at a station whose LOCK request has had its ten retries. -/
def spentLock : State :=
  { ending .locked (answering .lock 1) with
    eng := { round := some (answering .lock 1), queue := [⟨.lock, 1, 10, none, true, false⟩, ⟨.roll, 0, 0, none, false, false⟩] } }

theorem test_meets_RoundEndsClassRecordAndRequests_queue :
    InRound spentLock (answering .lock 1) (.inField .accept 0) ∧ QueueInOrder spentLock ∧ spentLock.pol.armed = 0
      ∧ spentLock.grd.state ≠ .starting ∧ (RoundKind.wipe = .wipe → (answering .lock 1).kind ≠ some .check)
      ∧ spentLock.key.heldEntry = none ∧ spentLock.key.heldChange = none ∧ FlightIsTheRounds spentLock
      ∧ (∃ y ∈ spentLock.eng.queue, y.inFlight = true ∧ y.replaced = false ∧ 10 ≤ y.retries ∧ y.kind = .lock
        ∧ served spentLock.sup { answering .lock 1 with accept := 1, cls := some .partial_ } y = false) :=
  ⟨⟨rfl, rfl, rfl⟩, ⟨by decide, by decide⟩, rfl, by decide, by decide, rfl, rfl,
    flight_in_round _ (answering .lock 1) (.inField .accept 0) ⟨rfl, rfl, rfl⟩ (by intro b h; cases h) (by decide) (by decide),
    ⟨⟨.lock, 1, 10, none, true, false⟩, by decide, by decide⟩⟩

/-- A round of a kind at a mark, in which this station listens. -/
def listening (g : GuardState) (r : RoundRec) : State := tracked g r (.atMark .stored)

theorem test_meets_RoundEndsClassRecordAndRequests_void :
    InRound (listening .held { answering .check with made := true, holdEnded := true })
        { answering .check with made := true, holdEnded := true } (.atMark .stored)
      ∧ (listening .held (answering .check)).line.role ≠ .opener ∧ (listening .held (answering .check)).line.role ≠ .contender
      ∧ (answering .check).part ≠ .refusing ∧ (answering .check).disagreed = false
      ∧ (answering .check 0 [res .agree 1]).disagreed = true ∧ (listening .held (answering .check)).grd.state = .held
      ∧ (setmarkSessionAll .readOnly).getLsbD 15 = false ∧ (setmarkFixed 63 2).getLsbD 15 = true
      ∧ (listening .admin (answering .setmark)).gate.pmBusy = none ∧ (listening .admin (answering .setmark)).gate.pmWaiting = []
      ∧ ({ part := .refusing } : RoundRec).answered = false :=
  ⟨⟨rfl, rfl, rfl⟩, by decide, by decide, by decide, by decide, by decide, rfl, by decide, by decide, rfl, rfl, rfl⟩

/-- A ROLL round with what its peers hold. -/
def rolled : RoundRec :=
  answering .roll 0 [res .tallyHi 127, res .wipeAny 2, res .policyLo 4, res .policyHi 5]

/-- A stored pending change stamped 5. -/
def change : PendingChange := ⟨1, .duress ⟨7, 1⟩, 5, true⟩

/-- A ROLL round that reads these greatest and least live stamps. -/
def stamped (high low : Nat) : RoundRec := answering .roll 0 [res .stampHi high, res .stampLo low]

/-- A station at live stamp 4 that holds it, at the end of a ROLL. -/
def behind (r : RoundRec) : State :=
  { ending .blank r with
    cred := { (calm .blank).cred with liveStamp := 4, pendingSlot := some change }, grd := { state := .blank, matched := some 1 } }

theorem test_meets_ARollBringsStationsTogether :
    InRound (ending .locked rolled) rolled (.inField .accept 0) ∧ rolled.part ≠ .rejected ∧ rolled.answered = true
      ∧ rolled.numberOf .policyLo ≠ rolled.numberOf .policyHi ∧ rolled.mapOf .wipeAny ≠ 0
      ∧ (ending .locked rolled).wipe.journal.phase = .none ∧ (ending .locked rolled).wipe.orderPending = none
      ∧ (ending .locked rolled).wipe.busy = none ∧ (wiped .ordered 0).wipe.journal.phase ≠ .none
      ∧ InRound (behind (stamped 5 4)) (stamped 5 4) (.inField .accept 0) ∧ (stamped 5 4).mapOf .wipeAny = 0
      ∧ (behind (stamped 5 4)).wipe.journal.phase = .none ∧ (behind (stamped 5 4)).grd.state ≠ .strapFault
      ∧ (behind (stamped 5 4)).cred.pendingSlot = some change ∧ change.stored = true
      ∧ (stamped 4 4).numberOf .stampHi < change.stamp.toNat
      ∧ ((stamped 5 4).numberOf .stampLo < (stamped 5 4).numberOf .stampHi
        ∧ (behind (stamped 5 4)).cred.liveStamp.toNat = (stamped 5 4).numberOf .stampLo
        ∧ change.stamp.toNat = (stamped 5 4).numberOf .stampHi)
      ∧ (change.stamp.toNat ≤ (stamped 6 4).numberOf .stampHi ∧ change.stamp.toNat ≠ (stamped 6 4).numberOf .stampHi)
      ∧ (behind (stamped 5 4)).grd.matched = some change.target ∧ (calm .blank).cred.pendingSlot = none
      ∧ (behind (stamped 5 4)).grd.state = .blank ∧ (behind (stamped 5 4)).pol.armed = 0
      ∧ (behind (stamped 5 4)).grd.holdDue = false :=
  ⟨ending_in _ _, by decide, rfl, by decide, by decide, rfl, rfl, rfl, by decide, ⟨rfl, rfl, rfl⟩, by decide, rfl, by decide, rfl,
    rfl, by decide, by decide, by decide, rfl, rfl, rfl, rfl, rfl⟩

/-- STARTING at the end of a ROLL, with a PARTIAL ROLL count. -/
def startingRoll (count : Nat) : State :=
  { ending .starting (answering .roll) with eng := { round := some (answering .roll), rollCount := count } }

/-- The same with a journal loaded, no store of it under way. -/
def startingWipe (phase : Phase) (next : Nat) : State :=
  { startingRoll 19 with wipe := { journal := { phase := phase, cause := .policy, nextExtent := next } } }

theorem test_meets_StartingEndsByTheFirstConditionThatHolds_wipe :
    InRound (startingWipe .passing 63) (answering .roll) (.inField .accept 0)
      ∧ (startingWipe .passing 63).grd.state = .starting ∧ (startingWipe .passing 63).wipe.busy = none
      ∧ (startingWipe .passing 63).wipe.again = none ∧ (startingWipe .passing 63).wipe.erase = .absent
      ∧ (startingWipe .passing 63).gate.eraseWaiting = none ∧ (startingWipe .passing 63).sup.state = .bus
      ∧ (startingWipe .passing 63).wipe.journal.phase = .passing ∧ (startingWipe .keyGone 0).wipe.journal.phase = .keyGone
      ∧ (startingWipe .done 64).wipe.journal.phase = .done ∧ (wiped .keyGone 0).sup.state ≠ .bus
      ∧ queueFind .progress (startingWipe .done 64).eng.queue = none :=
  ⟨⟨rfl, rfl, rfl⟩, rfl, rfl, rfl, rfl, rfl, rfl, rfl, rfl, rfl, by decide, rfl⟩

theorem test_meets_StartingEndsByTheFirstConditionThatHolds :
    InRound (startingRoll 19) (answering .roll) (.inField .accept 0) ∧ (answering .roll).part ≠ .rejected
      ∧ (startingRoll 19).grd.state = .starting
      ∧ takenMap (startingRoll 19).sup ((startingRoll 19).line.offer == .slot) 2 = rosterSet (startingRoll 19).sup.roster
      ∧ takenMap (startingRoll 19).sup ((startingRoll 19).line.offer == .slot) 0 ≠ rosterSet (startingRoll 19).sup.roster
      ∧ (startingRoll 19).eng.rollCount + 1 = 20 ∧ (startingRoll 18).eng.rollCount + 1 ≠ 20
      ∧ (startingRoll 19).wipe.journal.phase = .none ∧ (startingRoll 19).wipe.orderPending = none
      ∧ (answering .roll).mapOf .wipeAny = 0
      ∧ (∀ i : CodeSlotNo, ((startingRoll 19).cred.slots.get i).contents = .empty) :=
  ⟨⟨rfl, rfl, rfl⟩, by decide, rfl, by decide, by decide, rfl, by decide, rfl, rfl, rfl, by decide⟩

/-- A CHECK round at its end with its maps and verdict. -/
def checked (agree verdictAgree verdict : Nat) (took : Bool) : RoundRec :=
  { answering .check 0 [res .agree agree, res .verdict verdict, res .verdictAgree verdictAgree] with tookVerdict := took }

theorem test_meets_ChecksWithoutAMatchAreHeld :
    (checked 1 3 7 true).result .agree = some (res .agree 1)
      ∧ (checked 1 3 7 true).mapOf .agree ≠ (checked 1 3 7 true).answer
      ∧ (checked 3 3 7 true).mapOf .agree = (checked 3 3 7 true).answer
      ∧ (checked 3 1 7 true).mapOf .verdictAgree ≠ (checked 3 1 7 true).answer
      ∧ (checked 3 3 7 true).mapOf .verdictAgree = (checked 3 3 7 true).answer
      ∧ (checked 3 3 7 true).numberOf .verdict = 7 ∧ (checked 3 3 3 true).numberOf .verdict = (3 : CodeSlotNo).val
      ∧ InRound (ending .locked (checked 3 3 7 true)) (checked 3 3 7 true) (.inField .accept 0)
      ∧ .noMatch = checkOutcome { checked 3 3 7 true with accept := 3 } .complete
      ∧ .incomplete = checkOutcome { checked 3 3 7 false with accept := 3 } .complete
      ∧ .splitEntry = checkOutcome { checked 1 3 7 false with accept := 3 } .complete
      ∧ .verdictSplit = checkOutcome { checked 3 1 7 true with accept := 3 } .partial_
      ∧ (ending .locked (checked 3 3 7 true)).pol.armed = 0 ∧ (ending .locked (checked 3 3 7 true)).grd.holdDue = false
      ∧ (ending .held (checked 3 3 7 true)).grd.state = .held :=
  ⟨by decide, by decide, by decide, by decide, by decide, by decide, by decide, ending_in _ _, by decide, by decide, by decide,
    by decide, rfl, rfl, rfl⟩

theorem test_meets_AMatchOpensTheStation :
    InRound (ending .locked (checked 3 3 0 true)) (checked 3 3 0 true) (.inField .accept 0)
      ∧ checkOutcome { checked 3 3 0 true with accept := 3 }
          (classifyRound (calm .locked).sup { checked 3 3 0 true with accept := 3 }) = .matched 0
      ∧ checkOutcome { checked 3 3 3 true with accept := 3 } .complete = .matched 3
      ∧ takenMap (calm .locked).sup true 2 = 3 ∧ (checked 3 3 0 true).droveIn (calm .locked).sup .agree = true
      ∧ (ending .locked (checked 3 3 0 true)).grd.state = .locked ∧ (ending .locked (checked 3 3 0 true)).pol.armed = 0
      ∧ ¬((checked 3 3 0 true).droveIn (calm .locked).sup .agree = true
          ∧ (ending .held (checked 3 3 0 true)).grd.state = .locked)
      ∧ FlightIsTheRounds (ending .locked (checked 3 3 3 true))
      ∧ queueFind .wipe (ending .locked (checked 3 3 3 true)).eng.queue = none :=
  ⟨ending_in _ _, by decide, by decide, by decide, by decide, rfl, rfl, by decide,
    flight_in_round _ _ _ (ending_in _ _) (by intro b h; cases h) (by decide) (by decide), by decide⟩

/-- First setup, and a new code of the matched slot, at the end of their SETCODE rounds. -/
def promoting (g : GuardState) (p : PendingChange) : State :=
  { ending g { answering .setcode (setcodeArg p.target (slotRole p.contents) p.stamp) [res .stored 3] with staged := true } with
    grd := { state := g, matched := some 1 }
    cred := { (calm g).cred with pendingSlot := some p, genKey := some 7 } }

/-- The staged slots. -/
def setupChange : PendingChange := ⟨0, .admin ⟨7, 1⟩ ⟨7, ⟨7, 1⟩⟩, 1, true⟩
def userChange : PendingChange := ⟨1, .user ⟨7, 1⟩ ⟨7, ⟨7, 1⟩⟩ false, 65535, true⟩

theorem test_meets_SetcodePromotesWhatAllStored :
    InRound (promoting .blank setupChange)
        { answering .setcode (setcodeArg 0 .admin 1) [res .stored 3] with staged := true } (.inField .accept 0)
      ∧ (promoting .blank setupChange).cred.pendingSlot = some setupChange ∧ setupChange.stored = true
      ∧ takenMap (promoting .blank setupChange).sup ((promoting .blank setupChange).line.offer == .slot) 2
          = rosterSet (promoting .blank setupChange).sup.roster
      ∧ (answering .setcode (setcodeArg 0 .admin 1) [res .stored 3]).mapOf .stored = rosterSet 2
      ∧ (promoting .blank setupChange).wipe.journal.phase = .none ∧ setupChange.target = 0
      ∧ (promoting .blank setupChange).pol.armed = 0
      ∧ (promoting .opened userChange).grd.matched = some userChange.target
      ∧ takenMap (promoting .blank setupChange).sup ((promoting .blank setupChange).line.offer == .slot) 0
          ≠ rosterSet (promoting .blank setupChange).sup.roster
      ∧ (answering .setcode 0 [res .stored 1]).mapOf .stored ≠ rosterSet 2
      ∧ setcodeArg userChange.target (slotRole userChange.contents) userChange.stamp ≠ setcodeArg 0 .admin 1 :=
  ⟨⟨rfl, rfl, rfl⟩, rfl, rfl, by decide, by decide, rfl, rfl, rfl, rfl, by decide, by decide, by decide⟩

/-- A staged SETMARK or FIT at its end. -/
def staged (k : RoundKind) (arg : Arg) (stored : Nat) : RoundRec :=
  { answering k arg [res .stored stored] with staged := true }

/-- A station in ADMIN with a session change, a pending mark and an item staged. -/
def stagedAt (r : RoundRec) : State :=
  { ending .admin r with
    gate := { (calm .admin).gate with
      staging := some ⟨some 63, .readOnly, 0b0000000100111111#16⟩
      pendingMark := some ⟨63, .frozen, setmarkFixed 63 2, true⟩ }
    stat := { flags := 0, fit := some (35, 0) } }

theorem test_meets_SetmarkAndFitApplyWhatWasStaged :
    InRound (stagedAt (staged .setmark 0b0000000100111111#16 3)) (staged .setmark 0b0000000100111111#16 3) (.inField .accept 0)
      ∧ (staged .setmark 0b0000000100111111#16 3).arg.getLsbD 15 = false ∧ (setmarkFixed 63 2).getLsbD 15 = true
      ∧ (stagedAt (staged .setmark (setmarkFixed 63 2) 3)).gate.pmBusy = none
      ∧ (stagedAt (staged .setmark (setmarkFixed 63 2) 3)).gate.pmWaiting = []
      ∧ InRound (stagedAt (staged .fit 35 3)) (staged .fit 35 3) (.inField .accept 0)
      ∧ (stagedAt (staged .fit 35 3)).stat.fit = some (35, 0) ∧ fitItemOf 35 0 = some (.marks 3 0)
      ∧ (staged .fit 35 3).mapOf .stored = rosterSet (stagedAt (staged .fit 35 3)).sup.roster
      ∧ ¬((2 : BitVec 32).getLsbD (31 - 2 * ((63 : Extent).val % 16)) = true
        ∧ (2 : BitVec 32).getLsbD (30 - 2 * ((63 : Extent).val % 16)) = true) :=
  ⟨⟨rfl, rfl, rfl⟩, by decide, by decide, rfl, rfl, ⟨rfl, rfl, rfl⟩, rfl, by decide, by decide, by decide⟩

/-- PROGRESS at its end in WIPING. -/
def progressed (done : Nat) : RoundRec := answering .progress 0 [res .done done, res .badHi 64]

theorem test_meets_AFullProgressEndsTheWipe :
    InRound (ending .wiping (progressed 3)) (progressed 3) (.inField .accept 0) ∧ (progressed 3).part ≠ .rejected
      ∧ true = (takenMap (ending .wiping (progressed 3)).sup ((ending .wiping (progressed 3)).line.offer == .slot) 2
          == rosterSet (ending .wiping (progressed 3)).sup.roster
        && (progressed 3).mapOf .done == rosterSet (ending .wiping (progressed 3)).sup.roster)
      ∧ false = (takenMap (ending .wiping (progressed 1)).sup ((ending .wiping (progressed 1)).line.offer == .slot) 2
          == rosterSet (ending .wiping (progressed 1)).sup.roster
        && (progressed 1).mapOf .done == rosterSet (ending .wiping (progressed 1)).sup.roster)
      ∧ 0 < (progressed 3).numberOf .badHi ∧ (ending .wiping (progressed 3)).wipe.busy = none
      ∧ (ending .wiping (progressed 3)).wipe.again = none ∧ (ending .wiping (progressed 3)).pol.armed = 0 :=
  ⟨ending_in _ _, by decide, by decide, by decide, by decide, rfl, rfl, rfl⟩

theorem test_meets_StatusReportsAndClearClears :
    InRound (ending .locked (answering .clear 0xF004#16)) (answering .clear 0xF004#16) (.inField .accept 0)
      ∧ (answering .clear 0xF004#16).part ≠ .rejected ∧ (ending .locked (answering .clear 0xF004#16)).eng.queue = []
      ∧ (∀ i : Fin 8, (ending .locked (answering .clear 0xF004#16)).eng.absence.get i ≠ 2)
      ∧ clearTarget (answering .clear 0xF004#16).arg = 15
      ∧ (answering .clear 0xF004#16).arg.getLsbD Flag.storeFail.bit = true
      ∧ InRound (ending .locked (answering .status 8)) (answering .status 8) (.inField .accept 0) :=
  ⟨ending_in _ _, by decide, by decide, by decide, by decide, by decide, ending_in _ _⟩

/-! ### Stores -/

/-- A station that holds the line for a store. -/
def heldFor (k : RoundKind) : State :=
  { tracked .locked (answering k) (.inField .hold 0) with
    line := { view := .round, pos := .inField .hold 0, ownDrive := true }
    tal := { tally := 5, holdOwed := 0, tallyStore := { busy := some 5 } }
    cred := { (calm .locked).cred with busy := some (.stage { change with stored := false }) }
    gate := { (calm .locked).gate with pmBusy := some (.stage ⟨63, .pub, 3, false⟩ false) }
    wipe := { journal := {}, busy := some { phase := .ordered, cause := .policy }, orderPending := some .policy } }

/-- The same once the line is released. -/
def lateFor (k : RoundKind) : State := { heldFor k with line := holding.line }

/-- A station that holds the line for a staging behind an older one, once a destruction has dropped it. -/
def stagingDropped : State :=
  ({ heldFor .setcode with cred := { (heldFor .setcode).cred with waiting := [.stage change] } }).askDestruction

theorem test_meets_HeldStoresCountWhenMadeInTheField_dropped :
    Settled stagingDropped ∧ InRound stagingDropped (answering .setcode) (.inField .hold 0)
      ∧ stagingDropped.cred.stagingDropped = true ∧ stagingDropped.cred.busy ≠ none ∧ stagingDropped.line.ownDrive = true :=
  ⟨settled_of _ rfl, ⟨rfl, rfl, rfl⟩, by decide, by decide, rfl⟩

/-- The older staging ends as its owner's own, and the line is held on (R80; log 52). -/
theorem test_dropped_staging_is_not_made :
    (after (.credentialStoreEnded true) stagingDropped).line.ownDrive = true
      ∧ (after (.credentialStoreEnded true) stagingDropped).cred.busy = some .destroy
      ∧ heldStore stagingDropped = none := by decide

theorem test_meets_HeldStoresCountWhenMadeInTheField :
    InRound (heldFor .check) (answering .check) (.inField .hold 0) ∧ heldStore (heldFor .check) = some .tally
      ∧ heldStore (heldFor .setcode) = some .credential ∧ heldStore (heldFor .setmark) = some .pendingMark
      ∧ heldStore (heldFor .wipe) = some .journal ∧ (heldFor .setcode).cred.waiting = []
      ∧ InRound (lateFor .check) (answering .check) (.inField .hold 0) ∧ heldStore (lateFor .check) = none
      ∧ (lateFor .check).tal.tallyStore.busy = some 5
      ∧ (lateFor .check).cred.busy = some (.stage { change with stored := false })
      ∧ (lateFor .check).gate.pmBusy = some (.stage ⟨63, .pub, 3, false⟩ false) ∧ (lateFor .check).gate.pmWaiting = []
      ∧ (lateFor .check).wipe.busy = some { phase := .ordered, cause := .policy }
      ∧ (lateFor .check).wipe.journal.phase ≠ .ordered :=
  ⟨⟨rfl, rfl, rfl⟩, by decide, by decide, by decide, by decide, rfl, ⟨rfl, rfl, rfl⟩, by decide, rfl, rfl, rfl, rfl, rfl, by decide⟩

/-- A journal store in progress. -/
def journaling (g : GuardState) (before : Phase) (j : Journal) : State :=
  { calm g with wipe := { journal := { phase := before, cause := .policy }, busy := some j } }

theorem test_meets_AnOrderInForceWipes :
    heldStore (journaling .opened .none { phase := .ordered }) ≠ some .journal
      ∧ (journaling .opened .none { phase := .ordered }).wipe.journal.phase ≠ .ordered
      ∧ (journaling .opened .none { phase := .ordered }).grd.state ≠ .strapFault
      ∧ (journaling .opened .none { phase := .ordered }).cred.busy = none
      ∧ (heldFor .setcode).cred.busy ≠ none ∧ (heldFor .setcode).cred.busy ≠ some .destroy := by decide

theorem test_meets_MadeJournalStoresDriveThePass :
    heldStore (journaling .wiping .passing { phase := .passing, nextExtent := 63 }) ≠ some .journal
      ∧ (journaling .wiping .passing { phase := .passing, nextExtent := 63 }).wipe.waiting = none
      ∧ (journaling .wiping .passing { phase := .passing, nextExtent := 63 }).wipe.again = none
      ∧ (journaling .wiping .passing { phase := .passing, nextExtent := 63 }).wipe.erase = .absent
      ∧ (journaling .wiping .passing { phase := .passing, nextExtent := 63 }).gate.eraseWaiting = none
      ∧ (journaling .wiping .passing { phase := .passing, nextExtent := 63 }).sup.state = .bus
      ∧ (journaling .wiping .passing { phase := .passing, nextExtent := 63 }).gate.fixedMarks.get (63 : Extent) ≠ .pub
      ∧ readyPublic.gate.fixedMarks.get (63 : Extent) = .pub ∧ (64 ≤ 64)
      ∧ (journaling .wiping .passing { phase := .done }).wipe.journal.phase ≠ .done := by decide

/-- A table store in progress. -/
def crediting (j : CredJob) : State :=
  { calm .wiping with
    cred := { (calm .wiping).cred with busy := some j }, wipe := { journal := { phase := .ordered, cause := .policy } } }

/-- A NONE store in progress that an order waits to supersede. -/
def superseded : State :=
  { calm .blank with wipe := { journal := {}, busy := some {}, waiting := some { phase := .ordered } } }

theorem test_meets_JournalAndCredentialStoresEnd :
    (Settled (journaling .wiping .ordered { phase := .keyGone }) ∧ Settled (crediting .destroy))
      ∧ (heldStore (journaling .wiping .ordered { phase := .keyGone }) ≠ some .journal
        ∧ (journaling .wiping .ordered { phase := .keyGone }).wipe.busy = some { phase := .keyGone })
      ∧ superseded.wipe.busy = some {} ∧ ({} : Journal).phase = .none
      ∧ superseded.wipe.waiting = some { phase := .ordered }
      ∧ (lateFor .wipe).eng.round ≠ none ∧ heldStore (lateFor .wipe) ≠ some .journal
      ∧ (crediting .destroy).wipe.again = none
      ∧ (journaling .wiping .ordered { phase := .keyGone }).wipe.waiting = none
      ∧ (journaling .wiping .ordered { phase := .keyGone }).grd.state ≠ .strapFault
      ∧ (crediting .destroy).cred.busy = some .destroy ∧ (crediting .destroy).cred.waiting = []
      ∧ (crediting .destroy).wipe.journal.phase = .ordered ∧ (crediting .destroy).wipe.busy = none
      ∧ heldStore (crediting (.promote userChange)) ≠ some .credential
      ∧ (crediting (.promote userChange)).cred.busy = some (.promote userChange)
      ∧ (crediting (.stage userChange)).cred.busy = some (.stage userChange) :=
  ⟨⟨settled_of _ rfl, settled_of _ rfl⟩, by decide, rfl, rfl, rfl, by decide, by decide, by decide, by decide, by decide, by decide,
    by decide, by decide, by decide, by decide, by decide, by decide⟩

/-- Every one-record store in progress. -/
def storing (pm : PendingMarkJob) : State :=
  { calm .locked with
    tal := { tally := 99, tallyStore := { busy := some 99 }, holdOwed := 3600, owedStore := { busy := some 3600 } }
    stat := { flags := 4, store := { busy := some 4 } }
    gate := { (calm .locked).gate with
      markStore := { busy := some ⟨Vector.replicate 64 .normal, true⟩ }, pmBusy := some pm }
    pol := { table := (calm .locked).pol.table, store := { busy := some (calm .locked).pol.table } } }

theorem test_meets_HeldStoresCountWhenMadeInTheField_after :
    (calm .locked).eng.round = none
      ∧ (heldStore (storing (.stage ⟨63, .pub, 3, false⟩ false)) ≠ some .pendingMark
        ∧ (storing (.stage ⟨63, .pub, 3, false⟩ false)).gate.pmBusy = some (.stage ⟨63, .pub, 3, false⟩ false)
        ∧ (storing (.stage ⟨63, .pub, 3, false⟩ false)).gate.pmWaiting = [])
      ∧ heldStore (crediting (.stage change)) ≠ some .credential
      ∧ (heldStore (storing .empty) ≠ some .tally ∧ (storing .empty).tal.tallyStore.busy = some 99)
      ∧ (heldStore (journaling .opened .none { phase := .ordered }) ≠ some .journal
        ∧ (heldFor .wipe).grd.state ≠ .strapFault ∧ (heldFor .setcode).gate.pmWaiting = []) := by decide

theorem test_meets_TallyHoldAndFlagStoresEnd :
    Settled (storing .empty) ∧ (storing .empty).grd.state ≠ .strapFault
      ∧ (storing .empty).tal.tallyStore.busy = some 99 ∧ heldStore (storing .empty) ≠ some .tally
      ∧ (storing .empty).tal.owedStore.busy = some 3600 ∧ (storing .empty).stat.store.busy = some 4
      ∧ ((lateFor .check).inHold = true ∧ (lateFor .check).tal.tallyStore.waiting = none
        ∧ fullCounts.tal.tallyStore.waiting = some 0 ∧ (lateFor .check).tal.owedStore.waiting = none
        ∧ fullCounts.tal.owedStore.waiting = some 0) :=
  ⟨settled_of _ rfl, by decide, rfl, by decide, rfl, rfl, by decide⟩

theorem test_meets_MarkPolicyAndPendingMarkStoresEnd :
    Settled (storing .empty) ∧ (storing .empty).gate.markStore.busy = some ⟨Vector.replicate 64 .normal, true⟩
      ∧ (storing .empty).pol.store.busy = some (calm .locked).pol.table
      ∧ heldStore (storing .empty) ≠ some .pendingMark ∧ (storing .empty).gate.pmWaiting = []
      ∧ (storing .empty).gate.pmBusy = some .empty
      ∧ (storing (.stage ⟨63, .pub, 3, false⟩ true)).gate.pmBusy = some (.stage ⟨63, .pub, 3, false⟩ true) :=
  ⟨settled_of _ rfl, rfl, rfl, by decide, rfl, rfl, rfl⟩

/-! ### The bank gate -/

theorem test_meets_TheGateDecidesByItsTable :
    Settled (calm .opened) ∧ (calm .opened).sup.state ≠ .off ∧ (calm .opened).gate.presented = none
      ∧ gateDecision (calm .opened) ⟨.write, 63, 0⟩ = .forward
      ∧ gateDecision (calm .closing) ⟨.read, 0, 0⟩ = .refuse .locked ∧ (calm .opened).sup.step ≠ .loading :=
  ⟨calm_settled _ _, by decide, rfl, by decide, by decide, by decide⟩

/-- A request that waits for the port. -/
def waiting : State :=
  { calm .opened with gate := { (calm .opened).gate with presented := some ⟨.read, 63, 0⟩, eraseWaiting := some 3, yieldCount := 8 } }

theorem test_meets_OneRequestAndTheYieldRule :
    Settled waiting ∧ waiting.gate.presented = some ⟨.read, 63, 0⟩ ∧ waiting.sup.state = .bus
      ∧ waiting.sup.step ≠ .loading ∧ waiting.grd.state ≠ .strapFault ∧ Settled (calm .opened) := by
  refine ⟨⟨rfl, ?_, ?_, ?_⟩, rfl, rfl, by decide, by decide, calm_settled _ _⟩
  · intro r h
    cases h
    decide
  · intro h
    exact absurd h (by decide)
  · rintro ⟨_, h, _⟩
    exact absurd h (by decide)

/-- The last outstanding request in CLOSING, and an erase at its third attempt. -/
def completing : State :=
  { calm .closing with
    gate := { (calm .closing).gate with outstanding := [⟨.write, 63, 0⟩] }
    wipe := { journal := { phase := .passing, cause := .policy, nextExtent := 63, attempts := 2 }, erase := .issued } }

theorem test_meets_CompletionsReachWhatTheyComplete :
    Settled completing ∧ completing.gate.outstanding = ⟨.write, 63, 0⟩ :: [] ∧ completing.gate.portReady = false
      ∧ completing.grd.state = .closing ∧ completing.wipe.erase = .issued ∧ completing.wipe.busy = none
      ∧ completing.wipe.again = none ∧ completing.wipe.journal.attempts = 2 ∧ (calm .locked).gate.outstanding = []
      ∧ (wiped .passing 0).wipe.journal.attempts < 2 ∧ (calm .locked).wipe.erase ≠ .issued :=
  ⟨settled_of _ rfl, rfl, rfl, rfl, rfl, rfl, rfl, rfl, rfl, by decide, by decide⟩

end Sys2Proof.Tests
end

section
/-! PROOF. The indicator lines: what a station that is off, dozing or dormant releases, and what an awake one pulls
on each line (R19, R20). -/

namespace Sys2Proof.Machine

/-- R19: outside AWAKE, and in OFF, all three lines are released whatever the guard state. -/
theorem State.indicators_of_not_awake {s : State} (h : s.sup.state = .off ∨ s.sup.activity ≠ .awake) :
    s.indicators = ⟨false, false, false⟩ :=
  if_pos h

section Awake

variable {s : State} (hon : s.sup.state ≠ .off) (hawake : s.sup.activity = .awake)
include hon hawake

/-- The column IND_R of R19's table, with the PULSE of R20 in every state but STRAP_FAULT. -/
theorem State.indicators_red_of_awake :
    s.indicators.red = true ↔
      s.grd.state = .locked ∨ s.grd.state = .held ∨ (s.grd.pulseTimer ≠ none ∧ s.grd.state ≠ .strapFault) := by
  cases hg : s.grd.state with
  | locked | held => simp [State.indicators, hon, hawake, hg]
  | strapFault => simp [State.indicators, hon, hawake, hg]
  | starting | blank | opened | admin | closing | wiping =>
    simp [State.indicators, hon, hawake, hg, Option.isSome_iff_ne_none]

/-- The column IND_G of R19's table: the guard state alone decides. -/
theorem State.indicators_green_of_awake :
    s.indicators.green = true ↔
      s.grd.state = .blank ∨ s.grd.state = .opened ∨ s.grd.state = .admin ∨ s.grd.state = .closing := by
  cases hg : s.grd.state with
  | blank | opened | admin | closing => simp [State.indicators, hon, hawake, hg]
  | strapFault | starting | locked | held | wiping => simp [State.indicators, hon, hawake, hg]

/-- The column IND_B of R19's table: BLANK and WIPING pull it, and the four states that collect while collecting. -/
theorem State.indicators_blue_of_awake :
    s.indicators.blue = true ↔
      s.grd.state = .blank ∨ s.grd.state = .wiping
        ∨ ((s.grd.state = .locked ∨ s.grd.state = .held ∨ s.grd.state = .opened ∨ s.grd.state = .admin)
          ∧ s.key.mode ≠ .idle) := by
  cases hg : s.grd.state with
  | blank | wiping => simp [State.indicators, hon, hawake, hg]
  | locked | held | opened | admin => simp [State.indicators, hon, hawake, hg]
  | strapFault | starting | closing => simp [State.indicators, hon, hawake, hg]

end Awake

/-- Settles O12: either the station is off or not awake and releases all three lines, or the three columns of R19's
table say what it pulls. -/
theorem theIndicatorsFollowTheGuardState : Obligations.TheIndicatorsFollowTheGuardState := by
  unfold Obligations.TheIndicatorsFollowTheGuardState
  intro s
  by_cases h : s.sup.state = .off ∨ s.sup.activity ≠ .awake
  · have hno : ¬ (s.sup.state ≠ .off ∧ s.sup.activity = .awake) := by tauto
    rw [State.indicators_of_not_awake h]
    simp only [← and_assoc, hno, false_and, Bool.false_eq_true, and_self]
  · obtain ⟨hon, hawake⟩ : s.sup.state ≠ .off ∧ s.sup.activity = .awake := by tauto
    rw [State.indicators_red_of_awake hon hawake, State.indicators_green_of_awake hon hawake,
      State.indicators_blue_of_awake hon hawake]
    simp only [ne_eq, hon, not_false_eq_true, hawake, true_and, and_self]

end Sys2Proof.Machine
end

section
/-! PROOF. Merged-high fields (R29): the least complement on the line is the complement of the greatest offer, and
`fieldResult` turns it back. -/

namespace Sys2Proof.Machine

/-! ## The least complement and the greatest offer -/

/-- The least complement is the complement of the greatest value offered. -/
theorem foldl_min_complements (m : Nat) (offers : List Nat) :
    (offers.map (m - ·)).foldl min m = m - offers.foldl max 0 := by
  simpa [Function.comp_def, List.foldl_map] using
    (List.foldl_hom (m - ·) (g₁ := max) (g₂ := fun x v => min x (m - v)) (l := offers) (init := 0)
      fun a v => Nat.sub_min_sub_left m a v)

/-- The greatest value offered, 0 when there is none, is the maximum of the offers with a 0 among them. -/
theorem foldl_max_eq_max_cons (offers : List Nat) :
    offers.foldl max 0 = (0 :: offers).max (List.cons_ne_nil 0 offers) :=
  rfl

theorem le_greatest {offers : List Nat} {v : Nat} (hv : v ∈ offers) : v ≤ offers.foldl max 0 :=
  foldl_max_eq_max_cons offers ▸ List.le_max_of_mem (List.mem_cons_of_mem 0 hv)

theorem greatest_le {offers : List Nat} {m : Nat} (hle : ∀ v ∈ offers, v ≤ m) : offers.foldl max 0 ≤ m :=
  foldl_max_eq_max_cons offers ▸ (List.max_le_iff _).2 (by simpa using hle)

/-! ## Values of a field's width as bits -/

/-- No field is longer than the line's 256 bits. -/
theorem fieldMax_lt (f : Field) : fieldMax f < 2 ^ 256 := by
  cases f <;> decide

/-- A value of the field's width is spelled without loss. -/
theorem toNat_asBits {f : Field} {n : Nat} (h : n ≤ fieldMax f) : (asBits n).toNat = n :=
  BitVec.toNat_ofNat n 256 ▸ Nat.mod_eq_of_lt (h.trans_lt (fieldMax_lt f))

theorem toNat_complementOf (f : Field) (n : Nat) : (complementOf f n).toNat = fieldMax f - n :=
  toNat_asBits (Nat.sub_le _ n)

theorem complementOf_inj {f : Field} {v g : Nat} (hv : v ≤ fieldMax f) (hg : g ≤ fieldMax f) :
    complementOf f v = complementOf f g ↔ v = g := by
  rw [← BitVec.toNat_inj, toNat_complementOf, toNat_complementOf]
  omega

/-- A complement lies within its field's width. -/
theorem fieldBits_complementOf (f : Field) (n : Nat) : fieldBits f (complementOf f n) = complementOf f n := by
  have hlt : fieldMax f - n < 2 ^ fieldWidth f :=
    (Nat.sub_le _ n).trans_lt (Nat.sub_lt (Nat.two_pow_pos _) Nat.one_pos)
  apply BitVec.eq_of_toNat_eq
  rw [fieldBits, BitVec.toNat_and, toNat_asBits le_rfl, toNat_complementOf]
  exact (Nat.and_two_pow_sub_one_eq_mod _ (fieldWidth f)).trans (Nat.mod_eq_of_lt hlt)

/-! ## What a participant takes -/

/-- A participant that drives nothing leaves the line as it reads. -/
theorem lineValue_nothing (read : LineBits) : lineValue .nothing read = read :=
  rfl

/-- A line that is no higher than what a participant drives stays as it reads. -/
theorem lineValue_bits_of_le {v read : LineBits} (h : read ≤ v) : lineValue (.bits v) read = read :=
  if_neg (BitVec.not_lt.2 h)

/-- A merged-high field whose line carries the complement of g is taken as g. -/
theorem fieldResult_mergedHigh {f : Field} (hf : convention f = .mergedHigh) (sup : Supply) {offer : Offer} {g : Nat}
    (hg : g ≤ fieldMax f) (hline : lineValue offer (complementOf f g) = complementOf f g) :
    fieldResult sup offer f (complementOf f g) = ⟨f, asBits g, offer == .bits (complementOf f g)⟩ := by
  simp only [fieldResult, hf, fieldBits_complementOf, hline, toNat_complementOf, Nat.sub_sub_self hg]

/-- A participant that offers v takes the greatest value offered and finds whether v equals it. -/
theorem fieldResult_offering {f : Field} (hf : convention f = .mergedHigh) (sup : Supply) {v g : Nat} (hvg : v ≤ g)
    (hg : g ≤ fieldMax f) :
    fieldResult sup (offerHigh f true v) f (complementOf f g) = ⟨f, asBits g, v == g⟩ := by
  have hle : complementOf f g ≤ complementOf f v := by
    rw [BitVec.le_def, toNat_complementOf, toNat_complementOf]
    omega
  have heq : (Offer.bits (complementOf f v) == .bits (complementOf f g)) = (v == g) := by
    rw [Bool.eq_iff_iff, beq_iff_eq, beq_iff_eq, Offer.bits.injEq, complementOf_inj (hvg.trans hg) hg]
  rw [← heq]
  exact fieldResult_mergedHigh hf sup hg (lineValue_bits_of_le hle)

/-- A participant that offers nothing takes the greatest value offered. -/
theorem fieldResult_not_offering {f : Field} (hf : convention f = .mergedHigh) (sup : Supply) {g : Nat}
    (hg : g ≤ fieldMax f) : (fieldResult sup .nothing f (complementOf f g)).value = asBits g :=
  congrArg FieldResult.value (fieldResult_mergedHigh hf sup hg (lineValue_nothing _))

/-- Settles O35: the line carries the complement of the greatest value offered, which is no less than any offer and
within the width, so that every participant, offering or not, takes it. -/
theorem mergedHighFieldsReadTheGreatestOffer : Obligations.MergedHighFieldsReadTheGreatestOffer := by
  unfold Obligations.MergedHighFieldsReadTheGreatestOffer
  intro sup f offers line hf hwidth hline
  have hg : offers.foldl max 0 ≤ fieldMax f := greatest_le hwidth
  obtain rfl : line = complementOf f (offers.foldl max 0) :=
    hline.trans (congrArg asBits (foldl_min_complements (fieldMax f) offers))
  refine ⟨fun v hv => ⟨rfl, fieldResult_offering hf sup (le_greatest hv) hg⟩,
    fun _ => ⟨rfl, fieldResult_not_offering hf sup hg⟩, ?_⟩
  rintro rfl
  exact fieldResult_not_offering hf sup hg

end Sys2Proof.Machine
end

section
/-! PROOF. A recognized press (R64 to R66): KEY_PRESS of a key whose press is due, neither set aside nor discarded,
takes the press and ends the event. With it the three chords that act at once (R74). -/

namespace Sys2Proof.Machine

/-! ## The station once a press is recognized -/

/-- The bit of the key itself does not bear on how its press is classified (R65). -/
theorem classify_or_keyMask (k : Key) (down : BitVec 12) : classify k (down ||| keyMask k) = classify k down := by
  have hothers : (down ||| keyMask k) &&& ~~~keyMask k = down &&& ~~~keyMask k := by
    ext i
    simp only [BitVec.getElem_and, BitVec.getElem_or, BitVec.getElem_not, Bool.and_or_distrib_right, Bool.and_not_self,
      Bool.or_false]
  simp only [classify, hothers]

theorem State.mayDoze_iff (s : State) :
    s.mayDoze = true ↔ s.sup.state = .battery ∧ s.grd.state.holding = false ∧ s.grd.state ≠ .strapFault := by
  simp [State.mayDoze, and_assoc]

/-- An activity event reaches the supply controller alone (R161). -/
theorem State.activityEvent_eq (s : State) : s.activityEvent = { s with sup := s.supplyAfterActivity s.now } := by
  have hguard : (s.mayDoze && s.sup.activity != .dormant) = true ↔
      s.sup.state = .battery ∧ s.grd.state.holding = false ∧ s.grd.state ≠ .strapFault
        ∧ s.sup.activity ≠ .dormant := by
    rw [Bool.and_eq_true, s.mayDoze_iff, bne_iff_ne, and_assoc, and_assoc]
  unfold State.activityEvent State.supplyAfterActivity
  by_cases h : s.sup.state = .battery ∧ s.grd.state.holding = false ∧ s.grd.state ≠ .strapFault
      ∧ s.sup.activity ≠ .dormant
  · rw [if_pos h, if_pos (hguard.2 h)]
    rfl
  · rw [if_neg h, if_neg (mt hguard.1 h)]

/-- Activity makes no station dormant. -/
theorem State.supplyAfterActivity_not_dormant {s : State} (h : s.sup.activity ≠ .dormant) (now : Nat) :
    (s.supplyAfterActivity now).activity ≠ .dormant := by
  unfold State.supplyAfterActivity
  split
  · exact nofun
  · exact h

/-- A press that no round of this station sets aside or discards is taken (R66). -/
theorem State.press_of_free {s : State} (h : PressFree s) (k : Key) : s.press k = s.takePress k := by
  obtain ⟨haside, hdiscard⟩ := h
  simp [State.press, haside, hdiscard]

/-- A press recognized at a moment: key state, debounce timer and activity are those of `withPress`; then the press is
set aside, discarded or taken, but for a station in warm-up (R64, R163). -/
theorem State.recognizePress_reach (s : State) (k : Key) (t : Nat) :
    (s.reach t).recognizePress k =
      if (s.withPress k t).sup.activity = .dormant then s.withPress k t else (s.withPress k t).press k := by
  unfold State.recognizePress
  simp only [State.activityEvent_eq]
  rfl

/-- A recognized press is taken at a station that is awake or dozing (R64, R66). -/
theorem State.recognizePress_of_free {s : State} (hfree : PressFree s) (hawake : s.sup.activity ≠ .dormant) (k : Key)
    (t : Nat) : (s.reach t).recognizePress k = (s.withPress k t).takePress k := by
  have hstill : (s.withPress k t).sup.activity ≠ .dormant := State.supplyAfterActivity_not_dormant hawake _
  have hfree' : PressFree (s.withPress k t) := hfree
  rw [s.recognizePress_reach, if_neg hstill, State.press_of_free hfree']

theorem exec_keyPress (k : Key) (s : State) : exec (.keyPress k) s = execKeyPress k s :=
  rfl

/-- KEY_PRESS of a due press: it is taken in the state `withPress`, and the event ends. -/
theorem exec_keyPress_of_due {s : State} {k : Key} {t : Nat} (hn : s.notices = []) (hdue : PressDue s k t)
    (hfree : PressFree s) : exec (.keyPress k) s = .next ((s.withPress k t).takePress k).settle := by
  have hup : s.key.isDown k = false := by simp [Keypad.isDown, hdue.up]
  have hline : (s.pins.keyLines &&& keyMask k != 0) = true := bne_iff_ne.2 hdue.line
  rw [exec_keyPress, execKeyPress, event_settled _ _ hn, hdue.timer]
  simp only [hline, hup, Bool.not_false, Bool.and_self, if_true, State.recognizePress_of_free hfree hdue.awake]

/-- A recognized press leaves nothing over: the gate sees the same station, and one that dozed is awake. -/
theorem Settled.withPress {s : State} (h : Settled s) (k : Key) (t : Nat) : Settled (s.withPress k t) := by
  unfold State.withPress State.supplyAfterActivity
  split
  · exact ⟨h.notices, h.decided, h.granted, fun hdoze => nomatch hdoze.1⟩
  · exact ⟨h.notices, h.decided, h.granted, h.awake⟩

/-! ## Chords in IDLE -/

/-- A chord SHIFT+digit in IDLE at an open station; nothing is pending there that the digit could follow (R65, R71). -/
theorem State.takePress_chord {s : State} {d : Digit} (hopen : s.grd.state = .opened ∨ s.grd.state = .admin)
    (hmode : s.key.mode = .idle) (hchord : classify (.digit d) s.key.states = .chord d) :
    s.takePress (.digit d) = s.chordInIdle d := by
  have htakes : s.grd.state.takesKeys = true := by
    rcases hopen with h | h <;> rw [h] <;> rfl
  have hfresh : s.key.digitFollows = false := by simp [Keypad.digitFollows, hmode]
  simp [State.takePress, State.takeChord, htakes, hchord, hfresh, hopen, hmode]

/-- KEY_PRESS of a digit that is due as a chord in IDLE at an open station. -/
theorem exec_keyPress_chord {s : State} {d : Digit} {t : Nat} (hn : s.notices = []) (hdue : PressDue s (.digit d) t)
    (hfree : PressFree s) (hopen : s.grd.state = .opened ∨ s.grd.state = .admin) (hmode : s.key.mode = .idle)
    (hchord : classify (.digit d) s.key.states = .chord d) :
    exec (.keyPress (.digit d)) s = .next ((s.withPress (.digit d) t).chordInIdle d).settle := by
  have hdown : classify (.digit d) (s.withPress (.digit d) t).key.states = .chord d :=
    (classify_or_keyMask _ _).trans hchord
  rw [exec_keyPress_of_due hn hdue hfree, State.takePress_chord (s := s.withPress _ t) hopen hmode hdown]

theorem State.chordInIdle_two {s : State}
    (h : s.grd.state = .admin ∨ (s.grd.state = .opened ∧ s.grd.mustChange = false)) :
    s.chordInIdle 2 = s.sessionToggle := by
  rcases h with hadmin | ⟨hopened, hfree⟩
  · simp [State.chordInIdle, hadmin]
  · simp [State.chordInIdle, hfree]

theorem State.chordInIdle_four {s : State} (h : s.grd.state = .admin) :
    s.chordInIdle 4 = { s with gate := { s.gate with markLockOpen := !s.gate.markLockOpen } } := by
  simp [State.chordInIdle, State.toggleMarkLock, h]

theorem State.chordInIdle_eight {s : State} (h : s.grd.state = .admin) : s.chordInIdle 8 = s.armAll := by
  simp [State.chordInIdle, h]

/-! ## SHIFT+8: arming -/

/-- Arming and the refusing PULSE touch nothing that the end of an event looks at. -/
theorem Settled.armAll {s : State} (h : Settled s) : Settled s.armAll := by
  unfold State.armAll
  split <;> exact ⟨h.notices, h.decided, h.granted, h.awake⟩

/-! ## SHIFT+4: the mark lock -/

/-- What regating may do: nothing, or empty the slot and answer the bridge (R131). -/
theorem State.regate_cases (s : State) :
    s.regate = s ∨ ∃ sent, s.regate = { s with toBridge := sent, gate := { s.gate with presented := none } } := by
  unfold State.regate
  split
  · exact .inl rfl
  · split
    · exact .inr ⟨_, rfl⟩
    · exact .inl rfl

theorem PortGranted.regate {s : State} (h : PortGranted s) : PortGranted s.regate := by
  rcases s.regate_cases with hr | ⟨sent, hr⟩ <;> rw [hr]
  · exact h
  · exact fun hready => ⟨rfl, (h hready).2⟩

theorem AwakeForCause.regate {s : State} (h : AwakeForCause s) : AwakeForCause s.regate := by
  rcases s.regate_cases with hr | ⟨sent, hr⟩ <;> rw [hr] <;> exact h

/-- With its decision taken, a request is no candidate only where the outstanding list is full (R133, R137). -/
theorem no_request_or_full {s : State} (h : DecisionsTaken s) (hnone : bridgeCandidate s = none) :
    s.gate.presented = none ∨ Config.outstandingMax ≤ s.gate.outstanding.length := by
  unfold bridgeCandidate at hnone
  split at hnone
  · next hp => exact .inl hp
  · next r hp => exact .inr (by simpa [h r hp] using hnone)

/-- Where there is no request or no room there is no candidate, whatever is decided (R133, R137). -/
theorem bridgeCandidate_eq_none {s : State}
    (h : s.gate.presented = none ∨ Config.outstandingMax ≤ s.gate.outstanding.length) : bridgeCandidate s = none := by
  unfold bridgeCandidate
  rcases h with hp | hfull
  · rw [hp]
  · split
    · rfl
    · exact if_neg fun hroom => absurd hroom.2 (Nat.not_lt.2 hfull)

/-- The mark lock decides requests but gives the port no candidate it did not have. -/
theorem Settled.portGranted_markLock {s : State} (h : Settled s) (lockOpen : Bool) :
    PortGranted { s with gate := { s.gate with markLockOpen := lockOpen } } := by
  intro hready
  obtain ⟨hnone, herase⟩ := h.granted hready
  have hroom : s.gate.presented = none ∨ Config.outstandingMax ≤ s.gate.outstanding.length :=
    no_request_or_full h.decided hnone
  exact ⟨bridgeCandidate_eq_none hroom, herase⟩

/-- An event whose effect may have changed what is decided, and nothing else, ends with the decision (R131). -/
theorem State.settle_eq_regate {s : State} (hn : s.notices = []) (hg : PortGranted s) (ha : AwakeForCause s) :
    s.settle = s.regate := by
  rw [s.settle_quiet hn, s.regate.grantPort_of_granted hg.regate, s.regate.dormantIfQuiet_awake ha.regate]

/-- An event that sets the mark lock of a settled station ends with the presented request decided again. -/
theorem Settled.settle_markLock {s : State} (h : Settled s) (lockOpen : Bool) :
    State.settle { s with gate := { s.gate with markLockOpen := lockOpen } }
      = State.regate { s with gate := { s.gate with markLockOpen := lockOpen } } :=
  State.settle_eq_regate h.notices (h.portGranted_markLock lockOpen) h.awake

/-! ## SHIFT+2: the session marks -/

theorem any_readOnly_iff (marks : Vector SessionMark 64) :
    marks.toList.any (· == .readOnly) = true ↔ ∃ e : Extent, marks.get e = .readOnly := by
  simp only [List.any_eq_true, beq_iff_eq, exists_eq_right, Vector.mem_toList_iff]
  constructor
  · intro hmem
    obtain ⟨i, hi, he⟩ := Vector.getElem_of_mem hmem
    exact ⟨⟨i, hi⟩, he⟩
  · rintro ⟨e, he⟩
    exact he ▸ Vector.getElem_mem e.isLt

/-- SHIFT+2 outside STRAP_FAULT (R74): which SETMARK it posts. -/
theorem State.sessionToggle_eq {s : State} (h : s.grd.state ≠ .strapFault) :
    s.sessionToggle = { s with eng := { s.eng with
      queue := queuePost .setmark
        (if ∃ e : Extent, s.gate.session.get e = .readOnly then 0b0000000001111111#16 else 0b0000000101111111#16)
        s.eng.queue } } := by
  by_cases hany : ∃ e : Extent, s.gate.session.get e = .readOnly
  · simp [State.sessionToggle, State.post, h, (any_readOnly_iff _).2 hany, hany, setmarkSessionAll]
  · have hnone : s.gate.session.toList.any (· == .readOnly) = false :=
      Bool.eq_false_iff.2 (mt (any_readOnly_iff _).1 hany)
    simp [State.sessionToggle, State.post, h, hnone, hany, setmarkSessionAll]

/-- A post leaves a settled station settled: its queue is not empty. -/
theorem Settled.withPost {s : State} (h : Settled s) (k : RoundKind) (a : Arg) :
    Settled { s with eng := { s.eng with queue := queuePost k a s.eng.queue } } :=
  ⟨h.notices, h.decided, h.granted, fun hquiet => queuePost_ne_nil k a s.eng.queue hquiet.2.2.1⟩

/-! ## The three chords -/

/-- Settles O24: each chord is taken in IDLE by its own operation, and from a settled station the event ends there, but
for SHIFT+4, after which the presented request is decided again. -/
theorem adminChordsArmAndToggleTheMarkLock : Obligations.AdminChordsArmAndToggleTheMarkLock := by
  unfold Obligations.AdminChordsArmAndToggleTheMarkLock
  intro s t hs hfree hadmin hmode
  refine ⟨fun hdue hchord => ?eight, fun hdue hchord => ?four, ?two⟩
  case eight =>
    rw [exec_keyPress_chord hs.notices hdue hfree (.inr hadmin) hmode hchord,
      State.chordInIdle_eight (s := s.withPress _ t) hadmin, State.settle_settled _ (hs.withPress _ t).armAll]
    rfl
  case four =>
    rw [exec_keyPress_chord hs.notices hdue hfree (.inr hadmin) hmode hchord,
      State.chordInIdle_four (s := s.withPress _ t) hadmin, (hs.withPress _ t).settle_markLock]
    rfl
  case two =>
    intro s t hs hfree hopen hmode hdue hchord
    have hstate : s.grd.state = .opened ∨ s.grd.state = .admin := hopen.symm.imp_left And.left
    have hstrap : s.grd.state ≠ .strapFault := by
      rcases hstate with h | h <;> rw [h] <;> decide
    rw [exec_keyPress_chord hs.notices hdue hfree hstate hmode hchord,
      State.chordInIdle_two (s := s.withPress _ t) hopen, State.sessionToggle_eq (s := s.withPress _ t) hstrap,
      State.settle_settled _ ((hs.withPress _ t).withPost _ _)]
    rfl

end Sys2Proof.Machine
end

section
/-! PROOF. A bridge request at a settled station (R131 to R133, R137): the table of R132, what a refusal leaves, and
when a forwarded request is issued in the event in which it is presented. -/

namespace Sys2Proof.Machine

/-! ## The decision table -/

theorem AccessKind.ne_read_iff (k : AccessKind) : k ≠ .read ↔ k = .write ∨ k = .trim := by
  cases k <;> decide

/-- Once the rows of STRAP_FAULT, CLOSING and WIPING have not matched, four states are neither OPEN nor ADMIN. -/
theorem GuardState.not_open_iff {g : GuardState} (hshut : ¬(g = .strapFault ∨ g = .closing)) (hwiping : g ≠ .wiping) :
    g ≠ .opened ∧ g ≠ .admin ↔ g = .starting ∨ g = .blank ∨ g = .locked ∨ g = .held := by
  cases g with
  | strapFault | closing => simp at hshut
  | wiping => exact absurd rfl hwiping
  | starting | blank | locked | held | opened | admin => decide

/-- The table of R132 with the states of its sixth row and the kinds of its last four named. -/
theorem gateDecision_eq_table (s : State) (r : BridgeRequest) :
    gateDecision s r =
      if s.sup.state ≠ .bus then .refuse .noPower
      else if s.grd.state = .strapFault ∨ s.grd.state = .closing then .refuse .locked
      else if r.kind = .read ∧ s.gate.fixedMarks.get r.extent = .pub then .forward
      else if s.grd.state = .wiping then .refuse .wiping
      else if s.grd.state = .opened ∧ s.grd.mustChange = true then .refuse .mustChange
      else if s.grd.state = .starting ∨ s.grd.state = .blank ∨ s.grd.state = .locked ∨ s.grd.state = .held then
        .refuse .locked
      else if (r.kind = .write ∨ r.kind = .trim) ∧ s.gate.fixedMarks.get r.extent = .pub then
        (if s.grd.state = .admin ∧ s.gate.markLockOpen = true then .forward else .refuse .readOnly)
      else if (r.kind = .write ∨ r.kind = .trim) ∧ s.gate.fixedMarks.get r.extent = .frozen then .refuse .frozen
      else if (r.kind = .write ∨ r.kind = .trim) ∧ s.gate.session.get r.extent = .readOnly then .refuse .readOnly
      else .forward := by
  by_cases hshut : s.grd.state = .strapFault ∨ s.grd.state = .closing
  · simp only [gateDecision, hshut, if_true]
  · by_cases hwiping : s.grd.state = .wiping
    · simp only [gateDecision, hwiping, if_true]
    · simp only [gateDecision, GuardState.not_open_iff hshut hwiping, AccessKind.ne_read_iff]

/-- Nothing is forwarded in STRAP_FAULT (R132). -/
theorem not_strapFault_of_forward {s : State} {r : BridgeRequest} (h : gateDecision s r = .forward) :
    s.grd.state ≠ .strapFault := by
  intro hstrap
  by_cases hbus : s.sup.state = .bus <;> simp [gateDecision, hstrap, hbus] at h

/-! ## Presenting -/

/-- The state with a request in the gate's slot. -/
def State.withRequest (s : State) (r : BridgeRequest) : State :=
  { s with gate := { s.gate with presented := some r } }

theorem State.present_of_free {s : State} (hon : s.sup.state ≠ .off) (hfree : s.gate.presented = none)
    (r : BridgeRequest) : s.present r = s.withRequest r :=
  if_pos ⟨hon, hfree⟩

theorem Gate.clear_presented {gt : Gate} (h : gt.presented = none) : { gt with presented := none } = gt := by
  rw [← h]

/-- READ, WRITE and TRIM are one event, which presents the request. -/
theorem exec_access {c : Instr} {k : AccessKind} {e : Extent} {b : Nat}
    (hc : c = .read e b ∧ k = .read ∨ c = .write e b ∧ k = .write ∨ c = .trim e b ∧ k = .trim) (s : State) :
    exec c s = event (State.present · ⟨k, e, b⟩) s := by
  obtain ⟨rfl, rfl⟩ | ⟨rfl, rfl⟩ | ⟨rfl, rfl⟩ := hc <;> rfl

/-! ## The grant -/

theorem bridgeCandidate_of_forward {s : State} {r : BridgeRequest} (hp : s.gate.presented = some r)
    (hd : gateDecision s r = .forward) :
    bridgeCandidate s = if s.gate.outstanding.length < Config.outstandingMax then some r else none := by
  simp [bridgeCandidate, hp, hd]

/-- With no erase waiting for a READY port, a forwarded request is issued when the port is READY and the list has room
(R133, R137). -/
theorem State.grantPort_of_forward {s : State} {r : BridgeRequest} (hp : s.gate.presented = some r)
    (hd : gateDecision s r = .forward) (hload : s.sup.step ≠ .loading)
    (herase : s.gate.portReady = true → s.gate.eraseWaiting = none) :
    s.grantPort =
      if s.gate.portReady = true ∧ s.gate.outstanding.length < Config.outstandingMax then s.issueAccess r else s := by
  have hstrap := not_strapFault_of_forward hd
  cases hready : s.gate.portReady with
  | false => simp [s.grantPort_notReady hready]
  | true =>
    by_cases hroom : s.gate.outstanding.length < Config.outstandingMax <;>
      simp [State.grantPort, hready, hstrap, hload, bridgeCandidate_of_forward hp hd, herase hready, hroom]

/-- Where no erase waits, an issue leaves the yield count (R137). -/
theorem State.issueAccess_of_no_erase {s : State} (h : s.gate.eraseWaiting = none) (r : BridgeRequest) :
    s.issueAccess r = { s with
      toBank := s.toBank ++ [.access r]
      gate := { s.gate with presented := none, outstanding := s.gate.outstanding ++ [r], portReady := false } } := by
  simp [State.issueAccess, h]

/-! ## The end of the event -/

section Presented

variable {s : State} (hs : Settled s) (hfree : s.gate.presented = none) {r : BridgeRequest}
include hs hfree

/-- A refusal is the gate's whole answer: the slot is empty again, and nothing else is left over (R131, R132). -/
theorem Settled.settle_withRequest_of_refuse {x : RefuseReason} (hd : gateDecision s r = .refuse x) :
    (s.withRequest r).settle = { s with toBridge := s.toBridge ++ [.refusal r x] } := by
  have hrefused : (s.withRequest r).regate = { s with toBridge := s.toBridge ++ [.refusal r x] } := by
    rw [(s.withRequest r).regate_refuse r x rfl hd]
    simp only [State.withRequest, Gate.clear_presented hfree]
  rw [(s.withRequest r).settle_quiet hs.notices, hrefused, State.grantPort_of_granted _ ?granted,
    State.dormantIfQuiet_awake _ ?awake]
  case granted => exact hs.granted
  case awake => exact hs.awake

/-- A forwarded request is issued in the event when the port is READY and the list has room, or else stays presented: a
settled station has no erase waiting for a READY port (R131, R133, R137). -/
theorem Settled.settle_withRequest_of_forward (hd : gateDecision s r = .forward) (hload : s.sup.step ≠ .loading) :
    (s.withRequest r).settle =
      if s.gate.portReady = true ∧ s.gate.outstanding.length < Config.outstandingMax then
        { s with
          toBank := s.toBank ++ [.access r]
          gate := { s.gate with outstanding := s.gate.outstanding ++ [r], portReady := false } }
      else s.withRequest r := by
  have hdecided : DecisionsTaken (s.withRequest r) := by
    rintro q ⟨⟩
    exact hd
  have herase : s.gate.portReady = true → s.gate.eraseWaiting = none := fun hready =>
    (hs.granted (by simp [hready, hload, not_strapFault_of_forward hd])).2
  have hgrant : (s.withRequest r).grantPort =
      if s.gate.portReady = true ∧ s.gate.outstanding.length < Config.outstandingMax then
        (s.withRequest r).issueAccess r
      else s.withRequest r :=
    State.grantPort_of_forward (s := s.withRequest r) rfl hd hload herase
  rw [(s.withRequest r).settle_quiet hs.notices, (s.withRequest r).regate_of_decided hdecided, hgrant]
  split
  · next hissue =>
    rw [State.issueAccess_of_no_erase (s := s.withRequest r) (herase hissue.1), State.dormantIfQuiet_awake _ ?awake]
    case awake => exact hs.awake
    simp only [State.withRequest, hfree]
  · exact (s.withRequest r).dormantIfQuiet_awake hs.awake

end Presented

/-- Settles O58: the rows of the table, then each command as one presented request whose event ends by its decision. -/
theorem theGateDecidesByItsTable : Obligations.TheGateDecidesByItsTable := by
  unfold Obligations.TheGateDecidesByItsTable
  refine ⟨gateDecision_eq_table, ?_⟩
  intro s e b c k hs hon hfree hc
  have hexec : exec c s = .next (s.withRequest ⟨k, e, b⟩).settle := by
    rw [exec_access hc, event_settled _ _ hs.notices, State.present_of_free hon hfree]
  constructor
  · intro x hrefuse
    rw [hexec, hs.settle_withRequest_of_refuse hfree hrefuse]
  · intro hforward hload
    rw [hexec, hs.settle_withRequest_of_forward hfree hforward hload]
    rfl

end Sys2Proof.Machine
end

section
/-! PROOF. A change of guard state: what it hands to the sampler, the gate and the triggers (R18, R78, R130). -/

namespace Sys2Proof.Machine

/-- A change of guard state, in the order of its effects. -/
theorem State.setGuard_of_ne {s : State} {g : GuardState} (h : s.grd.state ≠ g) :
    s.setGuard g =
      (let u := ({ s with grd := { s.grd with state := g } }).keypadReset
       let u := ({ u with gate := u.gate.takeGuard s.grd.state g }).regate
       (if g.holding then u.stayAwake else if s.grd.state.holding then u.activityEvent else u).note (.entered g)) :=
  if_neg h

theorem State.setGuard_self {s : State} {g : GuardState} (h : s.grd.state = g) : s.setGuard g = s :=
  if_pos h

/-- Deciding the presented request leaves the gate's marks and its lock. -/
@[simp] theorem State.regate_gate_marks (s : State) :
    s.regate.gate.session = s.gate.session ∧ s.regate.gate.markLockOpen = s.gate.markLockOpen := by
  rcases s.regate_cases with h | ⟨_, h⟩ <;> simp [h]

theorem State.setGuard_grd {s : State} {g : GuardState} (h : s.grd.state ≠ g) :
    (s.setGuard g).grd = { s.grd with state := g } := by
  rw [State.setGuard_of_ne h]
  dsimp only
  repeat' split
  all_goals simp

theorem State.setGuard_key {s : State} {g : GuardState} (h : s.grd.state ≠ g) :
    (s.setGuard g).key = { s.key.idleAgain with heldEntry := none, heldChange := none } := by
  have hreset : ∀ u : State, u.keypadReset.key = { u.key.idleAgain with heldEntry := none, heldChange := none } := by
    intro u
    unfold State.keypadReset
    dsimp only
    repeat' split
    all_goals rfl
  rw [State.setGuard_of_ne h]
  dsimp only
  repeat' split
  all_goals simp [hreset]

/-- A change of guard state withdraws the requests whose held item it drops, unless they are in flight (R78). -/
theorem State.setGuard_queue {s : State} {g : GuardState} (h : s.grd.state ≠ g) :
    (s.setGuard g).eng.queue = s.eng.queue.filter fun r =>
      r.inFlight || !((r.kind == .check && s.key.heldEntry.isSome) || (r.kind == .setcode && s.key.heldChange.isSome)) := by
  have hreset : ∀ u : State, u.keypadReset.eng.queue = u.eng.queue.filter fun r =>
      r.inFlight || !((r.kind == .check && u.key.heldEntry.isSome) || (r.kind == .setcode && u.key.heldChange.isSome)) := by
    intro u
    unfold State.keypadReset
    cases he : u.key.heldEntry with
    | none =>
      cases hc : u.key.heldChange with
      | none => simp [hc]
      | some c => simp [hc]; grind
    | some e =>
      cases hc : u.key.heldChange with
      | none => simp [hc]; grind
      | some c => simp [hc]; grind
  rw [State.setGuard_of_ne h]
  dsimp only
  repeat' split
  all_goals simp [hreset]

theorem State.setGuard_marks {s : State} {g : GuardState} (h : s.grd.state ≠ g) :
    (s.setGuard g).gate.session = (if g = .opened ∨ g = .admin then Vector.replicate 64 .writable else s.gate.session)
      ∧ (s.setGuard g).gate.markLockOpen = (s.gate.markLockOpen && decide (s.grd.state ≠ .admin)) := by
  have hlock : (if s.grd.state = .admin ∧ g ≠ .admin then false else s.gate.markLockOpen)
      = (s.gate.markLockOpen && decide (s.grd.state ≠ .admin)) := by
    by_cases ha : s.grd.state = .admin
    · have : g ≠ .admin := fun hg => h (ha.trans hg.symm)
      simp [ha, this]
    · simp [ha]
  rw [State.setGuard_of_ne h, ← hlock]
  dsimp only
  repeat' split
  all_goals simp_all [Gate.takeGuard]

theorem State.setGuard_notices {s : State} {g : GuardState} (h : s.grd.state ≠ g) :
    (s.setGuard g).notices = s.notices ++ [.entered g] := by
  rw [State.setGuard_of_ne h]
  dsimp only
  repeat' split
  all_goals simp

/-- Settles O11, part by part. -/
theorem guardChangesAreHandedOn : Obligations.GuardChangesAreHandedOn := by
  unfold Obligations.GuardChangesAreHandedOn
  intro s g h
  refine ⟨State.setGuard_grd h, State.setGuard_key h, State.setGuard_queue h, (State.setGuard_marks h).1,
    (State.setGuard_marks h).2, State.setGuard_notices h, ?_⟩
  simp

end Sys2Proof.Machine
end

section
/-! PROOF. What every operation of a station keeps, said once: the queue of commands, what was sent, the clock, the
serial, the straps, and the rules of the gate, of the key's custody and of STRAP_FAULT. -/

namespace Sys2Proof.Machine

/-! ## The rules, by the fields they read -/

/-- What the gate's rule reads is the same. -/
@[simp] def GateSame (s t : State) : Prop :=
  t.gate.outstanding = s.gate.outstanding ∧ t.gate.yieldCount = s.gate.yieldCount
    ∧ t.gate.eraseWaiting = s.gate.eraseWaiting ∧ t.wipe.erase = s.wipe.erase

/-- What the rule of custody reads is the same. -/
@[simp] def CustodySame (s t : State) : Prop :=
  t.grd.state = s.grd.state ∧ t.cred.plainKey = s.cred.plainKey ∧ t.grd.matched = s.grd.matched
    ∧ t.grd.mustChange = s.grd.mustChange ∧ t.grd.batteryTimer = s.grd.batteryTimer
    ∧ t.gate.markLockOpen = s.gate.markLockOpen

/-- What is empty, released or off stays so, and STRAP_FAULT is not entered. -/
@[simp] def StaysInert (s t : State) : Prop :=
  (t.grd.state = .strapFault → s.grd.state = .strapFault) ∧ (s.sup.state = .off → t.sup.state = .off)
    ∧ (s.eng.queue = [] → t.eng.queue = []) ∧ (s.eng.round = none → t.eng.round = none)
    ∧ (s.line.ownDrive = false → t.line.ownDrive = false) ∧ (s.line.offer = .nothing → t.line.offer = .nothing)
    ∧ (s.line.header = none → t.line.header = none) ∧ (s.wipe.erase = .absent → t.wipe.erase = .absent)
    ∧ (s.gate.eraseWaiting = none → t.gate.eraseWaiting = none)
    ∧ (s.gate.outstanding = [] → t.gate.outstanding = []) ∧ (s.gate.portReady = false → t.gate.portReady = false)
    ∧ (s.cred.plainKey = none → t.cred.plainKey = none) ∧ (s.cred.genKey = none → t.cred.genKey = none)
    ∧ (s.pol.armed = 0 → t.pol.armed = 0)

theorem GateInRange.congr {s t : State} (h : GateInRange s) (e : GateSame s t) : GateInRange t := by
  obtain ⟨outstanding, yielded, waiting, erase⟩ := e
  exact {
    outstanding := outstanding ▸ h.outstanding
    yielded := yielded ▸ h.yielded
    noneWaiting := by rw [waiting, yielded]; exact h.noneWaiting
    sameErase := by rw [waiting, erase]; exact h.sameErase }

theorem KeyInCustody.congr {s t : State} (h : KeyInCustody s) (e : CustodySame s t) : KeyInCustody t := by
  obtain ⟨state, plain, matched, mustChange, timer, lock⟩ := e
  exact {
    key := by rw [plain, state]; exact h.key
    matched := by rw [matched, state]; exact h.matched
    admin := by rw [matched, state]; exact h.admin
    user := by rw [matched, state]; exact h.user
    mustChange := by rw [mustChange, state]; exact h.mustChange
    battery := by rw [timer, state]; exact h.battery
    markLock := by rw [lock, state]; exact h.markLock }

theorem InertInStrapFault.mono {s t : State} (h : InertInStrapFault s) (e : StaysInert s t) : InertInStrapFault t where
  inert hg ho := by
    obtain ⟨state, on, queue, round, drive, offer, header, erase, waiting, outstanding, ready, plain, gen, armed⟩ := e
    obtain ⟨h1, h2, h3, h4, h5, h6, h7, h8, h9, h10, h11, h12⟩ := h.inert (state hg) (mt on ho)
    exact ⟨queue h1, round h2, drive h3, offer h4, header h5, erase h6, waiting h7, outstanding h8, ready h9, plain h10,
      gen h11, armed h12⟩

theorem InertInStrapFault.of_state {s : State} (h : s.grd.state ≠ .strapFault) : InertInStrapFault s :=
  ⟨fun hg => absurd hg h⟩

/-! ## What an operation keeps -/

/-- What every command's own effect keeps, whatever the supplies do. -/
structure Kept (s t : State) : Prop where
  pending : t.pending = s.pending
  bank : t.toBank = s.toBank
  bridge : ∃ l, t.toBridge = s.toBridge ++ l
  clock : s.now ≤ t.now
  stored : t.nv.serial = s.nv.serial
  gate : GateInRange s → GateInRange t
  key : KeyInCustody s → KeyInCustody t
  inert : InertInStrapFault s → InertInStrapFault t

/-- What a command keeps that neither takes nor gives the supply. -/
structure KeepsPowered (s t : State) : Prop extends Kept s t where
  strap : s.grd.state = .strapFault → t.grd.state = .strapFault
  power : t.sup.state = .off ↔ s.sup.state = .off
  stn : t.sup.stn = s.sup.stn
  roster : t.sup.roster = s.sup.roster

/-- What an operation keeps that loads no records either. -/
structure Keeps (s t : State) : Prop extends KeepsPowered s t where
  serial : t.eng.serial = s.eng.serial

/-- The queue of commands, what the bank was sent, the clock, the straps and the serial. -/
@[simp] def RecordsSame (s t : State) : Prop :=
  t.pending = s.pending ∧ t.toBank = s.toBank ∧ s.now ≤ t.now ∧ t.nv.serial = s.nv.serial
    ∧ (s.grd.state = .strapFault → t.grd.state = .strapFault) ∧ (t.sup.state = .off ↔ s.sup.state = .off)
    ∧ t.sup.stn = s.sup.stn ∧ t.sup.roster = s.sup.roster ∧ t.eng.serial = s.eng.serial

theorem Keeps.of_rules {s t : State} (h : RecordsSame s t) (bridge : ∃ l, t.toBridge = s.toBridge ++ l)
    (gate : GateInRange s → GateInRange t) (key : KeyInCustody s → KeyInCustody t)
    (inert : InertInStrapFault s → InertInStrapFault t) : Keeps s t := by
  obtain ⟨pending, bank, clock, stored, strap, power, stn, roster, serial⟩ := h
  exact { pending, bank, bridge, clock, stored, gate, key, inert, strap, power, stn, roster, serial }

/-- An operation that changes nothing the gate's rule and the rule of STRAP_FAULT do not speak of. -/
theorem Keeps.of_gate_inert {s t : State} (h : RecordsSame s t ∧ t.toBridge = s.toBridge ∧ CustodySame s t)
    (gate : GateInRange s → GateInRange t) (inert : InertInStrapFault s → InertInStrapFault t) : Keeps s t := by
  obtain ⟨hr, hb, hk⟩ := h
  exact .of_rules hr ⟨[], by rw [hb, List.append_nil]⟩ gate (·.congr hk) inert

/-- An operation that changes nothing the rule of STRAP_FAULT does not speak of. -/
theorem Keeps.of_inert {s t : State}
    (h : RecordsSame s t ∧ t.toBridge = s.toBridge ∧ GateSame s t ∧ CustodySame s t)
    (inert : InertInStrapFault s → InertInStrapFault t) : Keeps s t := by
  obtain ⟨hr, hb, hg, hk⟩ := h
  exact .of_gate_inert ⟨hr, hb, hk⟩ (·.congr hg) inert

/-- An operation that changes nothing the rule of custody does not speak of. -/
theorem Keeps.of_key {s t : State} (h : RecordsSame s t ∧ t.toBridge = s.toBridge ∧ GateSame s t ∧ StaysInert s t)
    (key : KeyInCustody s → KeyInCustody t) : Keeps s t := by
  obtain ⟨hr, hb, hg, hi⟩ := h
  exact .of_rules hr ⟨[], by rw [hb, List.append_nil]⟩ (·.congr hg) key (·.mono hi)

/-- An operation that changes nothing the rules speak of. -/
theorem Keeps.of_same {s t : State}
    (h : RecordsSame s t ∧ t.toBridge = s.toBridge ∧ GateSame s t ∧ CustodySame s t ∧ StaysInert s t) : Keeps s t := by
  obtain ⟨hr, hb, hg, hk, hi⟩ := h
  exact .of_inert ⟨hr, hb, hg, hk⟩ (·.mono hi)

theorem Kept.trans {s t u : State} (h : Kept s t) (k : Kept t u) : Kept s u where
  pending := k.pending.trans h.pending
  bank := k.bank.trans h.bank
  bridge := by
    obtain ⟨l, hl⟩ := h.bridge
    obtain ⟨m, hm⟩ := k.bridge
    exact ⟨l ++ m, by rw [hm, hl, List.append_assoc]⟩
  clock := h.clock.trans k.clock
  stored := k.stored.trans h.stored
  gate := k.gate ∘ h.gate
  key := k.key ∘ h.key
  inert := k.inert ∘ h.inert

theorem Keeps.refl (s : State) : Keeps s s := (.of_same (by simp))

theorem Keeps.trans {s t u : State} (h : Keeps s t) (k : Keeps t u) : Keeps s u where
  toKept := h.toKept.trans k.toKept
  strap := k.strap ∘ h.strap
  power := k.power.trans h.power
  stn := k.stn.trans h.stn
  roster := k.roster.trans h.roster
  serial := k.serial.trans h.serial

theorem Keeps.ite {s t u : State} {c : Prop} [Decidable c] (ht : c → Keeps s t) (hu : ¬c → Keeps s u) :
    Keeps s (if c then t else u) := by
  split
  · exact ht ‹_›
  · exact hu ‹_›

/-! ## Guard, tally and hold -/

@[simp] theorem State.setFlag_round (s : State) (f : Flag) :
    (s.setFlag f).eng.round = s.eng.round.map (·.uncarry f) := by
  unfold State.setFlag
  dsimp only
  split <;> rfl

theorem State.note_keeps (s : State) (n : Notice) : Keeps s (s.note n) := (.of_same (by simp))
theorem State.reach_keeps (s : State) (t : Nat) : Keeps s (s.reach t) := (.of_same (by simp))
theorem State.pulse_keeps (s : State) (n : Nat) : Keeps s (s.pulse n) := (.of_same (by simp))
theorem State.activityEvent_keeps (s : State) : Keeps s s.activityEvent := (.of_same (by simp))
theorem State.stayAwake_keeps (s : State) : Keeps s s.stayAwake := (.of_same (by simp))
theorem State.setOwed_keeps (s : State) (n : Nat) : Keeps s (s.setOwed n) := (.of_same (by simp))
theorem State.setTally_keeps (s : State) (v : Nat) : Keeps s (s.setTally v) := (.of_same (by simp))
theorem State.clearHold_keeps (s : State) : Keeps s s.clearHold := (.of_same (by simp))
theorem State.clearFlags_keeps (s : State) (set : FlagSet) : Keeps s (s.clearFlags set) := (.of_same (by simp))

theorem State.setFlag_keeps (s : State) (f : Flag) : Keeps s (s.setFlag f) :=
  .of_same (by simp)

theorem State.post_keeps (s : State) (k : RoundKind) (a : Arg) : Keeps s (s.post k a) := by
  by_cases h : s.grd.state = .strapFault
  · rw [State.post_strapFault s k a h]
    exact .refl s
  · exact .of_inert (by simp) fun _ => .of_state (by simpa using h)

theorem State.withdraw_keeps (s : State) (k : RoundKind) : Keeps s (s.withdraw k) :=
  .of_same (by simp +contextual)

theorem State.unqueue_keeps (s : State) (k : RoundKind) : Keeps s (s.unqueue k) :=
  .of_same (by simp +contextual [queueRemove])

theorem State.regate_bridge (s : State) : ∃ l, s.regate.toBridge = s.toBridge ++ l := by
  unfold State.regate
  split
  · exact ⟨[], by simp⟩
  · split
    · exact ⟨_, rfl⟩
    · exact ⟨[], by simp⟩

theorem State.regate_keeps (s : State) : Keeps s s.regate :=
  .of_rules (by simp) s.regate_bridge (·.congr (by simp)) (·.congr (by simp)) (·.mono (by simp))

/-! ## Custody of the key -/

/-- A station that is not open holds nothing of the open states (R7 to R9, R13, R130). -/
theorem KeyInCustody.shut {s : State} (h : KeyInCustody s) (hs : s.grd.state.open_ = false) :
    s.cred.plainKey = none ∧ s.grd.matched = none ∧ s.grd.mustChange = false ∧ s.grd.batteryTimer = none := by
  have hne : s.grd.state ≠ .opened ∧ s.grd.state ≠ .admin ∧ s.grd.state ≠ .closing := by
    refine ⟨?_, ?_, ?_⟩ <;> intro hg <;> rw [hg] at hs <;> exact Bool.noConfusion hs
  obtain ⟨ho, ha, hc⟩ := hne
  refine ⟨?_, ?_, ?_, ?_⟩
  · exact Option.isNone_iff_eq_none.1 (by simpa [hs] using h.key)
  · exact Option.isNone_iff_eq_none.1 (by simpa [hs] using h.matched)
  · simpa [ho, hc] using h.mustChange
  · exact Option.isNone_iff_eq_none.1 (by simpa [ho, ha] using h.battery)

/-- The mark lock is open in ADMIN alone once a change of guard state has been taken (R130). -/
theorem State.setGuard_markLock {s : State} {g : GuardState} (h : s.gate.markLockOpen = true → s.grd.state = .admin) :
    (s.setGuard g).gate.markLockOpen = true → g = .admin := by
  intro hl
  by_cases hg : s.grd.state = g
  · rw [State.setGuard_self hg] at hl
    exact hg ▸ h hl
  · rw [(State.setGuard_marks hg).2, Bool.and_eq_true, decide_eq_true_eq] at hl
    exact absurd (h hl.1) hl.2

/-- A station that holds nothing of the open states may go to any state but OPEN and ADMIN. -/
theorem State.setGuard_custody {s : State} {g : GuardState} (hp : s.cred.plainKey = none) (hm : s.grd.matched = none)
    (hc : s.grd.mustChange = false) (hb : s.grd.batteryTimer = none)
    (hl : s.gate.markLockOpen = true → s.grd.state = .admin) (ho : g ≠ .opened) (ha : g ≠ .admin) :
    KeyInCustody (s.setGuard g) where
  key h := by simp [hp] at h
  matched h := by simp [hm] at h
  admin h := absurd (by simpa using h) ha
  user h := absurd (by simpa using h) ho
  mustChange h := by simp [hc] at h
  battery h := by simp [hb] at h
  markLock h := by simpa using State.setGuard_markLock hl h

/-- A change of guard state may refuse a presented request, and sends the bridge nothing else (R131). -/
theorem State.setGuard_bridge (s : State) (g : GuardState) : ∃ l, (s.setGuard g).toBridge = s.toBridge ++ l := by
  by_cases h : s.grd.state = g
  · exact ⟨[], by rw [State.setGuard_self h, List.append_nil]⟩
  · rw [State.setGuard_of_ne h]
    dsimp only
    have hr := State.regate_bridge { ({ s with grd := { s.grd with state := g } } : State).keypadReset with
      gate := ({ s with grd := { s.grd with state := g } } : State).keypadReset.gate.takeGuard s.grd.state g }
    repeat' split
    all_goals simpa using hr

/-- A change of guard state keeps what its custody allows; STRAP_FAULT is neither left nor entered by it. -/
theorem State.setGuard_keeps {s : State} {g : GuardState} (hs : s.grd.state ≠ .strapFault) (hg : g ≠ .strapFault)
    (hk : KeyInCustody s → KeyInCustody (s.setGuard g)) : Keeps s (s.setGuard g) :=
  .of_rules (by simp [hs]) (s.setGuard_bridge g) (·.congr (by simp)) hk fun _ => .of_state (by simpa using hg)

/-- Between states that are not open nothing is held before or after. -/
theorem State.setGuard_keeps_shut {s : State} {g : GuardState} (hs : s.grd.state ≠ .strapFault)
    (ho : s.grd.state.open_ = false) (hg : g ≠ .strapFault) (hgo : g.open_ = false) : Keeps s (s.setGuard g) := by
  refine State.setGuard_keeps hs hg fun h => ?_
  obtain ⟨hp, hm, hc, hb⟩ := h.shut ho
  refine State.setGuard_custody hp hm hc hb h.markLock ?_ ?_ <;> rintro rfl <;> exact Bool.noConfusion hgo

theorem State.endClosing_keeps {s : State} (h : s.grd.state = .closing) : Keeps s s.endClosing := by
  unfold State.endClosing
  have hdrop : Keeps s { s with
      cred := { s.cred with plainKey := none }
      grd := { s.grd with matched := none, mustChange := false } } :=
    .of_key (by simp) fun hk => ⟨nofun, nofun, fun ha => by simp [h] at ha, fun ho => by simp [h] at ho, nofun, hk.battery,
      hk.markLock⟩
  refine hdrop.trans (State.setGuard_keeps (by simp [h]) (by split <;> decide) fun hk => ?_)
  have hb : s.grd.batteryTimer = none := Option.isNone_iff_eq_none.1 (by simpa [h] using hk.battery)
  exact State.setGuard_custody rfl rfl rfl hb hk.markLock (by split <;> decide) (by split <;> decide)

theorem State.drained_keeps (s : State) : Keeps s s.drained :=
  .ite (fun h => State.endClosing_keeps h) fun _ => .refl s

theorem State.lockLocally_keeps (s : State) : Keeps s s.lockLocally := by
  refine .ite (fun h => ?_) fun _ => .refl s
  have hne : s.grd.state ≠ .closing ∧ s.grd.state ≠ .strapFault := by
    rcases h with h | h <;> rw [h] <;> decide
  have hstop : Keeps s { s with grd := { s.grd with batteryTimer := none } } :=
    .of_key (by simp) fun hk => ⟨hk.key, hk.matched, hk.admin, hk.user, hk.mustChange, nofun, hk.markLock⟩
  have hclose : Keeps { s with grd := { s.grd with batteryTimer := none } }
      (({ s with grd := { s.grd with batteryTimer := none } } : State).setGuard .closing) := by
    refine State.setGuard_keeps hne.2 (by decide) fun hk => ?_
    exact ⟨fun _ => by simp [GuardState.open_], fun _ => by simp [GuardState.open_], by simp, by simp,
      fun _ => by simp, by simp, fun hl => by simpa using State.setGuard_markLock hk.markLock hl⟩
  exact (hstop.trans hclose).trans (.ite (fun _ => State.drained_keeps _) fun _ => .refl _)

theorem State.lockForLine_keeps (s : State) : Keeps s s.lockForLine :=
  .ite (fun _ => s.lockLocally_keeps.trans (State.post_keeps _ _ _)) fun _ => .refl s

/-- Entry to an open state with its key: ADMIN by slot 0, OPEN by slots 1 and 2 (R7, R8). -/
theorem State.openStation_keeps {s : State} {slot : CodeSlotNo} {must : Bool} {plain : Option BankKey}
    (hf : s.grd.state ≠ .strapFault) (hslot : slot ≠ 3)
    (hmust : must = true → slot ≠ 0) : Keeps s (s.openStation slot must plain) := by
  have hstate : (s.openStation slot must plain).grd.state = if slot = 0 then .admin else .opened := by
    simp [State.openStation]
  have hmatched : (s.openStation slot must plain).grd.matched = some slot := by
    simp [State.openStation]
  have hchange : (s.openStation slot must plain).grd.mustChange = must := by
    simp [State.openStation]
  have hgs : (if slot = 0 then GuardState.admin else .opened) ≠ .strapFault := by split <;> decide
  have hkey : KeyInCustody s → KeyInCustody (s.openStation slot must plain) := by
    intro hk
    refine ⟨fun _ => ?_, fun _ => ?_, fun ha => ?_, fun ho => ?_, fun hm => ?_, fun _ => ?_, fun hl => ?_⟩
    · rw [hstate]; split <;> rfl
    · rw [hstate]; split <;> rfl
    · rw [hstate] at ha
      have : slot = 0 := by by_contra h0; simp [h0] at ha
      rw [hmatched, this]
    · rw [hstate] at ho
      have h0 : slot ≠ 0 := by rintro rfl; simp at ho
      rw [hmatched]
      revert hslot h0
      fin_cases slot <;> simp
    · rw [hchange] at hm
      rw [hstate, if_neg (hmust hm)]
      exact .inl rfl
    · rw [hstate]; split <;> simp
    · rw [hstate]
      exact State.setGuard_markLock (s := { s with
        cred := { s.cred with plainKey := plain }
        grd := { s.grd with
          matched := some slot
          mustChange := must
          batteryTimer := if s.sup.state = SupplyState.battery then some (s.now + Config.batteryOpen)
            else s.grd.batteryTimer } }) hk.markLock hl
  exact .of_rules (by simp [hf]) (State.setGuard_bridge _ _) (·.congr (by simp)) hkey fun _ => .of_state (by rwa [hstate])

/-- Entry to WIPING leaves nothing of the open states (R16). -/
theorem State.enterWiping_keeps {s : State} (hf : s.grd.state ≠ .strapFault) : Keeps s s.enterWiping :=
  .of_rules (by simp [hf]) (State.setGuard_bridge _ _) (·.congr (by simp))
    (fun h => State.setGuard_custody rfl rfl rfl rfl h.markLock (by decide) (by decide)) fun _ => .of_state (by simp)

/-- Entry to STRAP_FAULT leaves nothing that acts (R2). -/
theorem State.enterStrapFault_keeps (s : State) : Keeps s s.enterStrapFault := by
  have hgrd : s.enterStrapFault.grd.state = .strapFault := by simp [State.enterStrapFault]
  have hgate : GateInRange s.enterStrapFault := by
    refine ⟨?_, ?_, ?_, ?_⟩ <;> simp [State.enterStrapFault]
  have hkey : KeyInCustody s → KeyInCustody s.enterStrapFault := fun h => by
    have hlock : s.enterStrapFault.gate.markLockOpen = true → GuardState.strapFault = .admin :=
      State.setGuard_markLock (g := .strapFault) h.markLock
    refine ⟨?_, ?_, ?_, ?_, ?_, ?_, fun hl => nomatch hlock hl⟩ <;> simp [State.enterStrapFault]
  have hinert : InertInStrapFault s.enterStrapFault := ⟨fun _ _ => by simp [State.enterStrapFault]⟩
  exact .of_rules (by simp [hgrd]) (State.setGuard_bridge _ _) (fun _ => hgate) hkey fun _ => hinert

theorem State.takeDeadline_keeps (s : State) : Keeps s s.takeDeadline :=
  .ite (fun h => State.setGuard_keeps_shut (by simp [h]) (by simp [h, GuardState.open_]) (by decide) rfl)
    fun _ => .refl s

theorem State.moveDeadline_keeps (s : State) (d n : Nat) : Keeps s (s.moveDeadline d n) := by
  unfold State.moveDeadline
  have hmove : Keeps s (({ s with tal := { s.tal with deadline := some d } } : State).setOwed n) := (.of_same (by simp))
  exact hmove.trans (.ite (fun _ => .of_same (by simp)) fun _ => State.takeDeadline_keeps _)

theorem State.holdRequest_keeps (s : State) (n : Nat) : Keeps s (s.holdRequest n) := by
  unfold State.holdRequest
  dsimp only
  split
  · exact .ite (fun _ => .refl s) fun _ => s.moveDeadline_keeps _ _
  · exact s.moveDeadline_keeps _ _

theorem State.takeGap_keeps (s : State) : Keeps s s.takeGap :=
  (s.holdRequest_keeps _).trans (State.takeDeadline_keeps _)

theorem State.takeDueDeadline_keeps (s : State) : Keeps s s.takeDueDeadline :=
  .ite (fun _ => Keeps.trans (t := { s with grd := { s.grd with holdDue := false } }) (.of_same (by simp))
    (.ite (fun _ => State.takeDeadline_keeps _) fun _ => .refl _)) fun _ => .refl s

/-! ## The triggers and the end of an event -/

/-- In STRAP_FAULT the notices of an event are dropped (R127). -/
theorem State.drain_strapFault {s : State} (h : s.grd.state = .strapFault) : s.drain = { s with notices := [] } := by
  have key : ∀ (n : Nat) (u : State), u.grd.state = .strapFault → drainNotices n u = { u with notices := [] } := by
    intro n
    induction n with
    | zero => exact fun _ _ => rfl
    | succ n ih =>
      intro u hu
      simp only [drainNotices]
      split
      · next hnil => rw [← hnil]
      · next x xs _ =>
        have htake : State.takeNotice { u with notices := xs } x = { u with notices := xs } := if_pos hu
        rw [htake]
        exact ih { u with notices := xs } hu
  exact key _ s h

theorem State.drain_keeps_rules (s : State) : Keeps s s.drain := by
  by_cases h : s.grd.state = .strapFault
  · rw [State.drain_strapFault h]
    exact (.of_same (by simp))
  · have hstep : ∀ {u v : State}, Keeps u v → u.grd.state.triggersMay v.grd.state →
        Keeps s u ∧ u.grd.state ≠ .strapFault → Keeps s v ∧ v.grd.state ≠ .strapFault := by
      rintro u v hv hm ⟨hu, hne⟩
      refine ⟨hu.trans hv, ?_⟩
      rcases hm with he | ⟨-, he | he | he⟩ | ⟨-, he⟩ <;> rw [he]
      · exact hne
      all_goals decide
    refine (s.drain_keeps_all (fun u => Keeps s u ∧ u.grd.state ≠ .strapFault) ?_ ?_ ?_ ?_ ?_ ?_ ⟨.refl s, h⟩).1
    · exact fun u l => hstep (.of_same (by simp)) (.refl _)
    · exact fun u n => hstep (u.holdRequest_keeps n) (u.holdRequest_triggersMay n)
    · exact fun u => hstep u.lockLocally_keeps u.lockLocally_triggersMay
    · exact fun u k a => hstep (u.post_keeps k a) (.inl (by simp))
    · exact fun u n => hstep (u.pulse_keeps n) (.inl (by simp))
    · exact fun u p _ hu => hstep (u := u) (v := { u with pol := p }) (.of_inert (by simp) fun _ => .of_state hu.2) (.refl _) hu

/-- A request is issued where the arbiter may pass over an erase once more (R133, R137). -/
theorem GateInRange.issueAccess {s : State} (h : GateInRange s) {r : BridgeRequest} (hroom : s.gate.outstanding.length < 4)
    (hyield : s.gate.eraseWaiting.isSome = true → s.gate.yieldCount < 8) : GateInRange (s.issueAccess r) where
  outstanding := by
    rw [State.issueAccess_outstanding, List.length_append]
    exact hroom
  yielded := by
    have hcount : (s.issueAccess r).gate.yieldCount
        = if s.gate.eraseWaiting.isSome then s.gate.yieldCount + 1 else s.gate.yieldCount := rfl
    rw [hcount]
    split
    · next hw => exact hyield hw
    · exact h.yielded
  noneWaiting hw := by
    have hn : s.gate.eraseWaiting = none := hw
    simp [State.issueAccess, hn, h.noneWaiting hn]
  sameErase := h.sameErase

theorem bridgeCandidate_some {s : State} {r : BridgeRequest} (h : bridgeCandidate s = some r) :
    s.gate.presented = some r ∧ gateDecision s r = .forward ∧ s.gate.outstanding.length < Config.outstandingMax := by
  unfold bridgeCandidate at h
  split at h
  · exact nomatch h
  · next q hq =>
    split at h
    · next hd =>
      cases h
      exact ⟨hq, hd⟩
    · exact nomatch h

/-- What the grant may do (R137): nothing, issue the waiting erase, or issue the presented request, which is forwarded and
has room, before an erase passed over fewer than eight times. -/
theorem State.grantPort_cases (s : State) :
    s.grantPort = s
      ∨ (s.grd.state ≠ .strapFault ∧ ∃ e, s.gate.eraseWaiting = some e ∧ s.grantPort = s.issueErase e)
      ∨ ∃ r, gateDecision s r = .forward ∧ s.gate.outstanding.length < Config.outstandingMax
          ∧ (s.gate.eraseWaiting.isSome = true → s.gate.yieldCount < Config.wipeYield)
          ∧ s.grantPort = s.issueAccess r := by
  unfold State.grantPort
  split
  · next hready =>
    have hstrap : s.grd.state ≠ .strapFault := by
      intro h
      simp [h] at hready
    split
    · exact .inl rfl
    · next e _ he => exact .inr (.inl ⟨hstrap, e, he, rfl⟩)
    · next r hr he =>
      obtain ⟨-, hd, hroom⟩ := bridgeCandidate_some hr
      exact .inr (.inr ⟨r, hd, hroom, fun hw => by simp [he] at hw, rfl⟩)
    · next r e hr he =>
      obtain ⟨-, hd, hroom⟩ := bridgeCandidate_some hr
      split
      · next hy => exact .inr (.inr ⟨r, hd, hroom, fun _ => hy, rfl⟩)
      · exact .inr (.inl ⟨hstrap, e, he, rfl⟩)
  · exact .inl rfl

theorem State.grantPort_gateInRange {s : State} (h : GateInRange s) : GateInRange s.grantPort := by
  rcases s.grantPort_cases with hg | ⟨-, e, -, hg⟩ | ⟨r, -, hroom, hyield, hg⟩ <;> rw [hg]
  · exact h
  · exact ⟨h.outstanding, Nat.zero_le _, fun _ => rfl, by simp [State.issueErase]⟩
  · exact h.issueAccess hroom hyield

theorem State.grantPort_custody {s : State} (h : KeyInCustody s) : KeyInCustody s.grantPort := by
  rcases s.grantPort_cases with hg | ⟨-, e, -, hg⟩ | ⟨r, -, -, -, hg⟩ <;> rw [hg]
  · exact h
  · exact h.congr ⟨rfl, rfl, rfl, rfl, rfl, rfl⟩
  · exact h.congr ⟨rfl, rfl, rfl, rfl, rfl, rfl⟩

theorem State.grantPort_inert {s : State} (h : InertInStrapFault s) : InertInStrapFault s.grantPort := by
  by_cases hs : s.grd.state = .strapFault
  · have hg : s.grantPort = s := by simp [State.grantPort, hs]
    rwa [hg]
  · exact .of_state (by simpa using hs)

/-- The end of an event keeps the rules; what it sends to the bank is granted. -/
theorem State.settle_rules (s : State) :
    (GateInRange s → GateInRange s.settle) ∧ (KeyInCustody s → KeyInCustody s.settle)
      ∧ (InertInStrapFault s → InertInStrapFault s.settle) := by
  have hpre : Keeps s s.drain.regate := s.drain_keeps_rules.trans (State.regate_keeps _)
  have hpost : ∀ u : State, Keeps u u.dormantIfQuiet := by
    intro u
    rcases u.dormantIfQuiet_cases with h | ⟨-, -, h⟩ <;> rw [h]
    · exact .refl u
    · exact .of_same (by simp [State.enterDormant])
  exact ⟨fun h => (hpost _).gate (State.grantPort_gateInRange (hpre.gate h)),
    fun h => (hpost _).key (State.grantPort_custody (hpre.key h)),
    fun h => (hpost _).inert (State.grantPort_inert (hpre.inert h))⟩

end Sys2Proof.Machine
end

section
/-! PROOF. What the blocks' operations keep, in the order of the model: stores, wipe engine, keypad, line, round ends. -/

namespace Sys2Proof.Machine

/-! ## Wipe engine -/

theorem State.passStep_keeps {s : State} (hf : s.grd.state ≠ .strapFault) : Keeps s s.passStep := by
  unfold State.passStep
  dsimp only
  split
  · exact (.of_same (by simp))
  · split
    · exact .of_gate_inert (by simp) (fun h => ⟨h.outstanding, Nat.zero_le _, nofun, by simp⟩) fun _ => .of_state hf
    · exact (.of_same (by simp))

theorem State.engineStep_keeps (s : State) : Keeps s s.engineStep := by
  unfold State.engineStep
  split
  · next h =>
    obtain ⟨hw, -⟩ := h
    split
    · exact (.of_same (by simp))
    · exact .ite (fun _ => State.passStep_keeps (by simp [hw])) fun _ => .refl s
    · exact .refl s
  · exact .refl s

theorem State.reachDone_keeps (s : State) : Keeps s s.reachDone := by
  unfold State.reachDone
  dsimp only
  split
  · exact (s.post_keeps .progress 0).trans (.of_same (by simp))
  · exact (Keeps.trans (t := s.putMarks (releaseFrozen s.gate.fixedMarks) false) (.of_same (by simp)) (State.post_keeps _ .progress 0)).trans (.of_same (by simp))

theorem State.orderInForce_keeps {s : State} (hf : s.grd.state ≠ .strapFault) : Keeps s s.orderInForce := by
  unfold State.orderInForce
  dsimp only
  split
  · exact (.of_same (by simp))
  · exact (Keeps.trans (t := { s with wipe := { s.wipe with orderPending := none } }) (.of_same (by simp))
      (State.enterWiping_keeps hf)).trans (.of_same (by simp))

theorem State.not_strapFault_of_mayStore {s : State} (h : ¬(!s.mayStore) = true) : s.grd.state ≠ .strapFault := by
  simpa [State.mayStore] using h

theorem State.journalMade_keeps (s : State) : Keeps s s.journalMade := by
  unfold State.journalMade
  split
  · exact .refl s
  · next j _ =>
    dsimp only
    refine Keeps.trans (t := { s with
      nv := { s.nv with journal := j }
      wipe := { s.wipe with
        journal := j, waiting := none, busy := if s.mayStore then s.wipe.waiting else none } }) (.of_same (by simp)) ?_
    refine .ite (fun _ => .refl _) fun hf => ?_
    have hne : s.grd.state ≠ .strapFault := State.not_strapFault_of_mayStore hf
    cases j.phase with
    | ordered => exact .ite (fun _ => .refl _) fun _ => State.orderInForce_keeps hne
    | done => exact .ite (fun _ => .refl _) fun _ => State.reachDone_keeps _
    | none => exact .refl _
    | keyGone | passing => exact State.engineStep_keeps _

theorem State.journalFailed_keeps (s : State) (now : Bool) : Keeps s (s.journalFailed now) := by
  unfold State.journalFailed
  split
  · exact .refl s
  · dsimp only
    refine (s.setFlag_keeps .storeFail).trans ?_
    split
    · exact (.of_same (by simp))
    · split
      · exact (.of_same (by simp))
      · exact .ite (fun _ => .refl _) fun _ => (.of_same (by simp))

/-- The erase that ends was issued, so none waits (R138, R152). -/
theorem State.eraseEnded_keeps {s : State} (h : s.wipe.erase = .issued) (success : Bool) :
    Keeps s (s.eraseEnded success) := by
  unfold State.eraseEnded
  have hend : Keeps s { s with wipe := { s.wipe with erase := .absent } } :=
    .of_gate_inert (by simp) (fun hg => ⟨hg.outstanding, hg.yielded, hg.noneWaiting, by simpa [h] using hg.sameErase⟩)
      (·.mono (by simp))
  dsimp only
  refine hend.trans ?_
  split
  · exact (.of_same (by simp))
  · split
    · exact (.of_same (by simp))
    · exact Keeps.trans (.of_same (by simp)) (State.setFlag_keeps _ _)

theorem State.abandonErase_keeps (s : State) : Keeps s s.abandonErase :=
  .of_gate_inert (by simp)
    (fun h => ⟨h.outstanding, Nat.zero_le _, fun _ => rfl, by simp [State.abandonErase, State.dropErase]⟩)
    (·.mono (by simp [State.abandonErase, State.dropErase]))

theorem State.returnToBlank_keeps (s : State) (n : Nat) : Keeps s (s.returnToBlank n) := by
  unfold State.returnToBlank
  dsimp only
  have hshut : ∀ u : State, Keeps u (if u.grd.state = .wiping then u.setGuard .blank else u) := fun u =>
    .ite (fun h => State.setGuard_keeps_shut (by simp [h]) (by simp [h, GuardState.open_]) (by decide) rfl)
      fun _ => .refl u
  have hclear : ∀ u : State, Keeps u (u.setTally 0).clearHold := fun u => (u.setTally_keeps 0).trans (State.clearHold_keeps _)
  refine .trans ?_ (hshut _)
  refine .trans ?_ (hclear _)
  split
  · exact Keeps.trans (.of_same (by simp)) (State.setFlag_keeps _ _)
  · exact (.of_same (by simp))

theorem State.endStarting_keeps {s : State} (h : s.grd.state = .starting) (adopted : Bool) :
    Keeps s (s.endStarting adopted) := by
  unfold State.endStarting
  split
  · dsimp only
    have hwipe : Keeps s (s.note .startingEnded).enterWiping.engineStep :=
      ((s.note_keeps _).trans (State.enterWiping_keeps (by simp [h]))).trans (State.engineStep_keeps _)
    exact hwipe.trans (.ite (fun _ => State.reachDone_keeps _) fun _ => .refl _)
  · have hshut : ∀ u : State, u.grd.state = .starting → ∀ g : GuardState, g ≠ .strapFault → g.open_ = false →
        Keeps s u → Keeps s ((u.note .startingEnded).setGuard g) := fun u hu g hg ho hk =>
      (hk.trans (u.note_keeps _)).trans
        (State.setGuard_keeps_shut (by simp [hu]) (by simp [hu, GuardState.open_]) hg ho)
    dsimp only
    refine hshut _ ?_ _ ?_ ?_ ?_
    · split <;> exact h
    · repeat' split
      all_goals decide
    · repeat' split
      all_goals rfl
    · exact .ite (fun _ => (.of_same (by simp))) fun _ => .refl s

theorem State.credEndMade_keeps (s : State) : Keeps s s.credEndMade := (.of_same (by simp))

theorem State.credFailed_keeps (s : State) : Keeps s s.credFailed := by
  unfold State.credFailed
  split
  · exact .refl s
  · dsimp only
    refine (s.setFlag_keeps .storeFail).trans ?_
    split
    · exact (.of_same (by simp))
    · exact (.of_same (by simp))
    · exact .ite (fun _ => .refl _) fun _ => (.of_same (by simp))
    · exact .ite (fun _ => .refl _) fun _ => (.of_same (by simp))

theorem State.marksMade_keeps (s : State) : Keeps s s.marksMade := (.of_same (by simp))

theorem State.marksFailed_keeps (s : State) : Keeps s s.marksFailed := by
  unfold State.marksFailed
  split
  · exact .refl s
  · exact Keeps.trans (.of_same (by simp)) (State.setFlag_keeps _ _)

theorem State.pmMade_keeps (s : State) : Keeps s s.pmMade := (.of_same (by simp))

theorem State.pmFailed_keeps (s : State) : Keeps s s.pmFailed := by
  unfold State.pmFailed
  split
  · exact .refl s
  · exact (Keeps.trans (t := { s with gate := { s.gate with pendingMark := none } }) (.of_same (by simp))
      (State.setFlag_keeps _ .storeFail)).trans (.of_same (by simp))
  · exact (s.setFlag_keeps .storeFail).trans (.ite (fun _ => .refl _) fun _ => (.of_same (by simp)))

theorem State.tallyMade_keeps (s : State) : Keeps s s.tallyMade := (.of_same (by simp))

theorem State.tallyFailed_keeps (s : State) (now : Bool) : Keeps s (s.tallyFailed now) := by
  unfold State.tallyFailed
  split
  · exact .refl s
  · exact Keeps.trans (.of_same (by simp)) (State.setFlag_keeps _ _)

theorem State.owedEnded_keeps (s : State) (made : Bool) : Keeps s (s.owedEnded made) := by
  unfold State.owedEnded
  split
  · exact .refl s
  · exact .ite (fun _ => (.of_same (by simp))) fun _ => Keeps.trans (.of_same (by simp)) (State.setFlag_keeps _ _)

theorem State.policyEnded_keeps (s : State) (made : Bool) : Keeps s (s.policyEnded made) := by
  unfold State.policyEnded
  split
  · exact .refl s
  · exact .ite (fun _ => (.of_same (by simp))) fun _ => Keeps.trans (.of_same (by simp)) (State.setFlag_keeps _ _)

theorem State.flagsEnded_keeps (s : State) (made : Bool) : Keeps s (s.flagsEnded made) := by
  unfold State.flagsEnded
  split
  · exact .refl s
  · exact .ite (fun _ => (.of_same (by simp))) fun _ => (s.setFlag_keeps .storeFail).trans (.of_same (by simp))

/-! ## Keypad -/

theorem State.keypadIdle_keeps (s : State) : Keeps s s.keypadIdle := (.of_same (by simp))
theorem State.keypadRefuse_keeps (s : State) : Keeps s s.keypadRefuse := (.of_same (by simp))

theorem State.submit_keeps (s : State) : Keeps s s.submit := by
  unfold State.submit
  dsimp only
  split
  · exact Keeps.trans (.of_same (by simp)) (State.post_keeps _ _ _)
  · exact s.keypadRefuse_keeps

theorem State.holdChange_keeps (s : State) (t : CodeSlotNo) (r : Role) (c : List Digit) : Keeps s (s.holdChange t r c) := by
  unfold State.holdChange
  exact Keeps.trans (.of_same (by simp)) (State.post_keeps _ _ _)

theorem State.secondCodeEntered_keeps (s : State) : Keeps s s.secondCodeEntered := by
  unfold State.secondCodeEntered
  dsimp only
  split
  · refine .ite (fun _ => s.keypadRefuse_keeps) fun _ => .ite (fun _ => s.keypadRefuse_keeps) fun _ =>
      .ite (fun _ => s.keypadRefuse_keeps) fun _ => s.keypadIdle_keeps.trans (State.holdChange_keeps _ _ _ _)
  · exact s.keypadRefuse_keeps

theorem State.newCode_keeps (s : State) (t : CodeSlotNo) (r : Role) : Keeps s (s.newCode t r) := (.of_same (by simp))

theorem State.commandDigit_keeps (s : State) (d : Digit) : Keeps s (s.commandDigit d) := by
  unfold State.commandDigit
  split
  · exact s.keypadRefuse_keeps
  · dsimp only
    generalize (if d = 1 then some 1 else if d = 2 then some 2 else if d = 3 then some 3 else none : Option CodeSlotNo) = target
    refine .ite (fun _ => ?_) fun _ => .ite (fun _ => ?_) fun _ => s.keypadRefuse_keeps
    · cases target with
      | none => exact s.keypadRefuse_keeps
      | some t =>
        exact .ite (fun _ => s.keypadRefuse_keeps) fun _ => s.keypadIdle_keeps.trans (State.holdChange_keeps _ _ _ _)
    · cases target with
      | none => exact s.keypadRefuse_keeps
      | some t => exact .ite (fun _ => s.keypadRefuse_keeps) fun _ => s.newCode_keeps _ _

theorem State.markEntered_keeps (s : State) : Keeps s s.markEntered := by
  unfold State.markEntered
  split
  · exact .ite (fun _ => s.keypadIdle_keeps.trans (State.post_keeps _ _ _)) fun _ => s.keypadRefuse_keeps
  · exact s.keypadRefuse_keeps

theorem State.keypadLock_keeps (s : State) : Keeps s s.keypadLock := s.lockLocally_keeps.trans (State.post_keeps _ _ _)

theorem State.toggleMarkLock_keeps (s : State) : Keeps s s.toggleMarkLock :=
  .ite (fun h => .of_key (by simp) fun hk =>
    ⟨hk.key, hk.matched, hk.admin, hk.user, hk.mustChange, hk.battery, fun _ => h⟩)
    fun _ => .refl s

theorem State.armAll_keeps {s : State} (hf : s.grd.state ≠ .strapFault) : Keeps s s.armAll :=
  .ite (fun _ => s.pulse_keeps 1) fun _ => .of_inert (by simp) fun _ => .of_state hf

theorem State.openCommand_keeps (s : State) (m : KeypadMode) (c : Digit) : Keeps s (s.openCommand m c) := (.of_same (by simp))

theorem State.chordInIdle_keeps {s : State} (hf : s.grd.state ≠ .strapFault) (d : Digit) : Keeps s (s.chordInIdle d) := by
  unfold State.chordInIdle
  refine .ite (fun _ => s.keypadLock_keeps) fun _ => .ite (fun _ => ?_) fun _ => .ite (fun _ => .refl s) fun _ =>
    .ite (fun _ => s.post_keeps _ _) fun _ => .ite (fun _ => .refl s) fun _ => .ite (fun _ => s.openCommand_keeps _ _)
    fun _ => .ite (fun _ => s.toggleMarkLock_keeps) fun _ => .ite (fun _ => s.openCommand_keeps _ _) fun _ =>
    .ite (fun _ => s.openCommand_keeps _ _) fun _ => .ite (fun _ => s.newCode_keeps _ _) fun _ =>
    .ite (fun _ => State.armAll_keeps hf) fun _ => s.openCommand_keeps _ _
  split
  · exact s.newCode_keeps _ _
  · exact .refl s

theorem State.takeChord_keeps (s : State) (d : Digit) : Keeps s (s.takeChord d) := by
  unfold State.takeChord
  refine .ite (fun h => ?_) fun _ => .refl s
  have hf : s.grd.state ≠ .strapFault := by rcases h with h | h <;> simp [h]
  cases s.key.mode with
  | idle => exact State.chordInIdle_keeps hf d
  | newFirst | newSecond => exact .ite (fun _ => s.keypadLock_keeps) fun _ => .refl s
  | command =>
    exact .ite (fun _ => s.keypadLock_keeps) fun _ =>
      .ite (fun _ => s.keypadIdle_keeps.trans (State.post_keeps _ _ _)) fun _ => s.keypadRefuse_keeps
  | markEntry => exact .ite (fun _ => s.keypadLock_keeps) fun _ => s.keypadRefuse_keeps
  | collecting | resetHold => exact .refl s

theorem State.takeChordUnlock_keeps (s : State) : Keeps s s.takeChordUnlock := (.of_same (by simp))

theorem State.takeDigit_keeps (s : State) (d : Digit) : Keeps s (s.takeDigit d) := by
  unfold State.takeDigit
  cases s.key.mode with
  | idle | collecting => exact .ite (fun _ => (.of_same (by simp))) fun _ => .refl s
  | newFirst | newSecond => exact (.of_same (by simp))
  | command => exact s.commandDigit_keeps d
  | markEntry => exact (.of_same (by simp))
  | resetHold => exact .refl s

theorem State.takeUnlock_keeps (s : State) : Keeps s s.takeUnlock := by
  unfold State.takeUnlock
  cases s.key.mode with
  | idle | collecting => exact .ite (fun _ => s.submit_keeps) fun _ => .refl s
  | newFirst => exact (.of_same (by simp))
  | newSecond => exact s.secondCodeEntered_keeps
  | command => exact s.keypadRefuse_keeps
  | markEntry => exact s.markEntered_keeps
  | resetHold => exact .refl s

theorem State.takePress_keeps (s : State) (k : Key) : Keeps s (s.takePress k) := by
  unfold State.takePress
  refine .ite (fun _ => ?_) fun _ => .refl s
  cases classify k s.key.states with
  | modifier | ignored => exact .refl s
  | digit d => exact s.takeDigit_keeps d
  | chord d => exact .ite (fun _ => s.takeDigit_keeps d) fun _ => s.takeChord_keeps d
  | chordUnlock => exact s.takeChordUnlock_keeps
  | unlock => exact s.takeUnlock_keeps

theorem State.press_keeps (s : State) (k : Key) : Keeps s (s.press k) :=
  .ite (fun _ => (.of_same (by simp))) fun _ => .ite (fun _ => .refl s) fun _ => s.takePress_keeps k

theorem State.takeSetAside_keeps (s : State) : Keeps s s.takeSetAside := by
  have hfold : ∀ (l : List Key) (u : State), Keeps s u → Keeps s (l.foldl State.takePress u) := by
    intro l
    induction l with
    | nil => exact fun _ h => h
    | cons x l ih => exact fun u h => ih _ (h.trans (u.takePress_keeps x))
  exact hfold _ _ (.of_same (by simp))

theorem State.recognizePress_keeps (s : State) (k : Key) : Keeps s (s.recognizePress k) := by
  unfold State.recognizePress
  dsimp only
  have hdown : Keeps s ({ s with key := { s.key.stopDebounce k with states := s.key.states ||| keyMask k } } : State).activityEvent :=
    Keeps.trans (.of_same (by simp)) (State.activityEvent_keeps _)
  exact hdown.trans (.ite (fun _ => .refl _) fun _ => State.press_keeps _ k)

theorem State.recognizeRelease_keeps (s : State) (k : Key) : Keeps s (s.recognizeRelease k) := (.of_same (by simp))

end Sys2Proof.Machine
end

section
/-! PROOF. What the line's and the round engine's operations keep, from the marks and ends of fields to the ends of
rounds. -/

namespace Sys2Proof.Machine

/-- A station that tracks a round is not an inert one in STRAP_FAULT. -/
theorem InertInStrapFault.of_round {s t : State} {r : RoundRec} (h : InertInStrapFault s) (hr : s.eng.round = some r)
    (e : t.grd.state = s.grd.state ∧ t.sup.state = s.sup.state) : InertInStrapFault t where
  inert hg ho := by
    obtain ⟨state, on⟩ := e
    obtain ⟨-, hround, -⟩ := h.inert (state ▸ hg) (on ▸ ho)
    exact nomatch hr.symm.trans hround

/-! ## The queue at a round's end, rejection -/

theorem State.endQueue_keeps (s : State) (r : RoundRec) : Keeps s (s.endQueue r) := by
  have hqueue : s.eng.queue = [] → (s.endQueue r).eng.queue = [] := by
    intro hq
    unfold State.endQueue
    simp [hq]
  have hround : s.eng.round = none → (s.endQueue r).eng.round = none := by
    intro hr
    unfold State.endQueue
    dsimp only
    split <;> simp [hr]
  exact .of_inert (by simp) fun h => h.mono (by simp; exact ⟨hqueue, hround⟩)

theorem State.repeatTallyAndOwed_keeps (s : State) : Keeps s s.repeatTallyAndOwed := (.of_same (by simp))
theorem State.repeatJournal_keeps (s : State) : Keeps s s.repeatJournal := (.of_same (by simp))
theorem State.discardMark_keeps (s : State) : Keeps s s.discardMark := (.of_same (by simp))

theorem State.ownersVoid_keeps (s : State) (r : RoundRec) : Keeps s (s.ownersVoid r) := by
  unfold State.ownersVoid
  split
  · dsimp only
    split
    · exact (s.setFlag_keeps .splitEntry).trans (.of_same (by simp))
    · split
      · exact s.takeGap_keeps.trans (.of_same (by simp))
      · exact (.of_same (by simp))
  · exact .of_same (by simp)
  · exact .ite (fun _ => .ite (fun _ => s.discardMark_keeps) fun _ => (.of_same (by simp))) fun _ => .refl s
  · exact (.of_same (by simp))
  · exact .refl s

theorem State.ownersReject_keeps (s : State) (r : RoundRec) : Keeps s (s.ownersReject r) := by
  unfold State.ownersReject
  refine .trans ?_ (State.takeDueDeadline_keeps _)
  exact .ite (fun _ => s.ownersVoid_keeps r) fun _ => .refl s

theorem State.rejectTo_keeps (s : State) (line : LineIf) : Keeps s (s.rejectTo line) := by
  unfold State.rejectTo
  split
  · exact .refl s
  · next r hr =>
    have hdrop : Keeps s { s with line := line, eng := { s.eng with round := none } } :=
      .of_inert (by simp) fun h => h.of_round hr (by simp)
    exact (((((hdrop.trans (State.ownersReject_keeps _ _)).trans (State.endQueue_keeps _ _)).trans
      (State.repeatTallyAndOwed_keeps _)).trans (State.repeatJournal_keeps _)).trans
      (State.lockForLine_keeps _)).trans (State.takeSetAside_keeps _)

theorem State.rejectRound_keeps (s : State) : Keeps s s.rejectRound := s.rejectTo_keeps _

theorem State.truncate_keeps (s : State) : Keeps s s.truncate := (s.setFlag_keeps _).trans (State.rejectRound_keeps _)

/-! ## Fields -/

theorem State.mapRound_keeps (s : State) (f : RoundRec → RoundRec) : Keeps s (s.mapRound f) := (.of_same (by simp))
theorem State.unsend_keeps (s : State) : Keeps s s.unsend := (.of_same (by simp))

theorem State.awaitField_keeps (s : State) (f : Field) : Keeps s (s.awaitField f) :=
  .of_same (by simp [State.awaitField])

theorem State.awaitNext_keeps (s : State) (r : RoundRec) (f : Field) : Keeps s (s.awaitNext r f) := by
  unfold State.awaitNext
  split
  · exact s.awaitField_keeps _
  · exact .refl s

theorem State.enterField_keeps {s : State} {r : RoundRec} (hr : s.eng.round = some r) (f : Field) :
    Keeps s (s.enterField r f) :=
  .of_inert (by simp) fun h => h.of_round hr (by simp)

theorem State.markMissing_keeps {s : State} {r : RoundRec} (hr : s.eng.round = some r) : Keeps s s.markMissing := by
  unfold State.markMissing
  have hline : Keeps s { s with line := s.line.turnRecessive s.now } := .of_inert (by simp) fun h => h.of_round hr (by simp)
  exact hline.trans (State.truncate_keeps _)

theorem State.fieldMarked_keeps (s : State) (level : Level) : Keeps s (s.fieldMarked level) := by
  unfold State.fieldMarked
  split
  · next r f hr _ =>
    exact .ite (fun _ => State.enterField_keeps hr f) fun _ => State.markMissing_keeps hr
  · next r f bit hr _ =>
    exact .ite (fun _ => .ite (fun _ => .of_inert (by simp) fun h => h.of_round hr (by simp)) fun _ => State.markMissing_keeps hr)
      fun _ => .refl s
  · exact .refl s

theorem State.judgeContention_keeps {s : State} {r : RoundRec} (hr : s.eng.round = some r) (v : LineBits) :
    Keeps s (s.judgeContention v) :=
  .of_inert (by simp) fun h => h.of_round hr (by simp)

theorem State.kindEnded_keeps {s : State} {r : RoundRec} (hr : s.eng.round = some r) (read : LineBits) :
    Keeps s (s.kindEnded read) := by
  unfold State.kindEnded
  dsimp only
  refine (State.judgeContention_keeps hr (lineValue s.line.offer (fieldBits .kind read))).trans ?_
  split
  · exact (State.setFlag_keeps _ _).trans (State.rejectRound_keeps _)
  · exact (State.setFlag_keeps _ _).trans (State.rejectRound_keeps _)
  · refine (State.unsend_keeps _).trans ?_
    have hgap : ∀ u : State, Keeps u { u with line := u.line.toGap, eng := { u.eng with round := none } } := fun u =>
      .of_same (by simp [LineIf.toGap])
    exact ((hgap _).trans (State.repeatTallyAndOwed_keeps _)).trans (State.repeatJournal_keeps _)
  · exact (State.mapRound_keeps _ _).trans (State.awaitField_keeps _ _)

theorem State.argEnded_keeps {s : State} {r : RoundRec} (hr : s.eng.round = some r) (read : LineBits) :
    Keeps s (s.argEnded read) :=
  .of_inert (by simp) fun h => h.of_round hr (by simp)

theorem State.openersEnded_keeps (s : State) (r : RoundRec) (read : LineBits) : Keeps s (s.openersEnded r read) := by
  unfold State.openersEnded
  dsimp only
  refine (s.mapRound_keeps fun r => { r with openers := takenOpeners s.sup (s.line.offer == .slot) (read.setWidth 9) }).trans ?_
  split
  · exact .refl _
  · exact .ite (fun _ => State.truncate_keeps _) fun _ => .ite (fun _ => State.truncate_keeps _) fun _ =>
      .ite (fun _ => ((State.setFlag_keeps _ _).trans (State.mapRound_keeps _ _)).trans (State.awaitField_keeps _ _))
        fun _ => State.awaitField_keeps _ _

theorem State.handEntry_keeps (s : State) : Keeps s s.handEntry := by
  unfold State.handEntry
  exact Keeps.trans (.of_same (by simp)) (State.unqueue_keeps _ .check)

theorem State.handChange_keeps (s : State) (a : Arg) : Keeps s (s.handChange a) := (.of_same (by simp))

theorem State.dropSetAside_keeps (s : State) : Keeps s s.dropSetAside := (.of_same (by simp))

theorem State.answerEnded_keeps (s : State) (r : RoundRec) (read : LineBits) : Keeps s (s.answerEnded r read) := by
  unfold State.answerEnded
  dsimp only
  have hawait : Keeps s ((s.mapRound fun r => { r with
      answer := takenMap s.sup (s.line.offer == .slot) (read.setWidth 8), answered := s.line.offer == .slot }).awaitNext r
        .answer) := (s.mapRound_keeps _).trans (State.awaitNext_keeps _ _ _)
  split
  · refine .trans (hawait.trans ?_) (State.dropSetAside_keeps _)
    split
    · exact State.handEntry_keeps _
    · exact State.handChange_keeps _ _
    · exact .refl _
  · exact hawait.trans (State.takeSetAside_keeps _)

theorem State.bodyEnded_keeps (s : State) (r : RoundRec) (f : Field) (read : LineBits) :
    Keeps s (s.bodyEnded r f read) := (s.mapRound_keeps _).trans (State.awaitNext_keeps _ _ _)

theorem State.faultDisarm_keeps (s : State) : Keeps s s.faultDisarm :=
  .ite (fun _ => .of_same (by simp)) fun _ => .refl s

theorem State.serialEnded_keeps (s : State) (r : RoundRec) (read : LineBits) : Keeps s (s.serialEnded r read) :=
  .ite (fun _ => ((s.setFlag_keeps _).trans (State.faultDisarm_keeps _)).trans (State.enterStrapFault_keeps _))
    fun _ => s.bodyEnded_keeps _ _ _

theorem State.detailEnded_keeps (s : State) (r : RoundRec) (read : LineBits) : Keeps s (s.detailEnded r read) := by
  unfold State.detailEnded
  refine .trans ?_ (State.bodyEnded_keeps _ _ _ _)
  exact .ite (fun _ => (s.setFlag_keeps _).trans (State.mapRound_keeps _ _)) fun _ => .refl s

theorem State.senseField_keeps {s : State} {r : RoundRec} (hr : s.eng.round = some r) (f : Field) (read : LineBits) :
    Keeps s (s.senseField f read) :=
  .of_inert (by simp) fun h => h.of_round hr (by simp)

theorem State.fieldEnded_keeps (s : State) (read : LineBits) : Keeps s (s.fieldEnded read) := by
  unfold State.fieldEnded
  split
  · next r f bit hr _ =>
    refine .ite (fun _ => .refl s) fun _ => (State.senseField_keeps hr f read).trans ?_
    have hr' : (s.senseField f read).eng.round = some r := by simpa using hr
    cases f with
    | hold | accept => exact .refl _
    | kind => exact State.kindEnded_keeps hr' read
    | arg => exact State.argEnded_keeps hr' read
    | openers => exact State.openersEnded_keeps _ r read
    | answer => exact State.answerEnded_keeps _ r read
    | serial => exact State.serialEnded_keeps _ r read
    | detail => exact State.detailEnded_keeps _ r read
    | tallyHi | stampHi | stampLo | wipeAny | policyLo | policyHi | fingerprint | agree | stored | verdict | verdictAgree
    | done | badHi | summary | item => exact State.bodyEnded_keeps _ r _ read
  · exact .refl s

/-! ## Hold fields -/

theorem State.holdEnd_keeps (s : State) : Keeps s s.holdEnd := by
  unfold State.holdEnd
  split
  · dsimp only
    refine Keeps.trans (.trans (s.mapRound_keeps fun r => { r with holdEnded := true }) ?_)
      (State.repeatTallyAndOwed_keeps _)
    exact .of_same (by simp [LineIf.turnRecessive])
  · exact .refl s

theorem State.holdMaxReached_keeps (s : State) : Keeps s s.holdMaxReached := by
  unfold State.holdMaxReached
  split
  · next t _ =>
    refine .ite (fun _ => (s.reach_keeps t).trans ?_) fun _ => .refl s
    exact .of_same (by simp)
  · exact .refl s

theorem State.ownerMade_keeps (s : State) (o : HoldOwner) : Keeps s (s.ownerMade o) := by
  cases o with
  | tally => exact s.tallyMade_keeps
  | credential => exact s.credEndMade_keeps
  | pendingMark => exact s.pmMade_keeps
  | journal => exact s.journalMade_keeps

theorem State.ownerFailed_keeps (s : State) (o : HoldOwner) : Keeps s (s.ownerFailed o) := by
  cases o with
  | tally => exact s.tallyFailed_keeps _
  | credential => exact s.credFailed_keeps
  | pendingMark => exact s.pmFailed_keeps
  | journal => exact s.journalFailed_keeps _

theorem State.release_keeps (s : State) : Keeps s s.release := (.of_same (by simp))

theorem State.heldStoreMade_keeps (s : State) : Keeps s s.heldStoreMade := by
  unfold State.heldStoreMade
  split
  · exact (s.release_keeps.trans (State.mapRound_keeps _ _)).trans (State.ownerMade_keeps _ _)
  · exact .refl s

theorem State.heldStoreFailed_keeps (s : State) : Keeps s s.heldStoreFailed := by
  unfold State.heldStoreFailed
  split
  · exact s.release_keeps.trans (State.ownerFailed_keeps _ _)
  · exact .refl s

theorem State.lateStoreMade_keeps (s : State) (o : HoldOwner) : Keeps s (s.lateStoreMade o) := by
  refine .ite (fun _ => .refl s) fun _ => ?_
  cases o with
  | tally => exact s.tallyMade_keeps
  | credential => exact .ite (fun _ => s.credEndMade_keeps) fun _ => .refl s
  | pendingMark => exact .ite (fun _ => s.pmMade_keeps) fun _ => .refl s
  | journal => exact .ite (fun _ => s.journalMade_keeps) fun _ => .refl s

/-! ## Ends of rounds -/

theorem State.recordRound_keeps (s : State) (r : RoundRec) : Keeps s (s.recordRound r) := by
  unfold State.recordRound
  dsimp only
  refine .ite (fun _ => ?_) fun _ => .refl s
  have hcount : Keeps s { s with eng := { s.eng with absence := countsAfter s.sup r.answer s.eng.absence } } := (.of_same (by simp))
  split
  · exact (hcount.trans (State.setFlag_keeps _ _)).trans (.ite (fun _ => .refl _) fun _ => State.note_keeps _ _)
  · exact hcount.trans (.ite (fun _ => .refl _) fun _ => State.note_keeps _ _)

theorem State.clearMustChange_keeps (s : State) (t : CodeSlotNo) : Keeps s (s.clearMustChange t) :=
  .ite (fun _ => .of_key (by simp) fun h => ⟨h.key, h.matched, h.admin, h.user, nofun, h.battery, h.markLock⟩) fun _ => .refl s

theorem State.promote_keeps (s : State) (p : PendingChange) : Keeps s (s.promote p) := (.of_same (by simp))

theorem State.promoteAt_keeps (s : State) (high low : Nat) : Keeps s (s.promoteAt high low) := by
  unfold State.promoteAt
  split
  · refine .ite (fun _ => ?_) fun _ => .refl s
    refine ((s.promote_keeps _).trans (State.clearMustChange_keeps _ _)).trans (.ite (fun h => ?_) fun _ => .refl _)
    exact State.setGuard_keeps_shut (by rw [h]; decide) (by rw [h]; rfl) (by decide) rfl
  · exact .refl s

theorem State.stampEffects_keeps (s : State) (high low : Nat) : Keeps s (s.stampEffects high low) := by
  unfold State.stampEffects
  refine .trans (.trans (t := s.discardAbove high) (.of_same (by simp)) (State.promoteAt_keeps _ high low)) ?_
  exact .ite (fun _ => State.setFlag_keeps _ _) fun _ => .refl _

theorem State.endRoll_keeps (s : State) (r : RoundRec) (cls : RoundClass) : Keeps s (s.endRoll r cls) := by
  unfold State.endRoll
  dsimp only
  have hset : ∀ (c : Prop) [Decidable c] (u : State) (f : Flag), Keeps u (if c then u.setFlag f else u) := fun c _ u f =>
    .ite (fun _ => u.setFlag_keeps f) fun _ => .refl u
  have htake : ∀ (c : Prop) [Decidable c] (u : State) (w : WipeCause), Keeps u (if c then u.takeOrder w else u) :=
    fun c _ u w => .ite (fun _ => (.of_same (by simp))) fun _ => .refl u
  have hstamp : ∀ (c : Prop) [Decidable c] (u : State) (m n : Nat), Keeps u (if c then u.stampEffects m n else u) :=
    fun c _ u m n => .ite (fun _ => u.stampEffects_keeps m n) fun _ => .refl u
  have hcount : ∀ (u : State) (n : Nat), Keeps u { u with eng := { u.eng with rollCount := n } } := fun u n => (.of_same (by simp))
  have hend : ∀ (c : Prop) [Decidable c] (u : State) (b : Bool),
      Keeps u (if u.grd.state = .starting ∧ c then u.endStarting b else u) := fun c _ u b =>
    .ite (fun h => State.endStarting_keeps h.1 b) fun _ => .refl u
  exact (((((s.setTally_keeps _).trans (htake _ _ _)).trans (hstamp _ _ _ _)).trans (hset _ _ _)).trans
    (hcount _ _)).trans ((hset _ _ _).trans (hend _ _ _))

theorem State.matchEffects_keeps (s : State) (r : RoundRec) (slot : CodeSlotNo) : Keeps s (s.matchEffects r slot) := by
  unfold State.matchEffects
  dsimp only
  have hdue : Keeps s { s.setTally 0 with grd := { (s.setTally 0).grd with holdDue := false } } :=
    (s.setTally_keeps 0).trans (.of_same (by simp))
  refine hdue.trans (.ite (fun _ => State.post_keeps _ _ _) fun h3 => .ite (fun hm => ?_) fun _ => .refl _)
  have hlocked : s.grd.state = .locked := by
    simp only [State.takesMatch, Bool.and_eq_true, beq_iff_eq] at hm
    simpa using hm.2
  exact State.openStation_keeps (by simp [hlocked]) h3 (by simp)

theorem State.endCheck_keeps (s : State) (r : RoundRec) (cls : RoundClass) : Keeps s (s.endCheck r cls) := by
  unfold State.endCheck
  have hdrop : ∀ u : State, Keeps u { u with cred := { u.cred with roundEntry := none } } := fun u => (.of_same (by simp))
  refine .trans ?_ (hdrop _)
  cases checkOutcome r cls with
  | splitEntry => exact s.setFlag_keeps _
  | incomplete | noMatch => exact s.takeGap_keeps
  | verdictSplit => exact (s.setFlag_keeps _).trans (State.takeGap_keeps _)
  | matched slot => exact s.matchEffects_keeps r slot

theorem State.takePromotion_keeps (s : State) (p : PendingChange) : Keeps s (s.takePromotion p) :=
  .ite (fun h => State.openStation_keeps (by simp [h.1]) (by decide) (by simp)) fun _ => s.clearMustChange_keeps _

theorem State.endSetcode_keeps (s : State) (r : RoundRec) (cls : RoundClass) : Keeps s (s.endSetcode r cls) := by
  unfold State.endSetcode
  have hdrop : ∀ u : State, Keeps u { u with cred := { u.cred with genKey := none, roundChange := none } } := fun u =>
    .of_same (by simp)
  refine .trans ?_ (hdrop _)
  split
  · exact (s.promote_keeps _).trans (State.takePromotion_keeps _ _)
  · exact .refl s

theorem State.endSetmark_keeps (s : State) (r : RoundRec) (cls : RoundClass) : Keeps s (s.endSetmark r cls) := (.of_same (by simp))

theorem State.putMarks_keeps (s : State) (marks : Vector FixedMark 64) (empties : Bool) :
    Keeps s (s.putMarks marks empties) := (.of_same (by simp))

theorem State.applyItem_keeps (s : State) (item : FitItem) : Keeps s (s.applyItem item) := by
  have hwrite : ∀ t : PolicyTable, Keeps s (s.writePolicy t) := fun t =>
    .of_same (by simp +contextual [State.writePolicy])
  cases item with
  | marks group codes => exact s.putMarks_keeps _ _
  | header | partA | partB => exact hwrite _

theorem State.endFit_keeps (s : State) (r : RoundRec) (cls : RoundClass) : Keeps s (s.endFit r cls) := by
  unfold State.endFit
  dsimp only
  refine Keeps.trans (t := { s with stat := { s.stat with fit := none } }) (.of_same (by simp)) (.ite (fun _ => ?_) fun _ => .refl _)
  split
  · exact State.applyItem_keeps _ _
  · exact .refl _

theorem State.ownersEnd_keeps (s : State) (r : RoundRec) (cls : RoundClass) : Keeps s (s.ownersEnd r cls) := by
  unfold State.ownersEnd
  refine .ite (fun _ => ?_) fun _ => .refl s
  split
  · exact s.lockLocally_keeps
  · exact s.endRoll_keeps r cls
  · exact s.endCheck_keeps r cls
  · exact s.endSetcode_keeps r cls
  · exact s.endSetmark_keeps r cls
  · exact .ite (fun _ => s.returnToBlank_keeps _) fun _ => .refl s
  · exact (.of_same (by simp))
  · exact .ite (fun _ => s.clearFlags_keeps _) fun _ => .refl s
  · exact s.endFit_keeps r cls
  · exact .refl s

theorem State.roundEnded_keeps (s : State) (accept : Slots) : Keeps s (s.roundEnded accept) := by
  unfold State.roundEnded
  split
  · next r _ hr _ =>
    dsimp only
    have hdrop : Keeps (s.senseField .accept (accept.setWidth 256))
        { s.senseField .accept (accept.setWidth 256) with
          line := (s.senseField .accept (accept.setWidth 256)).line.toGap
          eng := { (s.senseField .accept (accept.setWidth 256)).eng with round := none } } :=
      .of_inert (by simp) fun h => h.of_round (r := r) (by simpa using hr) (by simp)
    refine ((((((((State.senseField_keeps hr _ _).trans hdrop).trans (State.activityEvent_keeps _)).trans
      (State.ownersEnd_keeps _ _ _)).trans (State.takeDueDeadline_keeps _)).trans (State.endQueue_keeps _ _)).trans
      (State.recordRound_keeps _ _)).trans (State.repeatTallyAndOwed_keeps _)).trans (State.repeatJournal_keeps _)
  · exact .refl s

end Sys2Proof.Machine
end

section
/-! PROOF. The commands: each is one event whose own effect keeps the rules, and the end of the event keeps them too.
With it the statements about every command and every step. -/

namespace Sys2Proof.Machine

/-! ## The commands that neither take nor give the supply, nor load the records -/

theorem State.startRound_keeps {s : State} (hf : s.grd.state ≠ .strapFault) : Keeps s s.startRound := by
  have hinert : InertInStrapFault s → InertInStrapFault s.startRound := fun _ => .of_state (by simpa using hf)
  exact .of_inert (by simp) hinert

theorem State.not_strapFault_of_tracking {s : State} (h : s.tracking = true) : s.grd.state ≠ .strapFault := by
  simp only [State.tracking, State.working, Bool.and_eq_true, bne_iff_ne] at h
  exact h.1.2

theorem State.offerRound_keeps (s : State) : Keeps s s.offerRound := by
  unfold State.offerRound
  refine .ite (fun h => ?_) fun _ => .refl s
  have hf : s.grd.state ≠ .strapFault := by
    simp only [State.mayOpen, Bool.and_eq_true] at h
    exact State.not_strapFault_of_tracking h.1.1
  split
  · exact .refl s
  · exact .of_inert (by simp) fun _ => .of_state hf

theorem State.idleReached_keeps (s : State) : Keeps s s.idleReached := (.of_same (by simp))

theorem State.lineStuck_keeps (s : State) : Keeps s s.lineStuck := by
  unfold State.lineStuck
  dsimp only
  refine (s.setFlag_keeps .lineStuck).trans (.ite (fun _ => ?_) fun _ => ?_)
  · exact (State.setFlag_keeps _ _).trans (State.rejectTo_keeps _ _)
  · have hstuck : ∀ u : State, Keeps u { u with line := { view := .stuck, tail := u.line.tail } } := fun u =>
      .of_same (by simp)
    exact ((State.unsend_keeps _).trans (hstuck _)).trans (State.lockForLine_keeps _)

/-- The list is emptied and the port lost, as at a bus-power fall (R136). -/
theorem GateInRange.abandoned {s : State} (h : GateInRange s) :
    GateInRange { s with gate := { s.gate with outstanding := [], portReady := false } } :=
  ⟨Nat.zero_le _, h.yielded, h.noneWaiting, h.sameErase⟩

theorem State.busFall_keeps {s : State} (hon : s.sup.state ≠ .off) : Keeps s s.busFall := by
  unfold State.busFall
  dsimp only
  have hfall : Keeps s { s with
      sup := { s.sup with state := .battery }
      gate := { s.gate with outstanding := [], portReady := false } } :=
    .of_gate_inert (by simp [hon]) (fun h => h.abandoned.congr (by simp)) (·.mono (by simp [hon]))
  refine .trans ?_ (State.activityEvent_keeps _)
  refine .trans ?_ (State.note_keeps _ _)
  refine .trans ?_ (State.lockLocally_keeps _)
  refine .trans ?_ (State.drained_keeps _)
  refine .trans ?_ (State.regate_keeps _)
  refine (hfall.trans (State.abandonErase_keeps _)).trans (.ite (fun _ => State.setFlag_keeps _ _) fun _ => .refl _)

theorem State.busRise_keeps {s : State} (hon : s.sup.state ≠ .off) : Keeps s s.busRise := by
  unfold State.busRise
  dsimp only
  have hrise : Keeps s { s with sup := { s.sup with state := .bus }, grd := { s.grd with batteryTimer := none } } :=
    .of_key (by simp [hon]) fun h => ⟨h.key, h.matched, h.admin, h.user, h.mustChange, nofun, h.markLock⟩
  refine .trans ?_ (State.note_keeps _ _)
  refine (((hrise.trans (State.regate_keeps _)).trans (State.engineStep_keeps _)).trans (State.stayAwake_keeps _)).trans ?_
  exact .ite (fun _ => (.of_same (by simp))) fun _ => .refl _

theorem State.warmedUp_keeps (s : State) : Keeps s s.warmedUp := by
  unfold State.warmedUp
  dsimp only
  refine .trans (t := { s with
    sup := { s.sup with
      activity := .awake, warmup := none
      inactivity := if s.mayDoze then .running (s.now + Config.dozeAfter) else .stopped }
    line := LineIf.toSyncing s.now
    key := { s.key with states := s.pins.keyLines, debounce := [] }
    eng := { s.eng with rollCount := 0 } }) ?_ (State.post_keeps _ .roll 0)
  exact .of_same (by simp [LineIf.toSyncing])

theorem State.completeAccess_keeps (s : State) (status : Nat) : Keeps s (s.completeAccess status) := by
  unfold State.completeAccess
  split
  · exact .refl s
  · next r rest hout =>
    have htake : Keeps s { s with
        toBridge := s.toBridge ++ [.completion r status]
        gate := { s.gate with outstanding := rest } } :=
      .of_rules (by simp) ⟨_, rfl⟩ (fun h => by
        have hlen := h.outstanding
        rw [hout, List.length_cons] at hlen
        exact ⟨by dsimp only; omega, h.yielded, h.noneWaiting, h.sameErase⟩) (·.congr (by simp))
        (·.mono (by simp [hout]))
    exact htake.trans (.ite (fun _ => State.drained_keeps _) fun _ => .refl _)

theorem State.present_keeps (s : State) (r : BridgeRequest) : Keeps s (s.present r) := (.of_same (by simp))

/-- A command that is one event whose own effect keeps the rules. -/
def EventKeeps (e : State → Host.Outcome State Fault Refusal) : Prop := ∃ f, e = event f ∧ ∀ s, Keeps s (f s)

theorem Keeps.if_else_self {s t : State} {c : Prop} [Decidable c] (h : c → Keeps s t) : Keeps s (if c then t else s) :=
  .ite h fun _ => .refl s

theorem Keeps.self_if {s t : State} {c : Prop} [Decidable c] (h : Keeps s t) : Keeps s (if c then s else t) :=
  .ite (fun _ => .refl s) fun _ => h

/-- A timer's expiry moves the clock, when the timer runs, and then takes effect. -/
theorem keeps_of_expiry {s : State} (m : Option Nat) {f : State → State} (hf : ∀ u, Keeps u (f u)) :
    Keeps s (match m with | some t => f (s.reach t) | none => s) := by
  cases m with
  | none => exact .refl s
  | some t => exact (s.reach_keeps t).trans (hf _)

theorem State.withPins_keeps (s : State) (p : Pins) : Keeps s { s with pins := p } := (.of_same (by simp))

/-! ### Supply -/

theorem execBusPowerFall_keeps (x : FallCause) : EventKeeps (execBusPowerFall x) := by
  refine ⟨_, rfl, fun s => (s.withPins_keeps _).trans (.if_else_self fun h => State.busFall_keeps ?_)⟩
  simp only [State.takesSupply, Bool.and_eq_true, bne_iff_ne] at h
  exact h.1.1

theorem execBusPowerRise_keeps (x : RiseCause) : EventKeeps (execBusPowerRise x) := by
  refine ⟨_, rfl, fun s => (s.withPins_keeps _).trans (.if_else_self fun h => State.busRise_keeps ?_)⟩
  simp only [State.takesSupply, Bool.and_eq_true, bne_iff_ne] at h
  exact h.1.1

theorem execBatteryChangeInBus_keeps (b : Bool) : EventKeeps (execBatteryChangeInBus b) :=
  ⟨_, rfl, fun s => .if_else_self fun _ => s.withPins_keeps _⟩

/-- A station on its way to sleep changes its activity and its timer. -/
theorem State.withSupply_keeps (s : State) (a : Activity) (i : Inactivity) (w : Option Nat) :
    Keeps s { s with sup := { s.sup with activity := a, inactivity := i, warmup := w } } := (.of_same (by simp))

theorem execInactivityTimerExpiry_keeps : EventKeeps execInactivityTimerExpiry := by
  refine ⟨_, rfl, fun s => ?_⟩
  cases hi : s.sup.inactivity with
  | stopped | expired => exact .refl s
  | running t =>
    exact (s.reach_keeps t).trans (.ite (fun _ => State.withSupply_keeps _ _ _ _) fun _ => State.withSupply_keeps _ _ _ _)

theorem execWake_keeps (w : WakeSource) : EventKeeps (execWake w) :=
  ⟨_, rfl, fun s => .if_else_self fun _ => s.withSupply_keeps _ _ _⟩

theorem execWarmupEnd_keeps : EventKeeps execWarmupEnd :=
  ⟨_, rfl, fun s => keeps_of_expiry s.sup.warmup State.warmedUp_keeps⟩

/-! ### Keypad -/

theorem State.withKey_keeps (s : State) (k : Keypad) : Keeps s { s with key := k } := (.of_same (by simp))

theorem execKeyLineChange_keeps (k : Key) (down : Bool) : EventKeeps (execKeyLineChange k down) :=
  ⟨_, rfl, fun s => (s.withPins_keeps _).trans (.if_else_self fun _ => State.withKey_keeps _ _)⟩

theorem execKeyPress_keeps (k : Key) : EventKeeps (execKeyPress k) := by
  refine ⟨_, rfl, fun s => ?_⟩
  split
  · exact .if_else_self fun _ => (s.reach_keeps _).trans (State.recognizePress_keeps _ k)
  · exact .refl s

theorem execKeyRelease_keeps (k : Key) : EventKeeps (execKeyRelease k) := by
  refine ⟨_, rfl, fun s => ?_⟩
  split
  · exact .if_else_self fun _ => (s.reach_keeps _).trans (State.recognizeRelease_keeps _ k)
  · exact .refl s

theorem execEntryTimerExpiry_keeps : EventKeeps execEntryTimerExpiry :=
  ⟨_, rfl, fun s => keeps_of_expiry s.key.entryTimer State.keypadIdle_keeps⟩

theorem execResetTimerExpiry_keeps : EventKeeps execResetTimerExpiry :=
  ⟨_, rfl, fun s => keeps_of_expiry s.key.resetTimer fun u => u.keypadIdle_keeps.trans (State.post_keeps _ _ _)⟩

theorem execWipeWindowExpiry_keeps : EventKeeps execWipeWindowExpiry :=
  ⟨_, rfl, fun s => keeps_of_expiry s.key.wipeWindow State.keypadIdle_keeps⟩

theorem execHeldEntryTimerExpiry_keeps : EventKeeps execHeldEntryTimerExpiry := by
  refine ⟨_, rfl, fun s => ?_⟩
  split
  · exact ((s.reach_keeps _).trans (State.withKey_keeps _ _)).trans (State.withdraw_keeps _ .check)
  · exact .refl s

theorem execHeldChangeTimerExpiry_keeps : EventKeeps execHeldChangeTimerExpiry := by
  refine ⟨_, rfl, fun s => ?_⟩
  split
  · exact ((s.reach_keeps _).trans (State.withKey_keeps _ _)).trans (State.withdraw_keeps _ .setcode)
  · exact .refl s

/-! ### Timers of the other blocks -/

theorem State.stopBatteryTimer_keeps (s : State) : Keeps s { s with grd := { s.grd with batteryTimer := none } } :=
  .of_key (by simp) fun h => ⟨h.key, h.matched, h.admin, h.user, h.mustChange, nofun, h.markLock⟩

theorem State.stopPulse_keeps (s : State) : Keeps s { s with grd := { s.grd with pulseTimer := none } } := (.of_same (by simp))

theorem State.withProgressTimer_keeps (s : State) (t : Option Nat) :
    Keeps s { s with wipe := { s.wipe with progressTimer := t } } := (.of_same (by simp))

theorem State.withPolicyTimers_keeps (s : State) (t : Vector (Option Nat) 4) :
    Keeps s { s with pol := { s.pol with timers := t } } := (.of_same (by simp))

theorem execBatteryOpenExpiry_keeps : EventKeeps execBatteryOpenExpiry :=
  ⟨_, rfl, fun s => keeps_of_expiry s.grd.batteryTimer fun u =>
    (u.stopBatteryTimer_keeps.trans (State.lockLocally_keeps _)).trans (State.post_keeps _ _ _)⟩

theorem execPulseTimerExpiry_keeps : EventKeeps execPulseTimerExpiry :=
  ⟨_, rfl, fun s => keeps_of_expiry s.grd.pulseTimer State.stopPulse_keeps⟩

theorem execHoldDeadlineReached_keeps : EventKeeps execHoldDeadlineReached := by
  refine ⟨_, rfl, fun s => ?_⟩
  split
  · next t _ =>
    refine ((s.reach_keeps t).trans (State.clearHold_keeps _)).trans (.if_else_self fun h => ?_)
    exact State.setGuard_keeps_shut (by rw [h]; decide) (by rw [h]; rfl) (by decide) rfl
  · exact .refl s

theorem execPolicyTimerExpiry_keeps (t : TimerNo) : EventKeeps (execPolicyTimerExpiry t) := by
  refine ⟨_, rfl, fun s => ?_⟩
  split
  · next m _ => exact ((s.reach_keeps m).trans (State.withPolicyTimers_keeps _ _)).trans (State.note_keeps _ _)
  · exact .refl s

theorem execProgressTimerExpiry_keeps : EventKeeps execProgressTimerExpiry := by
  refine ⟨_, rfl, fun s => ?_⟩
  split
  · next t _ =>
    refine (s.reach_keeps t).trans (.ite (fun _ => ?_) fun _ => State.withProgressTimer_keeps _ _)
    exact (State.post_keeps _ .progress 0).trans (State.withProgressTimer_keeps _ _)
  · exact .refl s

/-! ### The line -/

theorem execIdleGapReached_keeps : EventKeeps execIdleGapReached :=
  ⟨_, rfl, fun s => .if_else_self fun _ => (s.reach_keeps _).trans (State.idleReached_keeps _)⟩

theorem State.clearNotBefore_keeps (s : State) (kind : RoundKind) :
    Keeps s { s with eng := { s.eng with
      queue := queueModify kind (fun r => { r with notBefore := none }) s.eng.queue } } :=
  .of_same (by simp [queueModify])

theorem execRetryDue_keeps (kind : RoundKind) : EventKeeps (execRetryDue kind) :=
  ⟨_, rfl, fun s => keeps_of_expiry ((queueFind kind s.eng.queue).bind (·.notBefore)) fun u =>
    (u.clearNotBefore_keeps kind).trans (State.offerRound_keeps _)⟩

theorem execRoundStart_keeps : EventKeeps execRoundStart := by
  refine ⟨_, rfl, fun s => .if_else_self fun h => State.startRound_keeps ?_⟩
  rw [Bool.and_eq_true] at h
  exact State.not_strapFault_of_tracking h.1

/-- A line that drives, offers and holds no more than before. -/
theorem State.withLine_keeps (s : State) {l : LineIf} (hd : s.line.ownDrive = false → l.ownDrive = false)
    (ho : s.line.offer = .nothing → l.offer = .nothing) (hh : s.line.header = none → l.header = none) :
    Keeps s { s with line := l } :=
  .of_inert (by simp) (·.mono (by simpa using ⟨hd, ho, hh⟩))

theorem execLateRoundSeen_keeps : EventKeeps execLateRoundSeen :=
  ⟨_, rfl, fun s => .if_else_self fun _ =>
    (s.withLine_keeps (l := { s.line.turnDominant s.now with tail := true }) id id id).trans (State.lockForLine_keeps _)⟩

theorem execLineStuckExpiry_keeps : EventKeeps execLineStuckExpiry :=
  ⟨_, rfl, fun s => .if_else_self fun _ => (s.reach_keeps _).trans (State.lineStuck_keeps _)⟩

theorem execLineReleased_keeps : EventKeeps execLineReleased :=
  ⟨_, rfl, fun s => .if_else_self fun _ => s.withLine_keeps (fun _ => rfl) (fun _ => rfl) fun _ => rfl⟩

theorem execOpenRound_keeps : EventKeeps execOpenRound := ⟨_, rfl, State.offerRound_keeps⟩
theorem execFieldMark_keeps (level : Level) : EventKeeps (execFieldMark level) := ⟨_, rfl, (State.fieldMarked_keeps · level)⟩
theorem execFieldEnd_keeps (read : LineBits) : EventKeeps (execFieldEnd read) := ⟨_, rfl, (State.fieldEnded_keeps · read)⟩
theorem execHoldFieldEnd_keeps : EventKeeps execHoldFieldEnd := ⟨_, rfl, State.holdEnd_keeps⟩
theorem execHoldMaxExpiry_keeps : EventKeeps execHoldMaxExpiry := ⟨_, rfl, State.holdMaxReached_keeps⟩
theorem execRoundEnd_keeps (accept : Slots) : EventKeeps (execRoundEnd accept) := ⟨_, rfl, (State.roundEnded_keeps · accept)⟩
theorem execHoldStoreFinished_keeps : EventKeeps execHoldStoreFinished := ⟨_, rfl, State.heldStoreMade_keeps⟩
theorem execHoldStoreFailed_keeps : EventKeeps execHoldStoreFailed := ⟨_, rfl, State.heldStoreFailed_keeps⟩
theorem execLateStoreFinished_keeps (owner : HoldOwner) : EventKeeps (execLateStoreFinished owner) := ⟨_, rfl, (State.lateStoreMade_keeps · owner)⟩

/-! ### Stores and the gate -/

theorem execJournalStoreMade_keeps : EventKeeps execJournalStoreMade := ⟨_, rfl, fun s => .self_if s.journalMade_keeps⟩

theorem execJournalStoreFailed_keeps : EventKeeps execJournalStoreFailed :=
  ⟨_, rfl, fun s => .self_if (s.journalFailed_keeps _)⟩

theorem execTableDestructionMade_keeps : EventKeeps execTableDestructionMade :=
  ⟨_, rfl, fun s => .if_else_self fun _ => s.credEndMade_keeps⟩

theorem execCredentialStoreEnded_keeps (made : Bool) : EventKeeps (execCredentialStoreEnded made) :=
  ⟨_, rfl, fun s => .self_if (.ite (fun _ => s.credEndMade_keeps) fun _ => s.credFailed_keeps)⟩

theorem execTallyStoreEnded_keeps (made : Bool) : EventKeeps (execTallyStoreEnded made) :=
  ⟨_, rfl, fun s => .self_if (.ite (fun _ => s.tallyMade_keeps) fun _ => s.tallyFailed_keeps _)⟩

theorem execFixedMarkStoreEnded_keeps (made : Bool) : EventKeeps (execFixedMarkStoreEnded made) :=
  ⟨_, rfl, fun s => .ite (fun _ => s.marksMade_keeps) fun _ => s.marksFailed_keeps⟩

theorem execPendingMarkStoreEnded_keeps (made : Bool) : EventKeeps (execPendingMarkStoreEnded made) :=
  ⟨_, rfl, fun s => .self_if (.ite (fun _ => s.pmMade_keeps) fun _ => s.pmFailed_keeps)⟩

theorem execPortReady_keeps : EventKeeps execPortReady :=
  ⟨_, rfl, fun s => .if_else_self fun h =>
    .of_inert (by simp) fun _ => .of_state h.2⟩

theorem execEraseCompletion_keeps (success : Bool) : EventKeeps (execEraseCompletion success) :=
  ⟨_, rfl, fun _ => .if_else_self fun h => State.eraseEnded_keeps h success⟩

theorem execHoldOwedStoreEnded_keeps (made : Bool) : EventKeeps (execHoldOwedStoreEnded made) := ⟨_, rfl, (State.owedEnded_keeps · made)⟩
theorem execFlagStoreEnded_keeps (made : Bool) : EventKeeps (execFlagStoreEnded made) := ⟨_, rfl, (State.flagsEnded_keeps · made)⟩
theorem execPolicyStoreEnded_keeps (made : Bool) : EventKeeps (execPolicyStoreEnded made) := ⟨_, rfl, (State.policyEnded_keeps · made)⟩
theorem execAccessCompletion_keeps (status : Nat) : EventKeeps (execAccessCompletion status) := ⟨_, rfl, (State.completeAccess_keeps · status)⟩

theorem execAccess_keeps (r : BridgeRequest) : EventKeeps (event (State.present · r)) :=
  ⟨_, rfl, (State.present_keeps · r)⟩

/-! ### All commands -/

/-- The commands that take or give the supply or load the records. -/
def movesPower : Instr → Prop
  | .powerOn .. | .loadingEnd _ | .batteryRemoved | .supplyFail => True
  | _ => False

/-- Every other command keeps the rules and the supply. -/
theorem exec_keeps {c : Instr} (hc : ¬movesPower c) : EventKeeps (exec c) := by
  cases c with
  | powerOn | loadingEnd | batteryRemoved | supplyFail => exact absurd trivial hc
  | busPowerFall x => exact execBusPowerFall_keeps x
  | busPowerRise x => exact execBusPowerRise_keeps x
  | batteryChangeInBus x => exact execBatteryChangeInBus_keeps x
  | inactivityTimerExpiry => exact execInactivityTimerExpiry_keeps
  | wake x => exact execWake_keeps x
  | warmupEnd => exact execWarmupEnd_keeps
  | keyLineChange k down => exact execKeyLineChange_keeps k down
  | keyPress k => exact execKeyPress_keeps k
  | keyRelease k => exact execKeyRelease_keeps k
  | entryTimerExpiry => exact execEntryTimerExpiry_keeps
  | resetTimerExpiry => exact execResetTimerExpiry_keeps
  | wipeWindowExpiry => exact execWipeWindowExpiry_keeps
  | heldEntryTimerExpiry => exact execHeldEntryTimerExpiry_keeps
  | heldChangeTimerExpiry => exact execHeldChangeTimerExpiry_keeps
  | batteryOpenExpiry => exact execBatteryOpenExpiry_keeps
  | pulseTimerExpiry => exact execPulseTimerExpiry_keeps
  | holdDeadlineReached => exact execHoldDeadlineReached_keeps
  | policyTimerExpiry t => exact execPolicyTimerExpiry_keeps t
  | progressTimerExpiry => exact execProgressTimerExpiry_keeps
  | idleGapReached => exact execIdleGapReached_keeps
  | openRound => exact execOpenRound_keeps
  | retryDue kind => exact execRetryDue_keeps kind
  | roundStart => exact execRoundStart_keeps
  | lateRoundSeen => exact execLateRoundSeen_keeps
  | fieldMark level => exact execFieldMark_keeps level
  | fieldEnd read => exact execFieldEnd_keeps read
  | holdFieldEnd => exact execHoldFieldEnd_keeps
  | holdMaxExpiry => exact execHoldMaxExpiry_keeps
  | lineStuckExpiry => exact execLineStuckExpiry_keeps
  | lineReleased => exact execLineReleased_keeps
  | roundEnd accept => exact execRoundEnd_keeps accept
  | holdStoreFinished => exact execHoldStoreFinished_keeps
  | holdStoreFailed => exact execHoldStoreFailed_keeps
  | lateStoreFinished owner => exact execLateStoreFinished_keeps owner
  | journalStoreMade => exact execJournalStoreMade_keeps
  | journalStoreFailed => exact execJournalStoreFailed_keeps
  | tableDestructionMade => exact execTableDestructionMade_keeps
  | credentialStoreEnded made => exact execCredentialStoreEnded_keeps made
  | tallyStoreEnded made => exact execTallyStoreEnded_keeps made
  | holdOwedStoreEnded made => exact execHoldOwedStoreEnded_keeps made
  | flagStoreEnded made => exact execFlagStoreEnded_keeps made
  | fixedMarkStoreEnded made => exact execFixedMarkStoreEnded_keeps made
  | policyStoreEnded made => exact execPolicyStoreEnded_keeps made
  | read _ _ | write _ _ | trim _ _ => exact execAccess_keeps _
  | portReady => exact execPortReady_keeps
  | accessCompletion status => exact execAccessCompletion_keeps status
  | eraseCompletion success => exact execEraseCompletion_keeps success
  | pendingMarkStoreEnded made => exact execPendingMarkStoreEnded_keeps made

end Sys2Proof.Machine
end

section
/-! PROOF. The statements about every command and every step: an event is a command's own effect, which keeps the rules,
and the end of the event, which leaves nothing over and grants what it sends. -/

namespace Sys2Proof.Machine

/-! ## Power and loading -/

/-- Power-on values obey every rule, in STARTING and in STRAP_FAULT; what they are taken over is kept (R2, R160, R165). -/
theorem kept_atPowerOn (s : State) (pins : Pins) (sup : Supply) {g : GuardState} (hg : g.open_ = false) :
    Kept s { State.atPowerOn s.pending s.now s.draws s.toBridge s.toBank s.nv pins sup with grd := { state := g } } where
  pending := rfl
  bank := rfl
  bridge := ⟨[], (List.append_nil _).symm⟩
  clock := le_rfl
  stored := rfl
  gate _ := ⟨Nat.zero_le _, Nat.zero_le _, fun _ => rfl, by simp [State.atPowerOn]⟩
  key _ := by
    refine ⟨nofun, nofun, fun ha => ?_, fun ho => ?_, nofun, nofun, nofun⟩
    · obtain rfl : g = .admin := ha
      exact nomatch hg
    · obtain rfl : g = .opened := ho
      exact nomatch hg
  inert _ := ⟨fun _ _ => ⟨rfl, rfl, rfl, rfl, rfl, rfl, rfl, rfl, rfl, rfl, rfl, rfl⟩⟩

theorem State.powerOff_kept (s : State) (pins : Pins) : Kept s (s.powerOff pins) :=
  kept_atPowerOn s pins { state := .off } (g := .starting) rfl

theorem State.powerOn_kept (s : State) (stn rsz : BitVec 3) (pins : Pins) : Kept s (s.powerOn stn rsz pins) := by
  unfold State.powerOn
  dsimp only
  split
  · exact kept_atPowerOn s pins _ (g := .strapFault) rfl
  · exact kept_atPowerOn s pins _ (g := .starting) rfl

theorem Pins.supply_ne_off (p : Pins) : p.supply ≠ .off := by
  unfold Pins.supply
  split <;> decide

/-- The records are loaded by a station that has a supply and keeps it (R167). -/
theorem State.loaded_keeps {s : State} (hon : s.sup.state ≠ .off) (r : LoadReport) : KeepsPowered s (s.loaded r) := by
  have hsup : (s.loaded r).sup.state = s.pins.supply := by simp [State.loaded]
  have hline : (s.loaded r).line = LineIf.toSyncing s.now := by simp [State.loaded]
  have hqueue : s.grd.state = .strapFault → (s.loaded r).eng.queue = s.eng.queue := by
    intro hs
    unfold State.loaded
    dsimp only
    rw [State.post_strapFault _ _ _ (by simpa using hs)]
    simp
  have hpower : (s.loaded r).sup.state = .off ↔ s.sup.state = .off := by
    rw [hsup]
    exact ⟨fun h => absurd h (Pins.supply_ne_off _), fun h => absurd h hon⟩
  have hinert : InertInStrapFault s → InertInStrapFault (s.loaded r) := by
    intro h
    by_cases hs : s.grd.state = .strapFault
    · exact h.mono (by simp [hon, hqueue hs, hline, LineIf.toSyncing])
    · exact .of_state (by simpa using hs)
  obtain ⟨hgate, hkey⟩ : GateSame s (s.loaded r) ∧ CustodySame s (s.loaded r) := by simp
  exact {
    pending := by simp
    bank := by simp
    bridge := ⟨[], by simp⟩
    clock := by simp
    stored := by simp
    gate := (·.congr hgate)
    key := (·.congr hkey)
    inert := hinert
    strap := by simp
    power := hpower
    stn := by simp
    roster := by simp }

/-- A command that is one event whose own effect keeps the rules, whatever the supply does. -/
def EventKept (e : State → Host.Outcome State Fault Refusal) : Prop := ∃ f, e = event f ∧ ∀ s, Kept s (f s)

theorem Kept.if_else_self {s t : State} {c : Prop} [Decidable c] (h : c → Kept s t) : Kept s (if c then t else s) := by
  split
  · exact h ‹_›
  · exact (Keeps.refl s).toKept

theorem execPowerOn_kept (stn rsz : BitVec 3) (bus pfw bat : Bool) : EventKept (execPowerOn stn rsz bus pfw bat) := by
  refine ⟨_, rfl, fun s => .if_else_self fun _ => ?_⟩
  split
  · exact s.powerOn_kept stn rsz _
  · exact (s.withPins_keeps _).toKept

theorem execLoadingEnd_kept (r : LoadReport) : EventKept (execLoadingEnd r) :=
  ⟨_, rfl, fun _ => .if_else_self fun h => (State.loaded_keeps h.1 r).toKept⟩

theorem execBatteryRemoved_kept : EventKept execBatteryRemoved :=
  ⟨_, rfl, fun s => .if_else_self fun _ => s.powerOff_kept _⟩

theorem execSupplyFail_kept : EventKept execSupplyFail := ⟨_, rfl, fun s => .if_else_self fun _ => s.powerOff_kept _⟩

/-- The four commands that `exec_keeps` leaves out. -/
theorem movesPower_cases {c : Instr} (hc : movesPower c) :
    (∃ stn rsz bus pfw bat, c = .powerOn stn rsz bus pfw bat) ∨ (∃ r, c = .loadingEnd r) ∨ c = .batteryRemoved
      ∨ c = .supplyFail := by
  cases c with
  | powerOn stn rsz bus pfw bat => exact .inl ⟨stn, rsz, bus, pfw, bat, rfl⟩
  | loadingEnd r => exact .inr (.inl ⟨r, rfl⟩)
  | batteryRemoved => exact .inr (.inr (.inl rfl))
  | supplyFail => exact .inr (.inr (.inr rfl))
  | _ => exact absurd hc id

theorem exec_kept (c : Instr) : EventKept (exec c) := by
  by_cases hc : movesPower c
  · obtain ⟨stn, rsz, bus, pfw, bat, rfl⟩ | ⟨r, rfl⟩ | rfl | rfl := movesPower_cases hc
    · exact execPowerOn_kept stn rsz bus pfw bat
    · exact execLoadingEnd_kept r
    · exact execBatteryRemoved_kept
    · exact execSupplyFail_kept
  · obtain ⟨f, hf, hk⟩ := exec_keeps hc
    exact ⟨f, hf, fun s => (hk s).toKept⟩

/-- What a command answers: the end of the event that its own effect begins. -/
theorem exec_next {c : Instr} {s t : State} (h : exec c s = .next t) :
    ∃ u, Kept { s with notices := [] } u ∧ t = u.settle := by
  obtain ⟨f, hf, hk⟩ := exec_kept c
  rw [hf, event_next] at h
  exact ⟨_, hk _, (Host.Outcome.next.inj h).symm⟩

/-- What a step answers: a millisecond, or the end of an event. -/
theorem step_next {s t : State} (h : step s = .next t) :
    t = s.tick ∨ ∃ rest u, Kept { s with pending := rest, notices := [] } u ∧ t = u.settle := by
  unfold step at h
  split at h
  · exact .inl (Host.Outcome.next.inj h).symm
  · next c rest _ => exact .inr ⟨rest, exec_next h⟩

/-! ## The end of an event -/

theorem State.enterDormant_settled {s : State} (hn : s.notices = []) (hd : DecisionsTaken s) (hg : PortGranted s) :
    Settled s.enterDormant :=
  ⟨hn, hd, hg, fun h => nomatch h.1⟩

/-- Nothing is left over at the end of an event. -/
theorem State.settle_leaves_nothing (s : State) : Settled s.settle := by
  have hn : s.drain.regate.grantPort.notices = [] := by simp
  have hd : DecisionsTaken s.drain.regate.grantPort := State.grantPort_decided _ (State.regate_decided _)
  have hg : PortGranted s.drain.regate.grantPort := State.grantPort_granted _
  have hcause := State.dormantIfQuiet_cause s.drain.regate.grantPort
  unfold State.settle
  rcases State.dormantIfQuiet_cases s.drain.regate.grantPort with h | ⟨-, -, h⟩
  · rw [h] at hcause ⊢
    exact ⟨hn, hd, hg, hcause⟩
  · rw [h]
    exact State.enterDormant_settled hn hd hg

/-- Settles O4: the effect of a command keeps the queue of commands, and the end of its event leaves nothing over. -/
theorem everyCommandAnswersASettledNext : Obligations.EveryCommandAnswersASettledNext := by
  unfold Obligations.EveryCommandAnswersASettledNext
  intro c s
  obtain ⟨f, hf, hk⟩ := exec_kept c
  refine ⟨_, by rw [hf, event_next], ?_, State.settle_leaves_nothing _⟩
  rw [(State.settle_frame _).1]
  exact (hk _).pending

/-- Settles O6: the rule is kept by each effect and by the end of each event. -/
theorem theGateStaysInRange : Obligations.TheGateStaysInRange := by
  unfold Obligations.TheGateStaysInRange
  intro s t h hstep
  rcases step_next hstep with rfl | ⟨rest, u, hk, rfl⟩
  · exact h.congr (by simp)
  · exact u.settle_rules.1 (hk.gate (h.congr (by simp)))

/-- Settles O7: the rule is kept by each effect and by the end of each event. -/
theorem theKeyIsHeldOnlyWhileOpen : Obligations.TheKeyIsHeldOnlyWhileOpen := by
  unfold Obligations.TheKeyIsHeldOnlyWhileOpen
  intro s t h hstep
  rcases step_next hstep with rfl | ⟨rest, u, hk, rfl⟩
  · exact h.congr (by simp)
  · exact u.settle_rules.2.1 (hk.key (h.congr (by simp)))

/-! ## What reaches the bank -/

/-- The grant sends the bank at most one operation, an access only when it is forwarded in the state it leaves. -/
theorem State.grantPort_sends (s : State) :
    ∃ l, s.grantPort.toBank = s.toBank ++ l ∧ ∀ r, .access r ∈ l → gateDecision s.grantPort r = .forward := by
  rcases s.grantPort_cases with hg | ⟨-, e, -, hg⟩ | ⟨q, hd, -, -, hg⟩ <;> rw [hg]
  · exact ⟨[], by simp, nofun⟩
  · exact ⟨[.erase e], rfl, by simp⟩
  · refine ⟨[.access q], rfl, fun r hr => ?_⟩
    obtain rfl : r = q := by simpa using hr
    exact hd

theorem State.settle_sends (s : State) :
    ∃ l, s.settle.toBank = s.toBank ++ l ∧ ∀ r, .access r ∈ l → gateDecision s.settle r = .forward := by
  obtain ⟨l, hl, hd⟩ := s.drain.regate.grantPort_sends
  have hbank : s.drain.regate.toBank = s.toBank := by simp
  rw [hbank] at hl
  unfold State.settle
  rcases State.dormantIfQuiet_cases s.drain.regate.grantPort with h | ⟨-, -, h⟩ <;> rw [h]
  · exact ⟨l, hl, hd⟩
  · exact ⟨l, hl, hd⟩

/-- What the table forwards (R132). -/
theorem forwarded_only {s : State} {r : BridgeRequest} (h : gateDecision s r = .forward) :
    s.sup.state = .bus ∧ ((s.grd.state = .opened ∧ s.grd.mustChange = false) ∨ s.grd.state = .admin
      ∨ (r.kind = .read ∧ s.gate.fixedMarks.get r.extent = .pub)) := by
  unfold gateDecision at h
  dsimp only at h
  split at h
  · exact nomatch h
  · next hbus =>
    refine ⟨not_not.1 hbus, ?_⟩
    split at h
    · exact nomatch h
    · split at h
      · next hpub => exact .inr (.inr hpub)
      · split at h
        · exact nomatch h
        · split at h
          · exact nomatch h
          · next hmust =>
            split at h
            · exact nomatch h
            · next hopen =>
              by_cases ha : s.grd.state = .admin
              · exact .inr (.inl ha)
              · have ho : s.grd.state = .opened := by by_contra ho; exact hopen ⟨ho, ha⟩
                exact .inl ⟨ho, by simpa [ho] using hmust⟩

/-- Settles O8: a command's own effect sends the bank nothing, and what the grant sends is forwarded. -/
theorem accessesReachTheBankOnlyWhenForwarded : Obligations.AccessesReachTheBankOnlyWhenForwarded := by
  unfold Obligations.AccessesReachTheBankOnlyWhenForwarded
  intro c s t l r h hl hr
  obtain ⟨u, hk, rfl⟩ := exec_next h
  obtain ⟨m, hm, hd⟩ := u.settle_sends
  obtain rfl : l = m := List.append_cancel_left (hl.symm.trans (hm.trans (by rw [hk.bank])))
  exact ⟨hd r hr, forwarded_only (hd r hr)⟩

/-! ## What no command takes back -/

theorem State.settle_bridge (s : State) : ∃ l, s.settle.toBridge = s.toBridge ++ l := by
  obtain ⟨l, hl⟩ := (s.drain_keeps_rules.trans (State.regate_keeps _)).bridge
  exact ⟨l, by rw [← hl]; simp [State.settle]⟩

/-- The end of an event moves neither the clock nor supply, straps or serial. -/
theorem State.settle_still (s : State) :
    s.settle.now = s.now ∧ s.settle.nv.serial = s.nv.serial ∧ s.settle.sup.state = s.sup.state
      ∧ s.settle.sup.stn = s.sup.stn ∧ s.settle.sup.roster = s.sup.roster ∧ s.settle.eng.serial = s.eng.serial := by
  simp

/-- Where supply, straps and serial may go in a command's own effect, and that STRAP_FAULT lasts until the supply is gone
(R2, R158, R160, R165, R166). -/
def SupplyMoves (c : Instr) (s t : State) : Prop :=
  (s.sup.state ≠ .off → t.sup.state = .off → t.eng.serial = s.nv.serial)
    ∧ (s.sup.state = .off → t.sup.state ≠ .off → t.eng.serial = s.nv.serial)
    ∧ ((∀ r, c ≠ .loadingEnd r) → (s.sup.state = .off ↔ t.sup.state = .off) → t.eng.serial = s.eng.serial)
    ∧ (s.sup.state ≠ .off → t.sup.state ≠ .off → t.sup.stn = s.sup.stn ∧ t.sup.roster = s.sup.roster)
    ∧ (s.grd.state = .strapFault → s.sup.state ≠ .off → t.grd.state = .strapFault ∨ t.sup.state = .off)

theorem SupplyMoves.of_keeps {c : Instr} {s t : State} (h : KeepsPowered s t)
    (hs : (∀ r, c ≠ .loadingEnd r) → t.eng.serial = s.eng.serial) : SupplyMoves c s t :=
  ⟨fun hon hoff => absurd (h.power.1 hoff) hon, fun hoff hon => absurd (h.power.2 hoff) hon, fun hc _ => hs hc,
    fun _ _ => ⟨h.stn, h.roster⟩, fun hg _ => .inl (h.strap hg)⟩

theorem SupplyMoves.powerOff {c : Instr} {s : State} (hon : s.sup.state ≠ .off) (pins : Pins) :
    SupplyMoves c s (s.powerOff pins) :=
  ⟨fun _ _ => rfl, fun hoff => absurd hoff hon, fun _ h => absurd (h.2 rfl) hon, fun _ hoff => absurd rfl hoff,
    fun _ _ => .inr rfl⟩

theorem SupplyMoves.powerOn {c : Instr} {s : State} (hoff : s.sup.state = .off) (stn rsz : BitVec 3) (pins : Pins) :
    SupplyMoves c s (s.powerOn stn rsz pins) := by
  have hsup : (s.powerOn stn rsz pins).sup.state = pins.supply := by
    unfold State.powerOn
    dsimp only
    split <;> rfl
  have hserial : (s.powerOn stn rsz pins).eng.serial = s.nv.serial := by
    unfold State.powerOn
    dsimp only
    split <;> rfl
  refine ⟨fun hon => absurd hoff hon, fun _ _ => hserial, fun _ h => ?_, fun hon => absurd hoff hon,
    fun _ hon => absurd hoff hon⟩
  exact absurd (hsup ▸ h.1 hoff) pins.supply_ne_off

/-- Every command is one event whose own effect moves supply, straps and serial only so. -/
theorem exec_moves (c : Instr) : ∃ f, exec c = event f ∧ ∀ s, SupplyMoves c s (f s) := by
  have hif : ∀ (p : Prop) [Decidable p] (s t : State), (p → SupplyMoves c s t) →
      SupplyMoves c s (if p then t else s) := by
    intro p _ s t h
    split
    · exact h ‹_›
    · exact .of_keeps (Keeps.refl s).toKeepsPowered fun _ => rfl
  by_cases hc : movesPower c
  · obtain ⟨stn, rsz, bus, pfw, bat, rfl⟩ | ⟨r, rfl⟩ | rfl | rfl := movesPower_cases hc
    · refine ⟨_, (rfl : exec _ = execPowerOn stn rsz bus pfw bat), fun s => hif _ _ _ fun hoff => ?_⟩
      split
      · exact .powerOn hoff stn rsz _
      · exact .of_keeps (s.withPins_keeps _).toKeepsPowered fun _ => rfl
    · exact ⟨_, (rfl : exec _ = execLoadingEnd r), fun s => hif _ _ _ fun h =>
        .of_keeps (State.loaded_keeps h.1 r) fun hne => absurd rfl (hne r)⟩
    · exact ⟨_, (rfl : exec _ = execBatteryRemoved), fun s => hif _ _ _ fun h => .powerOff h.1 _⟩
    · exact ⟨_, (rfl : exec _ = execSupplyFail), fun s => hif _ _ _ fun h => .powerOff h.1 _⟩
  · obtain ⟨f, hf, hk⟩ := exec_keeps hc
    exact ⟨f, hf, fun s => .of_keeps (hk s).toKeepsPowered fun _ => (hk s).serial⟩

/-- Settles O9, by what the effects keep; only power, its loss and LOADING_END move supply, straps or serial. -/
theorem whatNoCommandTakesBack : Obligations.WhatNoCommandTakesBack := by
  unfold Obligations.WhatNoCommandTakesBack
  refine ⟨fun c s t h => ?_, fun c s t h => ?_⟩
  · obtain ⟨u, hk, rfl⟩ := exec_next h
    obtain ⟨l, hl⟩ := hk.bridge
    obtain ⟨m, hm⟩ := u.settle_bridge
    obtain ⟨n, hn, -⟩ := u.settle_sends
    exact ⟨⟨l ++ m, by rw [hm, hl, List.append_assoc]⟩, n, by rw [hn, hk.bank]⟩
  · obtain ⟨u, hk, rfl⟩ := exec_next h
    obtain ⟨f, hf, hm⟩ := exec_moves c
    rw [hf, event_next] at h
    obtain ⟨hnow, hstored, hsup, hstn, hroster, hserial⟩ := (f { s with notices := [] }).settle_still
    rw [Host.Outcome.next.inj h] at hnow hstored hsup hstn hroster hserial
    obtain ⟨hnow', hstored', -⟩ := u.settle_still
    refine ⟨hnow' ▸ hk.clock, hstored' ▸ hk.stored, ?_⟩
    rw [hsup, hstn, hroster, hserial]
    obtain ⟨hlost, hgained, hkept, hstraps, -⟩ := hm { s with notices := [] }
    exact ⟨hlost, hgained, hkept, hstraps⟩

/-- Settles O10: the rule is kept by each effect and by the end of each event; the state is left by no effect but the loss
of the supply. -/
theorem strapFaultLastsAndIsInert : Obligations.StrapFaultLastsAndIsInert := by
  unfold Obligations.StrapFaultLastsAndIsInert
  intro s t h hstep
  constructor
  · rcases step_next hstep with rfl | ⟨rest, u, hk, rfl⟩
    · exact h.mono (by simp)
    · exact u.settle_rules.2.2 (hk.inert (h.mono (by simp)))
  · intro hg hon
    unfold step at hstep
    split at hstep
    · obtain rfl := Host.Outcome.next.inj hstep
      exact .inl hg
    · next c rest _ =>
      obtain ⟨f, hf, hm⟩ := exec_moves c
      rw [hf, event_next] at hstep
      obtain rfl := Host.Outcome.next.inj hstep
      obtain ⟨-, -, -, -, hlasts⟩ := hm { s with pending := rest, notices := [] }
      refine (hlasts hg hon).imp (fun hf => ?_) fun hoff => ?_
      · rw [State.settle_grd, State.drain_strapFault hf]
        exact hf
      · exact (State.settle_still _).2.2.1.trans hoff

end Sys2Proof.Machine
end

section
/-! PROOF. The step and the part at reset, and a state from which a step breaks the rule of the round's kind. -/

namespace Sys2Proof.Machine

/-- Settles O1: the two cases of the step. -/
theorem stepTakesTheFrontCommandOrATick : Obligations.StepTakesTheFrontCommandOrATick := by
  unfold Obligations.StepTakesTheFrontCommandOrATick
  constructor
  · intro s c rest h
    simp only [step, h]
  · intro s h
    simp only [step, h, State.tick]

/-- Settles O2: the records of manufacture, read off. -/
theorem resetIsTheManufacturedPart : Obligations.ResetIsTheManufacturedPart := by
  unfold Obligations.ResetIsTheManufacturedPart
  have hslots : ∀ i : Fin 4, State.reset.nv.slots.get i = { contents := .empty, stamp := 0 } := by decide
  have hentries : ∀ e : Fin 8, entryBehaviour (State.reset.nv.policy.entries.get e) = (.none, .nop)
      ∧ (State.reset.nv.policy.entries.get e).links = 0 ∧ (State.reset.nv.policy.entries.get e).repeats = false
      ∧ (State.reset.nv.policy.entries.get e).armAtStart = false := by decide
  have hmarks : ∀ e : Fin 64, State.reset.nv.fixedMarks.get e = .normal := by decide
  exact ⟨rfl, hslots, rfl, rfl, rfl, rfl, hentries, rfl, rfl, rfl, hmarks, rfl, rfl, rfl, rfl, rfl⟩

theorem reset_settled : Settled State.reset := ⟨rfl, nofun, nofun, fun h => nomatch h.1⟩

/-- With an empty queue, no header and an awake station the rule of the flight is about the round alone. -/
theorem FlightIsTheRounds.of_no_request {s : State} (queue : s.eng.queue = []) (header : s.line.header = none)
    (view : s.eng.round ≠ none → s.line.view = .round) (drive : s.line.ownDrive = false) (offer : s.line.offer = .nothing)
    (kind : ∀ r b, s.eng.round = some r → s.line.pos = .inField .kind b → r.kind = none)
    (untracked : s.tracking = false → s.eng.round = none) (warmup : s.sup.warmup = none)
    (awake : s.sup.activity = .awake) : FlightIsTheRounds s where
  flight x hx := by simp [queue] at hx
  header k a h := by simp [header] at h
  inRound := view
  released _ := ⟨drive, offer⟩
  noKindYet := kind
  untracked h := ⟨header, untracked h⟩
  warming h := absurd warmup h
  asleep h := by simp [awake] at h

theorem reset_flightIsTheRounds : FlightIsTheRounds State.reset :=
  .of_no_request rfl rfl (fun h => absurd rfl h) rfl rfl (fun _ _ _ h => by simp [State.reset, State.atPowerOn] at h)
    (fun _ => rfl) rfl rfl

/-- Settles O3: at reset every block stands at its power-on value. -/
theorem theKeptPropertiesHoldAtReset : Obligations.TheKeptPropertiesHoldAtReset := by
  unfold Obligations.TheKeptPropertiesHoldAtReset
  have htally : TallyInRange State.reset := ⟨Nat.zero_le _, Nat.zero_le _, nofun, nofun⟩
  have hhold : HoldInRange State.reset := ⟨Nat.zero_le _, Nat.zero_le _, ⟨nofun, nofun⟩, nofun⟩
  have hgate : GateInRange State.reset := ⟨Nat.zero_le _, Nat.zero_le _, fun _ => rfl, by decide⟩
  have hqueue : QueueInOrder State.reset := ⟨.nil, nofun⟩
  have hcounts : CountsInRange State.reset := ⟨by decide, Nat.zero_le _, nofun⟩
  have hkey : KeyInCustody State.reset := ⟨nofun, nofun, nofun, nofun, nofun, nofun, nofun⟩
  have hinert : InertInStrapFault State.reset := .of_state nofun
  exact ⟨reset_settled, htally, hhold, hgate, hqueue, hcounts, hkey, hinert, reset_flightIsTheRounds⟩

/-! ## A KIND field awaited in a round whose kind is known -/

/-- A station on bus power that tracks a LOCK round and awaits the mark of a KIND field, with that mark as its next
command. The round is entered at START inside its KIND field, so no station comes here; but the rule of the flight reads
the kind of a round inside KIND alone, and this state obeys it. -/
def awaitingKindAgain : State :=
  { State.atPowerOn [.fieldMark .dominant] 0 0 [] [] Nonvolatile.manufactured ⟨0, true, false, true⟩
      { state := .bus, step := .done } with
    grd := { state := .blank }
    line := { view := .round, role := .listener, pos := .atMark .kind }
    eng := { round := some { kind := some .lock } } }

theorem awaitingKindAgain_flight : FlightIsTheRounds awaitingKindAgain :=
  .of_no_request rfl rfl (fun _ => rfl) rfl rfl (fun _ _ _ h => by simp [awaitingKindAgain] at h)
    (fun h => absurd h (by decide)) rfl rfl

/-- The mark is read, and the station is inside a KIND field of a round of kind LOCK. -/
theorem awaitingKindAgain_step :
    ∃ t, step awaitingKindAgain = .next t ∧ t.line.pos = .inField .kind 0
      ∧ ∃ r, t.eng.round = some r ∧ r.kind = some .lock :=
  ⟨_, rfl, rfl, _, rfl, rfl⟩

/-- Refutes O5: the dominant mark of a KIND field in a round whose kind is known enters that field with the kind kept, where
the rule of the request in flight allows none. -/
theorem not_tallyHoldQueueAndCountsStayInRange : ¬ Obligations.TallyHoldQueueAndCountsStayInRange := by
  unfold Obligations.TallyHoldQueueAndCountsStayInRange
  rintro ⟨-, -, -, -, hflight⟩
  obtain ⟨t, hstep, hpos, r, hr, hk⟩ := awaitingKindAgain_step
  have hnone : r.kind = none := (hflight _ t awaitingKindAgain_flight hstep).noKindYet r 0 hr hpos
  rw [hk] at hnone
  exact nomatch hnone

end Sys2Proof.Machine
end


section
/-! PROOF. Supplies that come and go (R158 to R160, R165), the activity states and warm-up (R161 to R164). -/

namespace Sys2Proof.Machine

/-! ## Events that end as their own effect leaves the station -/

/-- An event whose own effect leaves nothing over answers just that effect. -/
theorem event_settles {f : State → State} {s u : State} (hf : f { s with notices := [] } = u) (hu : Settled u) :
    event f s = .next u := by
  rw [event_next, hf, u.settle_settled hu]

/-- From a settled state an event ends the state that its own effect leaves. -/
theorem event_of_effect {f : State → State} {s u : State} (hn : s.notices = []) (hf : f s = u) :
    event f s = .next u.settle := by
  rw [event_settled f s hn, hf]

/-- From a settled state an event whose own effect leaves nothing over answers just that effect. -/
theorem Settled.event_eq {f : State → State} {s u : State} (h : Settled s) (hf : f s = u) (hu : Settled u) :
    event f s = .next u :=
  event_exact h hf hu.notices hu.decided hu.granted hu.awake

/-- A station that presents nothing on a port that is not READY, and that is awake, has nothing left over. -/
theorem Settled.of_calm {s : State} (notices : s.notices = []) (presented : s.gate.presented = none)
    (ready : s.gate.portReady = false) (awake : s.sup.activity ≠ .doze) : Settled s where
  notices := notices
  decided r hr := absurd (presented.symm.trans hr) (by simp)
  granted h := by simp [ready] at h
  awake h := awake h.1

/-! ## Power-on and loss of supply -/

theorem strapsBad_iff (stn rsz : BitVec 3) : strapsBad stn rsz = true ↔ rsz = 0 ∨ rsz.toNat + 1 ≤ stn.toNat := by
  simp [strapsBad]

theorem exec_powerOn {s : State} (hoff : s.sup.state = .off) (stn rsz : BitVec 3) (bus pfw bat : Bool)
    (hsupply : ((bus && !pfw) || bat) = true) :
    exec (.powerOn stn rsz bus pfw bat) s = .next (s.powerOn stn rsz
      { s.pins with busSense := bus, pfw := pfw, batSense := bat }) := by
  refine event_settles (u := s.powerOn stn rsz _) ?_ ?_
  · simp only [hoff, if_true, Pins.busPresent, hsupply]
    rfl
  · unfold State.powerOn
    dsimp only
    split <;> exact .of_calm rfl rfl rfl nofun

theorem State.powerOff_settled (s : State) (pins : Pins) : Settled (s.powerOff pins) :=
  .of_calm rfl rfl rfl nofun

theorem exec_batteryRemoved {s : State} (hon : s.sup.state ≠ .off) (hbat : s.pins.batSense = true)
    (hbus : s.pins.busPresent = false) :
    exec .batteryRemoved s = .next (s.powerOff { s.pins with batSense := false }) :=
  event_settles (if_pos ⟨hon, hbat, hbus⟩) (s.powerOff_settled _)

theorem exec_supplyFail {s : State} (hon : s.sup.state ≠ .off) (hbat : s.pins.batSense = false) :
    exec .supplyFail s = .next (s.powerOff { s.pins with busSense := false }) :=
  event_settles (if_pos ⟨hon, hbat⟩) (s.powerOff_settled _)

theorem exec_batteryChangeInBus {s : State} (hs : Settled s) (hbus : s.sup.state = .bus) (fitted : Bool) :
    exec (.batteryChangeInBus fitted) s = .next { s with pins := { s.pins with batSense := fitted } } := by
  show execBatteryChangeInBus fitted s = _
  exact hs.event_eq (if_pos hbus) ⟨hs.notices, hs.decided, hs.granted, hs.awake⟩

/-- Settles O13: each event replaces the state by one at its power-on values, which leaves nothing over. -/
theorem powerComesAndGoes : Obligations.PowerComesAndGoes := by
  unfold Obligations.PowerComesAndGoes
  refine ⟨⟨strapsBad_iff, ?on⟩, fun s => exec_batteryRemoved, fun s => exec_supplyFail,
    fun fitted s hs hbus => exec_batteryChangeInBus hs hbus fitted⟩
  case on =>
    intro s stn rsz bus pfw bat hoff hsupply
    rw [exec_powerOn hoff stn rsz bus pfw bat hsupply]
    cases hbad : strapsBad stn rsz <;> simp only [State.powerOn, hbad] <;> rfl

/-! ## Activity and warm-up -/

/-- Where every decision and grant is made, the end of an event is a quiet dozing station's fall into DORMANT. -/
theorem State.settle_eq_dormantIfQuiet {s : State} (hn : s.notices = []) (hd : DecisionsTaken s) (hg : PortGranted s) :
    s.settle = s.dormantIfQuiet := by
  rw [s.settle_quiet hn, s.regate_of_decided hd, s.grantPort_of_granted hg]

/-- A post writes the queue alone (R46). -/
theorem State.post_eq_queueWith (s : State) (k : RoundKind) (arg : Arg) :
    s.post k arg = { s with eng := { s.eng with queue := s.queueWith k arg } } := by
  unfold State.post State.queueWith
  split <;> rfl

theorem exec_inactivity_awake {s : State} {t : Nat} (hs : Settled s) (hrun : s.sup.inactivity = .running t)
    (hawake : s.sup.activity = .awake) :
    exec .inactivityTimerExpiry s = .next { s with
      now := max s.now t
      sup := { s.sup with activity := .doze, inactivity := .running (max s.now t + 300000) } } := by
  show execInactivityTimerExpiry s = _
  refine hs.event_eq ?_ ⟨hs.notices, hs.decided, hs.granted, fun h => nomatch h.2.1⟩
  simp only [hrun]
  exact if_neg (by simp [hawake])

theorem exec_inactivity_doze {s : State} {t : Nat} (hs : Settled s) (hrun : s.sup.inactivity = .running t)
    (hdoze : s.sup.activity = .doze) :
    exec .inactivityTimerExpiry s = .next
      (if s.eng.queue = [] ∧ s.storesQuiet = true ∧ s.line.view ≠ .round then
        { s with
          now := max s.now t
          sup := { s.sup with activity := .dormant, inactivity := .stopped }
          line := {}
          key := { s.key with debounce := [] } }
      else { s with now := max s.now t, sup := { s.sup with inactivity := .expired } }) := by
  show execInactivityTimerExpiry s = _
  rw [execInactivityTimerExpiry, event_of_effect hs.notices
    (u := { s with now := max s.now t, sup := { s.sup with inactivity := .expired } })
    (by simp only [hrun]; exact if_pos hdoze)]
  refine congrArg _ (Eq.trans (State.settle_eq_dormantIfQuiet ?notices ?decided ?granted) ?_)
  case notices => exact hs.notices
  case decided => exact hs.decided
  case granted => exact hs.granted
  by_cases hq : s.eng.queue = [] ∧ s.storesQuiet = true ∧ s.line.view ≠ .round
  · rw [if_pos hq]
    exact if_pos ⟨hdoze, rfl, hq⟩
  · rw [if_neg hq]
    exact if_neg fun h => hq h.2.2

theorem exec_wake {s : State} (hs : Settled s) (source : WakeSource) (hon : s.sup.state ≠ .off)
    (hdormant : s.sup.activity = .dormant) (hcold : s.sup.warmup = none)
    (hkey : ∀ k, source = .key k → s.pins.keyLines &&& keyMask k ≠ 0) :
    exec (.wake source) s = .next { s with sup := { s.sup with warmup := some (s.now + 20) } } := by
  have hwakes : s.wakes source = true := by
    cases source with
    | key k => exact bne_iff_ne.2 (hkey k rfl)
    | lineEdge => rfl
  show execWake source s = _
  exact hs.event_eq (if_pos ⟨hon, hdormant, hcold, hwakes⟩) ⟨hs.notices, hs.decided, hs.granted, hs.awake⟩

theorem exec_warmupEnd {s : State} {t : Nat} (hs : Settled s) (hwarm : s.sup.warmup = some t) :
    exec .warmupEnd s = .next { s with
      now := max s.now t
      sup := { s.sup with
        activity := .awake
        warmup := none
        inactivity := if s.sup.state = .battery ∧ s.grd.state.holding = false ∧ s.grd.state ≠ .strapFault then
          .running (max s.now t + 30000) else .stopped }
      line := { view := .syncing, idleTimer := some (max s.now t + 2) }
      key := { s.key with states := s.pins.keyLines, debounce := [] }
      eng := { s.eng with rollCount := 0, queue := s.queueWith .roll 0 } } := by
  show execWarmupEnd s = _
  refine hs.event_eq ?_ ⟨hs.notices, hs.decided, hs.granted, fun h => nomatch h.1⟩
  simp only [hwarm, State.warmedUp, State.post_eq_queueWith, State.mayDoze_iff]
  rfl

/-- Settles O17: AWAKE dozes, DOZE expires and may then fall DORMANT as the event ends; warm-up wakes the station. -/
theorem inactivityDozesAndWakingRolls : Obligations.InactivityDozesAndWakingRolls := by
  unfold Obligations.InactivityDozesAndWakingRolls
  exact ⟨fun s t hs hrun => ⟨exec_inactivity_awake hs hrun, exec_inactivity_doze hs hrun⟩,
    fun source s hs => exec_wake hs source, fun s t => exec_warmupEnd⟩

end Sys2Proof.Machine
end


section
/-! PROOF. The sampler: key lines and releases (R64, R70), how presses are classified and which are taken (R65, R66). -/

namespace Sys2Proof.Machine

/-! ## Key lines and releases -/

/-- The sampler's own fields are nothing that the end of an event looks at. -/
theorem Settled.withKey {s : State} (h : Settled s) (k : Keypad) : Settled { s with key := k } :=
  ⟨h.notices, h.decided, h.granted, h.awake⟩

/-- Neither are a moment and the sampler's fields together. -/
theorem Settled.withKeyAt {s : State} (h : Settled s) (n : Nat) (k : Keypad) :
    Settled { s with now := n, key := k } :=
  ⟨h.notices, h.decided, h.granted, h.awake⟩

theorem State.samples_iff (s : State) :
    s.samples = true ↔ s.sup.state ≠ .off ∧ s.sup.step = .done ∧ (s.sup.activity = .dormant → s.sup.warmup ≠ none) := by
  simp only [State.samples, Bool.and_eq_true, bne_iff_ne, beq_iff_eq, Bool.or_eq_true, Option.isSome_iff_ne_none,
    and_assoc]
  tauto

theorem Keypad.isDown_eq_iff (k : Keypad) (key : Key) (down : Bool) :
    k.isDown key = down ↔ (k.states &&& keyMask key ≠ 0) = (down = true) := by
  cases down <;> simp [Keypad.isDown]

/-- A level against its key state (R64). -/
theorem Keypad.sense_eq (k : Keypad) (key : Key) (down : Bool) (now : Nat) :
    k.sense key down now = { k with
      debounce :=
        if (k.states &&& keyMask key ≠ 0) = (down = true) then k.debounce.filter fun p => p.1 != keyNumber key
        else if k.debounceOf key = none then k.debounce ++ [(keyNumber key, now + 20)]
        else k.debounce } := by
  unfold Keypad.sense
  by_cases hagree : k.isDown key = down
  · rw [if_pos hagree, if_pos ((k.isDown_eq_iff key down).1 hagree)]
    rfl
  · rw [if_neg hagree, if_neg (mt (k.isDown_eq_iff key down).2 hagree)]
    cases hrun : k.debounceOf key <;> rfl

theorem exec_keyLineChange {s : State} (hs : Settled s) (k : Key) (down : Bool) :
    exec (.keyLineChange k down) s = .next
      (if s.sup.state ≠ .off ∧ s.sup.step = .done ∧ (s.sup.activity = .dormant → s.sup.warmup ≠ none) then
        { s with
          pins := s.pins.withKey k down
          key := { s.key with debounce :=
            if (s.key.states &&& keyMask k ≠ 0) = (down = true) then
              s.key.debounce.filter fun p => p.1 != keyNumber k
            else if s.key.debounceOf k = none then s.key.debounce ++ [(keyNumber k, s.now + 20)]
            else s.key.debounce } }
      else { s with pins := s.pins.withKey k down }) := by
  show execKeyLineChange k down s = _
  by_cases hsamples : s.samples = true
  · rw [if_pos (s.samples_iff.1 hsamples), ← s.key.sense_eq]
    exact hs.event_eq (if_pos hsamples) ⟨hs.notices, hs.decided, hs.granted, hs.awake⟩
  · rw [if_neg (mt s.samples_iff.2 hsamples)]
    exact hs.event_eq (if_neg hsamples) ⟨hs.notices, hs.decided, hs.granted, hs.awake⟩

/-- A recognized release: a key state, SHIFT's release remembered with a command pending, and the end of the reset chord
(R65, R70). -/
theorem State.recognizeRelease_reach (s : State) (k : Key) (t : Nat) :
    (s.reach t).recognizeRelease k =
      { s with
        now := max s.now t
        key := (fun key : Keypad =>
            if s.key.mode = .resetHold ∧ (k = .shift ∨ k = .unlock) then key.idleAgain else key)
          { s.key with
            states := s.key.states &&& ~~~keyMask k
            shiftFreed := s.key.shiftFreed || decide (k = .shift ∧ s.key.command ≠ none)
            debounce := s.key.debounce.filter fun p => p.1 != keyNumber k } } := by
  have hfreed : (k == .shift && s.key.command.isSome) = decide (k = .shift ∧ s.key.command ≠ none) := by
    rw [Bool.eq_iff_iff]
    simp [Option.isSome_iff_ne_none]
  simp only [← hfreed]
  by_cases hhold : s.key.mode = .resetHold ∧ (k = .shift ∨ k = .unlock)
  · rw [if_pos hhold]
    exact if_pos hhold
  · rw [if_neg hhold]
    exact if_neg hhold

theorem exec_keyRelease {s : State} {k : Key} {t : Nat} (hs : Settled s) (hdue : s.key.debounceOf k = some t)
    (hup : s.pins.keyLines &&& keyMask k = 0) (hdown : s.key.states &&& keyMask k ≠ 0) :
    exec (.keyRelease k) s = .next ((s.reach t).recognizeRelease k) := by
  have hlive : (s.pins.keyLines &&& keyMask k == 0 && s.key.isDown k) = true := by
    simpa [Keypad.isDown, hup] using hdown
  show execKeyRelease k s = _
  refine hs.event_eq ?_ ?_
  · simp only [hdue]
    exact if_pos hlive
  · rw [State.recognizeRelease_reach]
    exact hs.withKeyAt _ _

/-- Settles O18: each event moves the sampler alone, which leaves nothing over. -/
theorem keyLinesAndReleasesRunTheSampler : Obligations.KeyLinesAndReleasesRunTheSampler := by
  unfold Obligations.KeyLinesAndReleasesRunTheSampler
  refine ⟨fun k down s hs => exec_keyLineChange hs k down, fun k s t hs hdue hup hdown => ?_⟩
  rw [exec_keyRelease hs hdue hup hdown, State.recognizeRelease_reach]

/-! ## Classification -/

theorem keyMask_getLsbD (k : Key) {i : Nat} (hi : i < 12) : (keyMask k).getLsbD i = decide (keyNumber k = i) := by
  simp only [keyMask, BitVec.getLsbD_shiftLeft, BitVec.getLsbD_one]
  grind

theorem bitVec_ne_zero_iff {n : Nat} (x : BitVec n) : x ≠ 0 ↔ ∃ i < n, x.getLsbD i = true := by
  constructor
  · intro hx
    by_contra hnone
    push Not at hnone
    exact hx (BitVec.eq_of_getLsbD_eq fun i hi => by simpa using hnone i hi)
  · rintro ⟨i, -, hi⟩ rfl
    simp at hi

theorem digitKeys_getLsbD {i : Nat} (hi : i < 12) : digitKeys.getLsbD i = decide (i < 10) := by
  revert i
  decide

/-- Another digit is DOWN (R65). -/
theorem otherDigits_iff (d : Digit) (down : BitVec 12) :
    (down &&& ~~~keyMask (.digit d)) &&& digitKeys ≠ 0 ↔ ∃ e : Digit, e ≠ d ∧ down.getLsbD e.val = true := by
  have hbit : ∀ i < 12, ((down &&& ~~~keyMask (.digit d)) &&& digitKeys).getLsbD i
      = (down.getLsbD i && !decide (d.val = i) && decide (i < 10)) := by
    intro i hi
    simp only [BitVec.getLsbD_and, BitVec.getLsbD_not, keyMask_getLsbD _ hi, digitKeys_getLsbD hi, hi, keyNumber,
      decide_true, Bool.true_and]
    rfl
  rw [bitVec_ne_zero_iff]
  constructor
  · rintro ⟨i, hi, h⟩
    rw [hbit i hi] at h
    simp only [Bool.and_eq_true, Bool.not_eq_true', decide_eq_false_iff_not, decide_eq_true_eq] at h
    obtain ⟨⟨hdown, hne⟩, hten⟩ := h
    exact ⟨⟨i, hten⟩, fun he => hne (by rw [← he]), hdown⟩
  · rintro ⟨e, hne, hdown⟩
    have he : e.val < 12 := by omega
    refine ⟨e.val, he, ?_⟩
    rw [hbit _ he]
    simpa [hdown, Fin.val_inj] using Ne.symm hne

/-- SHIFT is DOWN beside another key (R65). -/
theorem shiftDown_iff {k : Key} (hk : k ≠ .shift) (down : BitVec 12) :
    (down &&& ~~~keyMask k) &&& keyMask .shift ≠ 0 ↔ down.getLsbD 11 = true := by
  have hother : keyNumber k ≠ 11 := by
    cases k with
    | digit d => simp only [keyNumber]; omega
    | unlock => decide
    | shift => exact absurd rfl hk
  have hbit : ∀ i < 12, ((down &&& ~~~keyMask k) &&& keyMask .shift).getLsbD i
      = (down.getLsbD i && decide (i = 11)) := by
    intro i hi
    simp only [BitVec.getLsbD_and, BitVec.getLsbD_not, keyMask_getLsbD _ hi, hi, decide_true, Bool.true_and]
    by_cases h11 : i = 11
    · rw [h11, decide_eq_false hother]
      simp [keyNumber]
    · simp [h11, Ne.symm h11, keyNumber]
  rw [bitVec_ne_zero_iff]
  constructor
  · rintro ⟨i, hi, h⟩
    rw [hbit i hi] at h
    simp only [Bool.and_eq_true, decide_eq_true_eq] at h
    exact h.2 ▸ h.1
  · intro h
    exact ⟨11, by decide, by rw [hbit 11 (by decide)]; simp [h]⟩

theorem classify_digit (d : Digit) (down : BitVec 12) :
    classify (.digit d) down =
      if ∃ e : Digit, e ≠ d ∧ down.getLsbD e.val = true then .ignored
      else if down.getLsbD 11 = true then .chord d else .digit d := by
  simp only [classify, bne_iff_ne, otherDigits_iff, shiftDown_iff (k := .digit d) nofun]

theorem classify_unlock (down : BitVec 12) :
    classify .unlock down = if down.getLsbD 11 = true then .chordUnlock else .unlock := by
  simp only [classify, bne_iff_ne, shiftDown_iff (k := .unlock) nofun]

/-! ## Recognized presses -/

/-- KEY_PRESS of a due press, whatever the round in progress makes of it. -/
theorem exec_keyPress_due {s : State} {k : Key} {t : Nat} (hn : s.notices = []) (hdue : PressDue s k t) :
    exec (.keyPress k) s = .next ((s.withPress k t).press k).settle := by
  have hup : s.key.isDown k = false := by simp [Keypad.isDown, hdue.up]
  have hline : (s.pins.keyLines &&& keyMask k != 0) = true := bne_iff_ne.2 hdue.line
  have hstill : (s.withPress k t).sup.activity ≠ .dormant := State.supplyAfterActivity_not_dormant hdue.awake _
  show execKeyPress k s = _
  refine event_of_effect hn ?_
  simp only [hdue.timer]
  rw [if_pos (by rw [hline, hup]; rfl), s.recognizePress_reach, if_neg hstill]

/-- KEY_PRESS of a due press that is free: it is taken, and where that leaves nothing over it is the whole answer. -/
theorem exec_keyPress_takes {s u : State} {k : Key} {t : Nat} (hs : Settled s) (hdue : PressDue s k t)
    (hfree : PressFree s) (htake : (s.withPress k t).takePress k = u) (hu : Settled u) :
    exec (.keyPress k) s = .next u := by
  rw [exec_keyPress_of_due hs.notices hdue hfree, htake, u.settle_settled hu]

/-- The guard states that take no presses (R66). -/
theorem GuardState.takesKeys_eq_false {g : GuardState}
    (h : g = .strapFault ∨ g = .starting ∨ g = .closing ∨ g = .wiping) : g.takesKeys = false := by
  obtain rfl | rfl | rfl | rfl := h <;> rfl

/-- A press that no rule takes changes nothing more (R65, R66). -/
theorem State.takePress_of_untaken {s : State} {k : Key}
    (h : s.grd.state = .strapFault ∨ s.grd.state = .starting ∨ s.grd.state = .closing ∨ s.grd.state = .wiping
      ∨ classify k s.key.states = .modifier ∨ classify k s.key.states = .ignored) : s.takePress k = s := by
  unfold State.takePress
  cases htakes : s.grd.state.takesKeys with
  | false => rfl
  | true =>
    have hclass : classify k s.key.states = .modifier ∨ classify k s.key.states = .ignored := by
      rcases h with h | h | h | h | h
      · simp [h, GuardState.takesKeys] at htakes
      · simp [h, GuardState.takesKeys] at htakes
      · simp [h, GuardState.takesKeys] at htakes
      · simp [h, GuardState.takesKeys] at htakes
      · exact h
    rcases hclass with h | h <;> simp [h]

/-- Settles O19: the classes by the bits that are DOWN; a press that is due is untaken, discarded or set aside. -/
theorem pressesAreClassifiedAndTaken : Obligations.PressesAreClassifiedAndTaken := by
  unfold Obligations.PressesAreClassifiedAndTaken
  refine ⟨fun down => ⟨rfl, fun d => classify_digit d down, classify_unlock down⟩, fun k s t hs hdue => ⟨?_, ?_, ?_⟩⟩
  · intro hfree huntaken
    refine exec_keyPress_takes hs hdue hfree (State.takePress_of_untaken ?_) (hs.withPress k t)
    rwa [show classify k (s.withPress k t).key.states = classify k s.key.states from classify_or_keyMask _ _]
  · intro haside hdiscard
    have hpress : (s.withPress k t).press k = s.withPress k t := by
      have haside' : setsAside (s.withPress k t) = false := haside
      have hdiscard' : discardsPress (s.withPress k t) = true := hdiscard
      simp [State.press, haside', hdiscard']
    rw [exec_keyPress_due hs.notices hdue, hpress, State.settle_settled _ (hs.withPress k t)]
  · intro haside
    have hpress : (s.withPress k t).press k
        = { s.withPress k t with key := { (s.withPress k t).key with setAside := s.key.setAside ++ [k] } } :=
      if_pos haside
    rw [exec_keyPress_due hs.notices hdue, hpress, State.settle_settled _ ((hs.withPress k t).withKey _)]

end Sys2Proof.Machine
end


section
/-! PROOF. Posts and hold requests: what each leaves of the queue (R46, R47), and of the deadline (R5, R6, R106). -/

namespace Sys2Proof.Machine

/-! ## The queued request of a kind -/

theorem queueFind_none_iff {k : RoundKind} {q : List Request} : queueFind k q = none ↔ ∀ r ∈ q, r.kind ≠ k := by
  simp [queueFind]

@[simp] theorem queueFind_cons (k : RoundKind) (r : Request) (q : List Request) :
    queueFind k (r :: q) = if r.kind = k then some r else queueFind k q := by
  simp only [queueFind, List.find?_cons]
  split <;> simp_all

/-- A request put in its place is found by a kind that had none, and hides no request of another kind. -/
theorem queueFind_queueInsert (k : RoundKind) (r : Request) (q : List Request) (h : queueFind r.kind q = none) :
    queueFind k (queueInsert r q) = if r.kind = k then some r else queueFind k q := by
  induction q with
  | nil => simp [queueInsert]
  | cons x q ih =>
    rw [queueFind_cons] at h
    by_cases hx : x.kind = r.kind
    · simp [hx] at h
    · simp only [if_neg hx] at h
      unfold queueInsert
      split
      · simp
      · by_cases hk : r.kind = k
        · subst hk; simp [hx, ih h]
        · simp [ih h, hk]

/-- A change in place that keeps the kind reaches the request of that kind alone. -/
theorem queueFind_queueModify (k x : RoundKind) (f : Request → Request) (hf : ∀ r, (f r).kind = r.kind)
    (q : List Request) :
    queueFind x (queueModify k f q) = if x = k then (queueFind k q).map f else queueFind x q := by
  induction q with
  | nil => simp [queueModify, queueFind]
  | cons r q ih =>
    have hcons : queueModify k f (r :: q) = (if r.kind = k then f r else r) :: queueModify k f q := rfl
    rw [hcons, queueFind_cons, ih]
    by_cases hr : r.kind = k <;> by_cases hx : x = k
    · subst hx; simp [hr, hf]
    · have hrx : r.kind ≠ x := fun e => hx (e.symm.trans hr)
      simp [hr, hf, hx, Ne.symm hx]
    · subst hx; simp [hr]
    · simp [hr, hx]

/-- A post leaves the requests of the other kinds (R47). -/
theorem queueFind_queuePost_ne {k x : RoundKind} (h : x ≠ k) (a : Arg) (q : List Request) :
    queueFind x (queuePost k a q) = queueFind x q := by
  unfold queuePost
  split
  · next hnone => rw [queueFind_queueInsert x _ q hnone, if_neg (Ne.symm h)]
  · split
    · rfl
    · rw [queueFind_queueModify k x _ (fun r => repost_kind r a), if_neg h]

/-- A post of a kind that has none adds a fresh request (R47). -/
theorem queueFind_queuePost_none {k : RoundKind} {q : List Request} (h : queueFind k q = none) (a : Arg) :
    queueFind k (queuePost k a q) = some { kind := k, arg := a } := by
  simp only [queuePost, h]
  rw [queueFind_queueInsert k { kind := k, arg := a } q h, if_pos rfl]

/-- A post of the same ARG is dropped (R47). -/
theorem queuePost_same {k : RoundKind} {q : List Request} {r : Request} (h : queueFind k q = some r) :
    queuePost k r.arg q = q := by
  simp [queuePost, h]

/-- A post of another ARG changes the queued request in place (R47). -/
theorem queueFind_queuePost_other {k : RoundKind} {q : List Request} {r : Request} {a : Arg}
    (h : queueFind k q = some r) (ha : r.arg ≠ a) : queueFind k (queuePost k a q) = some (r.repost a) := by
  simp only [queuePost, h, if_neg ha]
  rw [queueFind_queueModify k k _ (fun r => repost_kind r a), if_pos rfl, h]
  rfl

/-- After a post the queued request of its kind has its ARG (R47). -/
theorem queueFind_queuePost_arg (k : RoundKind) (a : Arg) (q : List Request) :
    ∃ x, queueFind k (queuePost k a q) = some x ∧ x.arg = a := by
  cases h : queueFind k q with
  | none => exact ⟨_, queueFind_queuePost_none h a, rfl⟩
  | some r =>
    by_cases ha : r.arg = a
    · subst ha
      exact ⟨r, by rw [queuePost_same h, h], rfl⟩
    · refine ⟨_, queueFind_queuePost_other h ha, ?_⟩
      unfold Request.repost
      split <;> rfl

/-- A post outside STRAP_FAULT writes the queue alone. -/
theorem State.post_eq {s : State} (h : s.grd.state ≠ .strapFault) (k : RoundKind) (a : Arg) :
    s.post k a = { s with eng := { s.eng with queue := queuePost k a s.eng.queue } } :=
  if_neg h

/-- Settles O30: the four cases of R47, and the other kinds. -/
theorem postedRequestsAreTakenByTheQueue : Obligations.PostedRequestsAreTakenByTheQueue := by
  unfold Obligations.PostedRequestsAreTakenByTheQueue
  intro s k arg hstrap
  have hqueue : (s.post k arg).eng.queue = queuePost k arg s.eng.queue := s.post_queue k arg hstrap
  rw [hqueue]
  refine ⟨State.post_eq hstrap k arg, fun x hx => queueFind_queuePost_ne hx arg _,
    fun hnone => queueFind_queuePost_none hnone arg, fun r hr => ⟨?same, ?waits, ?flies⟩⟩
  case same =>
    rintro rfl
    rw [State.post_eq hstrap, queuePost_same hr]
  case waits =>
    intro ha hflight
    rw [queueFind_queuePost_other hr ha]
    simp [Request.repost, hflight]
  case flies =>
    intro ha hflight
    rw [queueFind_queuePost_other hr ha]
    simp [Request.repost, hflight]

/-! ## Hold requests -/

theorem State.holdRequest_of_le {s : State} {n d : Nat} (h : s.tal.deadline = some d) (hd : s.now + 1000 * n ≤ d) :
    s.holdRequest n = s := by
  simp [State.holdRequest, h, hd]

/-- A hold request past the deadline moves it (R106). -/
theorem State.holdRequest_of_lt {s : State} {n : Nat} (h : ∀ d, s.tal.deadline = some d → d < s.now + 1000 * n) :
    s.holdRequest n = s.moveDeadline (s.now + 1000 * n) n := by
  unfold State.holdRequest
  split
  · next d hd => exact if_neg (Nat.not_le.2 (h d hd))
  · rfl

theorem State.takeDeadline_grd (s : State) :
    s.takeDeadline.grd = { s.grd with state := if s.grd.state = .locked then .held else s.grd.state } := by
  unfold State.takeDeadline
  by_cases h : s.grd.state = .locked
  · rw [if_pos h, if_pos h, State.setGuard_grd (by simp [h])]
  · rw [if_neg h, if_neg h]

/-- What a moved deadline leaves of the tally block, of storage and of the guard controller (R5, R6, R106). -/
theorem State.moveDeadline_blocks {s : State} (hstrap : s.grd.state ≠ .strapFault) (d n : Nat) :
    (s.moveDeadline d n).tal
        = { s.tal with deadline := some d, holdOwed := n, owedStore := s.tal.owedStore.put n }
      ∧ (s.moveDeadline d n).nv = s.nv
      ∧ (s.moveDeadline d n).grd =
        if s.inCheck then { s.grd with holdDue := true }
        else { s.grd with state := if s.grd.state = .locked then .held else s.grd.state } := by
  have hmay : s.mayStore = true := bne_iff_ne.2 hstrap
  have htal : (({ s with tal := { s.tal with deadline := some d } } : State).setOwed n).tal
      = { s.tal with deadline := some d, holdOwed := n, owedStore := s.tal.owedStore.put n } := by
    unfold State.setOwed
    have hmay' : ({ s with tal := { s.tal with deadline := some d } } : State).mayStore = true := hmay
    simp only [hmay', if_true]
  have hcheck : (({ s with tal := { s.tal with deadline := some d } } : State).setOwed n).inCheck = s.inCheck := rfl
  unfold State.moveDeadline
  dsimp only
  rw [hcheck]
  cases s.inCheck with
  | true => exact ⟨htal, rfl, rfl⟩
  | false => exact ⟨by simpa [State.takeDeadline, apply_ite State.tal] using htal, by simp, State.takeDeadline_grd _⟩

/-- Settles O28: a request is met by the deadline that stands, or moves it. -/
theorem holdRequestsMoveTheDeadlineLater : Obligations.HoldRequestsMoveTheDeadlineLater := by
  unfold Obligations.HoldRequestsMoveTheDeadlineLater
  intro s n
  refine ⟨fun d => State.holdRequest_of_le, fun hlater hstrap => ?_⟩
  rw [State.holdRequest_of_lt hlater]
  obtain ⟨htal, hnv, hgrd⟩ := State.moveDeadline_blocks hstrap (s.now + 1000 * n) n
  exact ⟨htal, hnv, fun hcheck => hgrd.trans (if_pos hcheck), fun hcheck => hgrd.trans (by simp [hcheck])⟩

end Sys2Proof.Machine
end


section
/-! PROOF. A local lock (R10 to R15): where it leaves the station, and that nothing later in the event undoes it. With it
the idle line and the rounds seen late (R23, R24, R35). -/

namespace Sys2Proof.Machine

/-! ## A change of guard state and the presented request -/

theorem State.setGuard_gate_presented {s : State} {g : GuardState} (h : s.grd.state ≠ g) :
    (s.setGuard g).gate.presented
      = (({ (({ s with grd := { s.grd with state := g } } : State).keypadReset) with
          gate := s.gate.takeGuard s.grd.state g } : State).regate).gate.presented := by
  rw [State.setGuard_of_ne h]
  dsimp only
  repeat' split
  all_goals simp

theorem State.regate_presented_none {s : State} (h : s.gate.presented = none) : s.regate.gate.presented = none := by
  rw [s.regate_none h, h]

/-- An empty slot stays empty. -/
theorem State.setGuard_presented_none {s : State} (h : s.gate.presented = none) (g : GuardState) :
    (s.setGuard g).gate.presented = none := by
  by_cases hg : s.grd.state = g
  · rw [State.setGuard_self hg, h]
  · rw [State.setGuard_gate_presented hg]
    exact State.regate_presented_none (by simp [h])

/-- In CLOSING every request is refused (R132), so the entry to CLOSING empties the slot. -/
theorem State.setGuard_closing_presented {s : State} (h : s.grd.state ≠ .closing) :
    (s.setGuard .closing).gate.presented = none := by
  rw [State.setGuard_gate_presented h]
  by_contra hsome
  obtain ⟨r, hr⟩ := Option.ne_none_iff_exists'.1 hsome
  obtain ⟨-, hforward, -⟩ := State.regate_presented _ r hr
  revert hforward
  simp [gateDecision]
  split <;> simp

/-- The sampler is in IDLE, with no command pending. -/
def State.keypadAtRest (s : State) : Prop := s.key.mode = .idle ∧ s.key.command = none

theorem State.setGuard_atRest {s : State} {g : GuardState} (h : s.grd.state ≠ g) : (s.setGuard g).keypadAtRest := by
  unfold State.keypadAtRest
  rw [State.setGuard_key h]
  exact ⟨rfl, rfl⟩

theorem State.keypadAtRest.setGuard {s : State} (h : s.keypadAtRest) (g : GuardState) : (s.setGuard g).keypadAtRest := by
  by_cases hg : s.grd.state = g
  · rwa [State.setGuard_self hg]
  · exact State.setGuard_atRest hg

/-- What a hold request does to the guard controller: nothing, a note that it is due, or the move from LOCKED to HELD. -/
theorem State.holdRequest_cases (s : State) (n : Nat) :
    s.holdRequest n = s ∨ ∃ (tal : TallyHold) (due : Bool), tal.tally = s.tal.tally ∧ tal.deadline.isSome
      ∧ (s.holdRequest n = { s with tal := tal, grd := { s.grd with holdDue := due } }
        ∨ (s.grd.state = .locked ∧ s.holdRequest n = ({ s with tal := tal } : State).setGuard .held)) := by
  have hmove : ∀ d : Nat, ∃ (tal : TallyHold) (due : Bool), tal.tally = s.tal.tally ∧ tal.deadline.isSome
      ∧ (s.moveDeadline d n = { s with tal := tal, grd := { s.grd with holdDue := due } }
        ∨ (s.grd.state = .locked ∧ s.moveDeadline d n = ({ s with tal := tal } : State).setGuard .held)) := by
    intro d
    let owed : State := ({ s with tal := { s.tal with deadline := some d } } : State).setOwed n
    by_cases hcheck : s.inCheck = true
    · refine ⟨owed.tal, true, rfl, rfl, .inl ?_⟩
      exact if_pos hcheck
    · by_cases hlocked : s.grd.state = .locked
      · refine ⟨owed.tal, s.grd.holdDue, rfl, rfl, .inr ⟨hlocked, ?_⟩⟩
        exact (if_neg hcheck).trans (if_pos hlocked)
      · refine ⟨owed.tal, s.grd.holdDue, rfl, rfl, .inl ?_⟩
        exact (if_neg hcheck).trans (if_neg hlocked)
  unfold State.holdRequest
  dsimp only
  split
  · split
    · exact .inl rfl
    · exact .inr (hmove _)
  · exact .inr (hmove _)

/-! ## The station once it has locked -/

/-- u is a station that has left the open states of s: nothing is presented, the sampler is at rest, and it is shut
without its key, or in CLOSING while accesses of s are outstanding (R10 to R15). -/
structure LockedAway (s u : State) : Prop where
  presented : u.gate.presented = none
  outstanding : u.gate.outstanding = s.gate.outstanding
  battery : u.grd.batteryTimer = none
  rest : u.keypadAtRest
  shut : s.gate.outstanding = [] →
    (u.grd.state = .locked ∨ u.grd.state = .held) ∧ u.cred.plainKey = none ∧ u.grd.matched = none
      ∧ u.grd.mustChange = false
  waits : s.gate.outstanding ≠ [] →
    u.grd.state = .closing ∧ u.cred.plainKey = s.cred.plainKey ∧ u.grd.matched = s.grd.matched

namespace LockedAway

variable {s u v : State}

theorem closed (h : LockedAway s u) : u.grd.state = .locked ∨ u.grd.state = .held ∨ u.grd.state = .closing := by
  by_cases ho : s.gate.outstanding = []
  · obtain ⟨hl | hh, -⟩ := h.shut ho
    · exact .inl hl
    · exact .inr (.inl hh)
  · exact .inr (.inr (h.waits ho).1)

theorem not_open (h : LockedAway s u) : ¬(u.grd.state = .opened ∨ u.grd.state = .admin) := by
  rcases h.closed with h | h | h <;> simp [h]

/-- A change that leaves the gate, the key and the guard controller as they stand, but for a hold noted as due. -/
theorem congr (h : LockedAway s u) (gate : v.gate = u.gate) (rest : v.keypadAtRest)
    (grd : ∃ due pulse, v.grd = { u.grd with holdDue := due, pulseTimer := pulse })
    (plain : v.cred.plainKey = u.cred.plainKey) : LockedAway s v := by
  obtain ⟨due, pulse, grd⟩ := grd
  exact {
    presented := by rw [gate]; exact h.presented
    outstanding := by rw [gate]; exact h.outstanding
    battery := by rw [grd]; exact h.battery
    rest := rest
    shut := by rw [grd, plain]; exact h.shut
    waits := by rw [grd, plain]; exact h.waits }

/-- A station in LOCKED may go to HELD (R6). -/
theorem hold (h : LockedAway s u) (hlocked : u.grd.state = .locked) : LockedAway s (u.setGuard .held) where
  presented := State.setGuard_presented_none h.presented _
  outstanding := by simpa using h.outstanding
  battery := by simpa using h.battery
  rest := State.setGuard_atRest (by simp [hlocked])
  shut ho := by simpa using (h.shut ho).2
  waits ho := absurd ((h.waits ho).1.symm.trans hlocked) (by decide)

theorem holdRequest (h : LockedAway s u) (n : Nat) : LockedAway s (u.holdRequest n) := by
  rcases u.holdRequest_cases n with hr | ⟨tal, due, -, -, hr | ⟨hl, hr⟩⟩ <;> rw [hr]
  · exact h
  · exact h.congr rfl h.rest ⟨due, _, rfl⟩ rfl
  · exact LockedAway.hold (u := { u with tal := tal }) (h.congr rfl h.rest ⟨_, _, rfl⟩ rfl) hl

theorem lockLocally (h : LockedAway s u) : LockedAway s u.lockLocally := by
  rwa [u.lockLocally_of_closed h.not_open]

theorem post (h : LockedAway s u) (k : RoundKind) (a : Arg) : LockedAway s (u.post k a) := by
  rw [State.post_eq_queueWith]
  exact h.congr rfl h.rest ⟨_, _, rfl⟩ rfl

theorem drain (h : LockedAway s u) : LockedAway s u.drain :=
  u.drain_keeps_all (LockedAway s) (fun _ _ h => h.congr rfl h.rest ⟨_, _, rfl⟩ rfl) (fun _ n h => h.holdRequest n)
    (fun _ h => h.lockLocally) (fun _ k a h => h.post k a) (fun _ _ h => h.congr rfl h.rest ⟨_, _, rfl⟩ rfl)
    (fun _ _ _ h => h.congr rfl h.rest ⟨_, _, rfl⟩ rfl) h

/-- With nothing presented the port can go to an erase alone. -/
theorem grantPort (h : LockedAway s u) : LockedAway s u.grantPort := by
  unfold State.grantPort
  rw [bridgeCandidate_eq_none (.inl h.presented)]
  split
  · split
    · exact h
    · exact ⟨h.presented, h.outstanding, h.battery, h.rest, h.shut, h.waits⟩
    · next hcand _ => cases hcand
    · next hcand _ => cases hcand
  · exact h

theorem settle (h : LockedAway s u) : LockedAway s u.settle := by
  have hgrant : LockedAway s u.drain.regate.grantPort := by
    rw [State.regate_none _ h.drain.presented]
    exact h.drain.grantPort
  unfold State.settle
  rcases State.dormantIfQuiet_cases u.drain.regate.grantPort with hd | ⟨-, -, hd⟩ <;> rw [hd]
  · exact hgrant
  · exact hgrant.congr rfl hgrant.rest ⟨_, _, rfl⟩ rfl

end LockedAway

/-- A local lock of an open station (R10 to R15). -/
theorem State.lockLocally_lockedAway {s : State} (h : s.grd.state = .opened ∨ s.grd.state = .admin) :
    LockedAway s s.lockLocally := by
  have hne : s.grd.state ≠ .closing := by rcases h with h | h <;> simp [h]
  have hstep : ({ s with grd := { s.grd with batteryTimer := none } } : State).grd.state ≠ .closing := hne
  unfold State.lockLocally
  rw [if_pos h]
  by_cases ho : s.gate.outstanding = []
  · have hclosing : ∀ u : State, u.grd.state = .closing → u.gate.presented = none → u.grd.batteryTimer = none →
        u.gate.outstanding = s.gate.outstanding → LockedAway s u.endClosing := by
      intro u hu hp hb hout
      have hto : u.grd.state ≠ (if u.deadlineAhead then .held else .locked) := by
        rw [hu]
        split <;> simp
      exact {
        presented := State.setGuard_presented_none (by exact hp) _
        outstanding := by simpa using hout
        battery := by simpa [State.endClosing] using hb
        rest := State.setGuard_atRest (by exact hto)
        shut := fun _ => ⟨by rw [State.endClosing_state]; split <;> simp, by simp [State.endClosing],
          by simp [State.endClosing], by simp [State.endClosing]⟩
        waits := fun hne => absurd ho hne }
    have hend := hclosing (({ s with grd := { s.grd with batteryTimer := none } } : State).setGuard .closing) (by simp)
      (State.setGuard_closing_presented hstep) (by simp) (by simp)
    simpa [ho, State.drained] using hend
  · have hstays : LockedAway s (({ s with grd := { s.grd with batteryTimer := none } } : State).setGuard .closing) := {
        presented := State.setGuard_closing_presented hstep
        outstanding := by simp
        battery := by simp
        rest := State.setGuard_atRest hstep
        shut := fun he => absurd he ho
        waits := fun _ => by simp }
    simpa [ho] using hstays

/-! ## The LOCK request of a lock -/

/-- A change of guard state withdraws CHECK and SETCODE requests alone (R78). -/
theorem State.setGuard_queueFind {k : RoundKind} (hk : k ≠ .check) (hk' : k ≠ .setcode) (s : State) (g : GuardState) :
    queueFind k (s.setGuard g).eng.queue = queueFind k s.eng.queue := by
  by_cases hg : s.grd.state = g
  · rw [State.setGuard_self hg]
  · rw [State.setGuard_queue hg, queueFind, List.find?_filter, queueFind]
    congr 1
    funext r
    by_cases hr : r.kind = k
    · simp [hr, hk, hk']
    · simp [hr]

theorem State.lockLocally_queueFind {k : RoundKind} (hk : k ≠ .check) (hk' : k ≠ .setcode) (s : State) :
    queueFind k s.lockLocally.eng.queue = queueFind k s.eng.queue := by
  unfold State.lockLocally State.drained State.endClosing
  dsimp only
  repeat' split
  all_goals simp [State.setGuard_queueFind hk hk']

theorem State.holdRequest_queueFind {k : RoundKind} (hk : k ≠ .check) (hk' : k ≠ .setcode) (s : State) (n : Nat) :
    queueFind k (s.holdRequest n).eng.queue = queueFind k s.eng.queue := by
  rcases s.holdRequest_cases n with hr | ⟨tal, due, -, -, hr | ⟨-, hr⟩⟩ <;> rw [hr]
  exact State.setGuard_queueFind hk hk' _ _

/-- A request of a kind that a change of guard state does not withdraw stays queued through the event's actions. -/
theorem State.drain_queueFind_isSome {k : RoundKind} (hk : k ≠ .check) (hk' : k ≠ .setcode) {s : State}
    (h : (queueFind k s.eng.queue).isSome = true) : (queueFind k s.drain.eng.queue).isSome = true := by
  refine s.drain_keeps_all (fun u => (queueFind k u.eng.queue).isSome = true) (fun _ _ h => h) ?_ ?_ ?_
    (fun _ _ h => h) (fun _ _ _ h => h) h
  · intro u n hu
    rwa [u.holdRequest_queueFind hk hk' n]
  · intro u hu
    rwa [u.lockLocally_queueFind hk hk']
  · intro u x a hu
    unfold State.post
    split
    · exact hu
    · rw [queueFind_isSome] at hu ⊢
      exact queuePost_keeps hu

theorem State.settle_queue (s : State) : s.settle.eng.queue = s.drain.eng.queue := by
  simp [State.settle]

theorem State.settle_queueFind_isSome {k : RoundKind} (hk : k ≠ .check) (hk' : k ≠ .setcode) {s : State}
    (h : (queueFind k s.eng.queue).isSome = true) : (queueFind k s.settle.eng.queue).isSome = true := by
  rw [s.settle_queue]
  exact State.drain_queueFind_isSome hk hk' h

/-- With no entry armed and STARTING not ending, the event's actions leave the queue. -/
theorem State.settle_queue_unarmed {s : State} (h : s.pol.armed = 0) (hn : Notice.startingEnded ∉ s.notices) :
    s.settle.eng.queue = s.eng.queue := by
  obtain ⟨p, -, -, -, -, hd⟩ := s.drain_unarmed h hn
  rw [s.settle_queue, hd]

/-! ## An open station that locks in an event -/

/-- An open station that locks and posts LOCK, seen at the end of the event. -/
structure LocksWith (s : State) (cause : Arg) (u : State) : Prop where
  away : LockedAway s u
  queued : (queueFind .lock u.eng.queue).isSome = true
  cause : s.pol.armed = 0 → Notice.startingEnded ∉ s.notices → LockPosted u cause

/-- A change of guard state into a state other than a holding one's end adds its own notice alone. -/
theorem State.setGuard_no_startingEnded {s : State} (h : Notice.startingEnded ∉ s.notices) (g : GuardState) :
    Notice.startingEnded ∉ (s.setGuard g).notices := by
  by_cases hg : s.grd.state = g
  · rwa [State.setGuard_self hg]
  · simp [State.setGuard_notices hg, h]

theorem State.lockLocally_no_startingEnded {s : State} (h : Notice.startingEnded ∉ s.notices) :
    Notice.startingEnded ∉ s.lockLocally.notices := by
  unfold State.lockLocally
  dsimp only
  split
  · have hclosing := State.setGuard_no_startingEnded
      (s := { s with grd := { s.grd with batteryTimer := none } }) h .closing
    split
    · unfold State.drained State.endClosing
      split
      · exact State.setGuard_no_startingEnded (by exact hclosing) _
      · exact hclosing
    · exact hclosing
  · exact h

theorem State.lockLocally_not_strapFault {s : State} (h : s.grd.state ≠ .strapFault) :
    s.lockLocally.grd.state ≠ .strapFault := by
  rw [s.lockLocally_state]
  repeat' split
  all_goals simp [h]

/-- A local lock with its LOCK request, to the end of the event (R10, R11, R13, R14). -/
theorem State.lockAndPost_settles {s : State} (h : s.grd.state = .opened ∨ s.grd.state = .admin) (cause : Arg) :
    LocksWith s cause (s.lockLocally.post .lock cause).settle := by
  have haway : LockedAway s (s.lockLocally.post .lock cause) := (State.lockLocally_lockedAway h).post _ _
  have hqueue : (s.lockLocally.post .lock cause).eng.queue = queuePost .lock cause s.lockLocally.eng.queue :=
    State.post_queue _ _ _ (s.lockLocally_not_strapFault (by rcases h with h | h <;> simp [h]))
  obtain ⟨x, hx, hcause⟩ := queueFind_queuePost_arg .lock cause s.lockLocally.eng.queue
  rw [← hqueue] at hx
  refine ⟨haway.settle, State.settle_queueFind_isSome (k := .lock) (by decide) (by decide) (by rw [hx]; rfl), fun harmed hn => ⟨x, ?_, hcause⟩⟩
  rw [State.settle_queue_unarmed (by simpa using harmed) (by simpa using State.lockLocally_no_startingEnded hn), hx]

/-! ## The idle line, rounds seen late, and the line's timers -/

theorem LineView.waitsIdle_iff (v : LineView) : v.waitsIdle = true ↔ v = .gap ∨ v = .syncing ∨ v = .rejecting := by
  cases v <;> simp [LineView.waitsIdle]

theorem State.supplyAfterActivity_cases (s : State) (now : Nat) :
    s.supplyAfterActivity now = s.sup
      ∨ s.supplyAfterActivity now = { s.sup with inactivity := .running (now + 30000), activity := .awake } := by
  unfold State.supplyAfterActivity
  split
  · exact .inr rfl
  · exact .inl rfl

theorem exec_idleGapReached {s : State} (hs : Settled s) (htrack : s.tracking = true)
    (hview : s.line.view = .gap ∨ s.line.view = .syncing ∨ s.line.view = .rejecting) :
    exec .idleGapReached s = .next { s with
      now := max s.now (s.line.idleTimer.getD s.now)
      line := { s.line with view := .idle, idleTimer := none, stuckTimer := none, tail := false }
      sup := if s.line.tail then s.supplyAfterActivity (max s.now (s.line.idleTimer.getD s.now)) else s.sup } := by
  have hwaits : (s.tracking && s.line.view.waitsIdle) = true := by
    rw [htrack, (LineView.waitsIdle_iff _).2 hview]
    rfl
  have hround : s.line.view ≠ .round := by rcases hview with h | h | h <;> simp [h]
  show execIdleGapReached s = _
  cases htail : s.line.tail with
  | false =>
    refine hs.event_eq ?_ ⟨hs.notices, hs.decided, hs.granted, fun h => hs.awake ⟨h.1, h.2.1, h.2.2.1, h.2.2.2.1, hround⟩⟩
    refine (if_pos hwaits).trans ?_
    simp [State.idleReached, State.reach, htail]
  | true =>
    refine hs.event_eq ?_ ?_
    · refine (if_pos hwaits).trans ?_
      simp only [State.idleReached, State.reach, htail, if_true, State.activityEvent_eq]
      rfl
    · rw [if_pos rfl]
      rcases s.supplyAfterActivity_cases (max s.now (s.line.idleTimer.getD s.now)) with h | h <;> rw [h]
      · exact ⟨hs.notices, hs.decided, hs.granted, fun h => hs.awake ⟨h.1, h.2.1, h.2.2.1, h.2.2.2.1, hround⟩⟩
      · exact ⟨hs.notices, hs.decided, hs.granted, fun h => nomatch h.1⟩

/-- The line of a station that sees a round under way (R24, R35). -/
def State.lineLate (s : State) : State :=
  { s with line := { s.line with
      idleTimer := none, stuckTimer := some (s.line.stuckTimer.getD (s.now + 50)), tail := true } }

theorem exec_lateRoundSeen {s : State} (hn : s.notices = []) (htrack : s.tracking = true)
    (hview : s.line.view = .syncing) : exec .lateRoundSeen s = .next (s.lineLate.lockForLine).settle := by
  show execLateRoundSeen s = _
  exact event_of_effect hn (if_pos (by rw [htrack, hview]; rfl))

theorem lineBits_full (f : Field) : asBits (2 ^ fieldWidth f - 1) = asBits (fieldMax f) := rfl

/-- A field that is dominant throughout ends dominant, but for a hold field, which has no width (R35). -/
theorem endsDominant_of_throughout {f : Field} (hf : f ≠ .hold) {v : LineBits} (h : dominantThroughout f v = true) :
    endsDominant f v = true := by
  unfold dominantThroughout at h
  unfold endsDominant
  by_cases hmap : convention f = .map
  · rw [if_pos hmap, beq_iff_eq] at h
    rw [if_pos hmap, h]
    cases f with
    | openers | answer | wipeAny | agree | stored | verdictAgree | done | accept => decide
    | _ => simp [convention] at hmap
  · rw [if_neg hmap, beq_iff_eq] at h
    rw [if_neg hmap, h]
    simp

theorem dominantThroughout_iff (f : Field) (v : LineBits) :
    dominantThroughout f v = true ↔ v = (if convention f = .map then asBits (2 ^ fieldWidth f - 1) else 0) := by
  unfold dominantThroughout
  split <;> simp [lineBits_full]

/-- The timers at a field's end, by how it ends (R23, R35). -/
theorem LineIf.sensed_timers (l : LineIf) {f : Field} (hf : f ≠ .hold) (v : LineBits) (now : Nat) :
    l.sensed f v now =
      if endsDominant f v then { l with
        idleTimer := none
        stuckTimer :=
          if v = (if convention f = .map then asBits (2 ^ fieldWidth f - 1) else 0) ∧ l.stuckTimer ≠ none then
            l.stuckTimer
          else some (now + 50) }
      else { l with stuckTimer := none, idleTimer := some (l.idleTimer.getD (now + 2)) } := by
  unfold LineIf.sensed
  by_cases hall : dominantThroughout f v = true
  · rw [if_pos hall, if_pos (endsDominant_of_throughout hf hall)]
    have hv := (dominantThroughout_iff f v).1 hall
    cases hstuck : l.stuckTimer with
    | none => simp [LineIf.turnDominant, hstuck, Config.lineStuckTime]
    | some t =>
      rw [if_pos ⟨hv, nofun⟩]
      simp [LineIf.turnDominant, hstuck]
  · rw [if_neg hall]
    have hv := mt (dominantThroughout_iff f v).2 hall
    simp only [hv, false_and, if_false]
    rfl

/-- Settles O31: the idle line by its one effect, a late round by the lock of an open station, and the two timers. -/
theorem idleGapsAndLateRounds : Obligations.IdleGapsAndLateRounds := by
  unfold Obligations.IdleGapsAndLateRounds
  refine ⟨fun s => exec_idleGapReached, fun s hs htrack hview => ⟨?shut, ?opens⟩, ?timers⟩
  case shut =>
    intro ho ha
    rw [exec_lateRoundSeen hs.notices htrack hview]
    have hclosed : ¬(s.grd.state = .opened ∨ s.grd.state = .admin) := fun h => h.elim ho ha
    have hlock : s.lineLate.lockForLine = s.lineLate := if_neg hclosed
    rw [hlock, State.settle_settled s.lineLate ⟨hs.notices, hs.decided, hs.granted, hs.awake⟩]
    rfl
  case opens =>
    intro hopen
    have hlock : s.lineLate.lockForLine = s.lineLate.lockLocally.post .lock 4 := if_pos hopen
    have hlocks := State.lockAndPost_settles (s := s.lineLate) hopen 4
    rw [← hlock] at hlocks
    refine ⟨_, exec_lateRoundSeen hs.notices htrack hview, ?_, ?_, hlocks.queued,
      fun harmed => hlocks.cause harmed (by simp [State.lineLate, hs.notices]),
      fun hempty => ⟨(hlocks.away.shut hempty).1, (hlocks.away.shut hempty).2.1⟩,
      fun hout => (hlocks.away.waits hout).1⟩
    · have hsync : s.lineLate.lockForLine.line.view = .syncing := by simpa [State.lineLate] using hview
      unfold State.settle
      rcases State.dormantIfQuiet_cases s.lineLate.lockForLine.drain.regate.grantPort with hd | ⟨-, -, hd⟩ <;> rw [hd]
      · simpa using hsync
      · rfl
    · simp [State.lineLate]
  case timers =>
    intro l f v now hf dominantLast hlast
    rw [l.sensed_timers hf, hlast]
    rfl

end Sys2Proof.Machine
end


section
/-! PROOF. The gestures of the keypad (R67 to R73, R75): each press by the rule that takes it, as the whole answer of
KEY_PRESS. -/

namespace Sys2Proof.Machine

/-! ## The rule that takes a press -/

/-- A press of a class taken by the rules for the guard state and the mode (R65, R66). -/
def State.takeGesture (s : State) : Gesture → State
  | .modifier | .ignored => s
  | .digit d => s.takeDigit d
  | .chord d => if s.key.digitFollows then s.takeDigit d else s.takeChord d
  | .chordUnlock => s.takeChordUnlock
  | .unlock => s.takeUnlock

theorem State.takePress_eq_takeGesture {s : State} (h : s.grd.state.takesKeys = true) (k : Key) :
    s.takePress k = s.takeGesture (classify k s.key.states) := by
  unfold State.takePress
  rw [if_pos h]
  cases classify k s.key.states <;> rfl

section Rules

variable {s u : State} {t : Nat} (hs : Settled s) (hfree : PressFree s) (hkeys : s.grd.state.takesKeys = true)
include hs hfree hkeys

/-- A press that is due is taken by its class, seen after the press (R65, R66). -/
theorem exec_keyPress_by_class {k : Key} (hdue : PressDue s k t) {g : Gesture} (hclass : classify k s.key.states = g)
    (htake : (s.withPress k t).takeGesture g = u) (hu : Settled u) : exec (.keyPress k) s = .next u := by
  refine exec_keyPress_takes hs hdue hfree ?_ hu
  have hclass' : classify k (s.withPress k t).key.states = g := (classify_or_keyMask _ _).trans hclass
  rw [State.takePress_eq_takeGesture (s := s.withPress k t) hkeys, hclass', htake]

theorem exec_keyPress_digit {d : Digit} (hdue : PressDue s (.digit d) t)
    (hclass : classify (.digit d) s.key.states = .digit d) (htake : (s.withPress (.digit d) t).takeDigit d = u)
    (hu : Settled u) : exec (.keyPress (.digit d)) s = .next u :=
  exec_keyPress_by_class hs hfree hkeys hdue hclass htake hu

/-- A digit pressed with SHIFT held since the chord that opened the command follows that chord (R65). -/
theorem exec_keyPress_following {d : Digit} (hdue : PressDue s (.digit d) t)
    (hclass : classify (.digit d) s.key.states = .chord d) (hfollows : s.key.digitFollows = true)
    (htake : (s.withPress (.digit d) t).takeDigit d = u) (hu : Settled u) :
    exec (.keyPress (.digit d)) s = .next u :=
  exec_keyPress_by_class hs hfree hkeys hdue hclass ((if_pos hfollows).trans htake) hu

theorem exec_keyPress_takeChord {d : Digit} (hdue : PressDue s (.digit d) t)
    (hclass : classify (.digit d) s.key.states = .chord d) (hfresh : s.key.digitFollows = false)
    (htake : (s.withPress (.digit d) t).takeChord d = u) (hu : Settled u) :
    exec (.keyPress (.digit d)) s = .next u :=
  exec_keyPress_by_class hs hfree hkeys hdue hclass ((if_neg (Bool.eq_false_iff.1 hfresh)).trans htake) hu

theorem exec_keyPress_unlock (hdue : PressDue s .unlock t) (hclass : classify .unlock s.key.states = .unlock)
    (htake : (s.withPress .unlock t).takeUnlock = u) (hu : Settled u) : exec (.keyPress .unlock) s = .next u :=
  exec_keyPress_by_class hs hfree hkeys hdue hclass htake hu

theorem exec_keyPress_chordUnlock (hdue : PressDue s .unlock t)
    (hclass : classify .unlock s.key.states = .chordUnlock) (htake : (s.withPress .unlock t).takeChordUnlock = u)
    (hu : Settled u) : exec (.keyPress .unlock) s = .next u :=
  exec_keyPress_by_class hs hfree hkeys hdue hclass htake hu

end Rules

/-! ## What gestures leave -/

/-- A refusal moves the sampler and the PULSE alone (R68, R72, R73, R75). -/
theorem Settled.keypadRefuse {s : State} (h : Settled s) : Settled s.keypadRefuse :=
  ⟨h.notices, h.decided, h.granted, h.awake⟩

/-- A post beside changes of the sampler and of the draws leaves nothing over: the queue is not empty. -/
theorem Settled.withKeyPost {s : State} (h : Settled s) (k : Keypad) (n : Nat) (kind : RoundKind) (a : Arg) :
    Settled { s with draws := n, key := k, eng := { s.eng with queue := queuePost kind a s.eng.queue } } :=
  ⟨h.notices, h.decided, h.granted, fun hq => queuePost_ne_nil kind a s.eng.queue hq.2.2.1⟩

/-- A digit that joins the entry buffer, or marks it OVERLONG (R67, R75). -/
theorem State.appendDigit_eq (s : State) (d : Digit) :
    s.appendDigit d = { s with key := { s.key with
      buffer := if s.key.buffer.length < 15 then s.key.buffer ++ [d] else s.key.buffer
      overlong := s.key.overlong || decide (15 ≤ s.key.buffer.length)
      entryTimer := some (s.now + 10000) } } := by
  have hbuffer : (if 15 ≤ s.key.buffer.length then s.key.buffer else s.key.buffer ++ [d])
      = if s.key.buffer.length < 15 then s.key.buffer ++ [d] else s.key.buffer := by
    by_cases hfull : 15 ≤ s.key.buffer.length
    · rw [if_pos hfull, if_neg (Nat.not_lt.2 hfull)]
    · rw [if_neg hfull, if_pos (Nat.not_le.1 hfull)]
  rw [← hbuffer]
  rfl

theorem GuardState.takesKeys_of_entry {g : GuardState} (h : g = .locked ∨ g = .held) : g.takesKeys = true := by
  rcases h with rfl | rfl <;> rfl

/-! ## Entries -/

theorem State.takeDigit_collecting {s : State} (h : s.grd.state = .locked ∨ s.grd.state = .held)
    (hmode : s.key.mode = .idle ∨ s.key.mode = .collecting) (d : Digit) :
    s.takeDigit d = { s.appendDigit d with key := { (s.appendDigit d).key with mode := .collecting } } := by
  rcases hmode with hm | hm <;> simp [State.takeDigit, hm, h]

theorem State.takeUnlock_collecting {s : State} (h : s.grd.state = .locked ∨ s.grd.state = .held)
    (hmode : s.key.mode = .idle ∨ s.key.mode = .collecting) : s.takeUnlock = s.submit := by
  rcases hmode with hm | hm <;> simp [State.takeUnlock, hm, h]

/-- A submit (R68). -/
theorem State.submit_eq (s : State) :
    s.submit =
      if s.grd.state = .locked ∧ 7 ≤ s.key.buffer.length ∧ s.key.overlong = false then
        { s with
          draws := s.draws + 1
          key := { s.key.idleAgain with
            heldEntry := some ⟨s.key.buffer, Config.freeNonce s.draws, s.now + 10000⟩ }
          eng := { s.eng with queue := queuePost .check (Config.freeNonce s.draws) s.eng.queue } }
      else s.keypadRefuse := by
  unfold State.submit
  by_cases h : s.grd.state = .locked ∧ 7 ≤ s.key.buffer.length ∧ s.key.overlong = false
  · rw [if_pos h]
    refine (if_pos h).trans ?_
    dsimp only
    rw [State.post_eq (by simp [h.1])]
    rfl
  · rw [if_neg h]
    exact if_neg h

/-- Settles O20: a digit joins the buffer; a submit posts CHECK or is refused. -/
theorem entriesFillAndAreSubmitted : Obligations.EntriesFillAndAreSubmitted := by
  unfold Obligations.EntriesFillAndAreSubmitted
  refine ⟨fun d s t hs hdue hfree hclass hgrd hmode => ?digit, fun s t hs hdue hfree hclass hgrd hmode => ?submit⟩
  case digit =>
    refine exec_keyPress_digit hs hfree (GuardState.takesKeys_of_entry hgrd) hdue hclass ?_ ((hs.withPress _ t).withKey _)
    rw [State.takeDigit_collecting (s := s.withPress _ t) hgrd hmode, State.appendDigit_eq]
    rfl
  case submit =>
    refine exec_keyPress_unlock hs hfree (GuardState.takesKeys_of_entry hgrd) hdue hclass
      ((State.takeUnlock_collecting (s := s.withPress _ t) hgrd hmode).trans (State.submit_eq _)) ?_
    split
    · exact (hs.withPress _ t).withKeyPost _ _ _ _
    · exact (hs.withPress _ t).keypadRefuse

/-! ## Chords that open an entry -/

/-- An entry of a new code (R75). -/
theorem Settled.newCode {s : State} (h : Settled s) (target : CodeSlotNo) (role : Role) :
    Settled (s.newCode target role) :=
  h.withKey _

theorem Keypad.digitFollows_idle {k : Keypad} (h : k.mode = .idle) : k.digitFollows = false := by
  simp [Keypad.digitFollows, h]

theorem State.takeChord_idle {s : State} (hopen : s.grd.state = .opened ∨ s.grd.state = .admin)
    (hmode : s.key.mode = .idle) (d : Digit) : s.takeChord d = s.chordInIdle d := by
  simp [State.takeChord, hopen, hmode]

theorem GuardState.takesKeys_of_open {g : GuardState} (h : g = .opened ∨ g = .admin) : g.takesKeys = true := by
  rcases h with rfl | rfl <;> rfl

theorem State.chordInIdle_one {s : State} {m : CodeSlotNo} (h : s.grd.matched = some m) :
    s.chordInIdle 1 = s.newCode m (s.roleOf m) := by
  simp [State.chordInIdle, h]

theorem State.chordInIdle_seven {s : State} (h : s.grd.state = .admin) : s.chordInIdle 7 = s.newCode 3 .duress := by
  simp [State.chordInIdle, h]

/-- The command chords of ADMIN (R71). -/
theorem State.chordInIdle_command {s : State} (h : s.grd.state = .admin) {d : Digit}
    (hd : d = 3 ∨ d = 5 ∨ d = 6 ∨ d = 9) :
    s.chordInIdle d = s.openCommand (if d = 6 then .markEntry else .command) d := by
  rcases hd with rfl | rfl | rfl | rfl <;> simp [State.chordInIdle, h]

/-- With must-change, a chord but SHIFT+0 and SHIFT+1 is ignored in OPEN (R71). -/
theorem State.chordInIdle_mustChange {s : State} (h : s.grd.state = .opened) (hm : s.grd.mustChange = true) {d : Digit}
    (h0 : d ≠ 0) (h1 : d ≠ 1) : s.chordInIdle d = s := by
  simp [State.chordInIdle, h, hm, h0, h1]

theorem State.takeChordUnlock_blank {s : State} (h : s.grd.state = .blank) (hmode : s.key.mode = .idle) :
    s.takeChordUnlock = s.newCode 0 .admin := by
  simp [State.takeChordUnlock, h, hmode]

theorem State.takeChordUnlock_entry {s : State} (h : s.grd.state = .locked ∨ s.grd.state = .held)
    (hmode : s.key.mode = .idle ∨ s.key.mode = .collecting) :
    s.takeChordUnlock = { s with key := { s.key.idleAgain with
      mode := .resetHold, resetTimer := some (s.now + 10000) } } := by
  rcases h with h | h <;> rcases hmode with hm | hm <;> simp only [State.takeChordUnlock, h, hm] <;> rfl

/-- Settles O21: each chord by its row of R71; what it opens moves the sampler alone. -/
theorem chordsOpenTheirEntries : Obligations.ChordsOpenTheirEntries := by
  unfold Obligations.ChordsOpenTheirEntries
  refine ⟨fun s t d hs hdue hfree hclass hmode => ⟨?one, ?seven, ?command, ?ignored⟩,
    fun s t hs hdue hfree hclass => ⟨?blank, ?entry⟩⟩
  case one =>
    rintro m rfl hopen hmatched
    refine exec_keyPress_takeChord hs hfree (GuardState.takesKeys_of_open hopen) hdue hclass
      (Keypad.digitFollows_idle hmode) ?_ ((hs.withPress _ t).withKey _)
    rw [State.takeChord_idle (s := s.withPress _ t) hopen hmode, State.chordInIdle_one (s := s.withPress _ t) hmatched]
    rfl
  case seven =>
    rintro hadmin rfl
    refine exec_keyPress_takeChord hs hfree (GuardState.takesKeys_of_open (.inr hadmin)) hdue hclass
      (Keypad.digitFollows_idle hmode) ?_ ((hs.withPress _ t).withKey _)
    rw [State.takeChord_idle (s := s.withPress _ t) (.inr hadmin) hmode,
      State.chordInIdle_seven (s := s.withPress _ t) hadmin]
    rfl
  case command =>
    intro hadmin hd
    refine exec_keyPress_takeChord hs hfree (GuardState.takesKeys_of_open (.inr hadmin)) hdue hclass
      (Keypad.digitFollows_idle hmode) ?_ ((hs.withPress _ t).withKey _)
    rw [State.takeChord_idle (s := s.withPress _ t) (.inr hadmin) hmode,
      State.chordInIdle_command (s := s.withPress _ t) hadmin hd]
    rfl
  case ignored =>
    intro hopened hmust h0 h1
    exact exec_keyPress_takeChord hs hfree (GuardState.takesKeys_of_open (.inl hopened)) hdue hclass
      (Keypad.digitFollows_idle hmode) ((State.takeChord_idle (s := s.withPress _ t) (.inl hopened) hmode _).trans
        (State.chordInIdle_mustChange (s := s.withPress _ t) hopened hmust h0 h1)) (hs.withPress _ t)
  case blank =>
    intro hblank hmode
    exact exec_keyPress_chordUnlock hs hfree (by rw [hblank]; rfl) hdue hclass
      (State.takeChordUnlock_blank (s := s.withPress _ t) hblank hmode) ((hs.withPress _ t).withKey _)
  case entry =>
    intro hgrd hmode
    exact exec_keyPress_chordUnlock hs hfree (GuardState.takesKeys_of_entry hgrd) hdue hclass
      (State.takeChordUnlock_entry (s := s.withPress _ t) hgrd hmode) ((hs.withPress _ t).withKey _)

end Sys2Proof.Machine
end


section
/-! PROOF. Commands and new codes (R71 to R73, R75, R76), and the sampler's timers (R67 to R77). -/

namespace Sys2Proof.Machine

/-! ## Commands -/

theorem Keypad.digitFollows_iff (k : Keypad) :
    k.digitFollows = true ↔
      (k.mode = .command ∨ k.mode = .markEntry) ∧ k.shiftFreed = false ∧ ∃ c, k.command = some c ∧ c.chord ≠ 9 := by
  cases hc : k.command with
  | none => simp [Keypad.digitFollows, hc]
  | some c => simp [Keypad.digitFollows, hc, and_assoc]

/-- The slot that a digit names after SHIFT+3 or SHIFT+5 (R72). -/
def commandTarget (d : Digit) : Option CodeSlotNo :=
  if d = 1 then some 1 else if d = 2 then some 2 else if d = 3 then some 3 else none

theorem commandTarget_of_slot : ∀ {m : CodeSlotNo} {d : Digit}, m ≠ 0 → m.val = d.val → commandTarget d = some m := by
  decide

theorem commandTarget_of_no_slot : ∀ {d : Digit}, d = 0 ∨ 3 < d.val → commandTarget d = none := by
  decide

theorem roleOf_empty_iff (s : State) (m : CodeSlotNo) : s.roleOf m = .empty ↔
    (s.cred.slots.get m).contents = .empty := by
  unfold State.roleOf
  cases (s.cred.slots.get m).contents <;> simp [slotRole]

section CommandDigit

variable {s : State} {c : PendingCommand} {d : Digit} (hc : s.key.command = some c)
include hc

theorem State.commandDigit_clear (h : c.chord = 3) :
    s.commandDigit d = match commandTarget d with
      | some m => if s.roleOf m = .empty ∨ s.cred.liveStamp = 65535 then s.keypadRefuse
        else s.keypadIdle.holdChange m .empty []
      | none => s.keypadRefuse := by
  simp only [State.commandDigit, hc, h, if_true]
  rfl

theorem State.commandDigit_user (h : c.chord = 5) :
    s.commandDigit d = match commandTarget d with
      | some m => if m = 3 then s.keypadRefuse else s.newCode m .user
      | none => s.keypadRefuse := by
  simp only [State.commandDigit, hc, h, if_true]
  rfl

theorem State.commandDigit_other (h3 : c.chord ≠ 3) (h5 : c.chord ≠ 5) : s.commandDigit d = s.keypadRefuse := by
  simp [State.commandDigit, hc, h3, h5]

/-- The digits that a command refuses (R72). -/
theorem State.commandDigit_refuses
    (h : c.chord = 9 ∨ d = 0 ∨ 3 < d.val ∨ (c.chord = 5 ∧ d = 3)
      ∨ (c.chord = 3 ∧ ∃ m : CodeSlotNo, m.val = d.val
          ∧ ((s.cred.slots.get m).contents = .empty ∨ s.cred.liveStamp = 65535))) :
    s.commandDigit d = s.keypadRefuse := by
  by_cases h3 : c.chord = 3
  · rw [State.commandDigit_clear hc h3]
    by_cases hnone : d = 0 ∨ 3 < d.val
    · rw [commandTarget_of_no_slot hnone]
    · obtain ⟨m, hm, hrefuse⟩ : ∃ m : CodeSlotNo, m.val = d.val
          ∧ ((s.cred.slots.get m).contents = .empty ∨ s.cred.liveStamp = 65535) := by
        simpa [h3, not_or.1 hnone] using h
      have hm0 : m ≠ 0 := by
        rintro rfl
        exact hnone (.inl (Fin.ext hm.symm))
      rw [commandTarget_of_slot hm0 hm]
      exact if_pos (hrefuse.imp_left (roleOf_empty_iff s m).2)
  · by_cases h5 : c.chord = 5
    · rw [State.commandDigit_user hc h5]
      by_cases hnone : d = 0 ∨ 3 < d.val
      · rw [commandTarget_of_no_slot hnone]
      · obtain rfl : d = 3 := by simpa [h5, not_or.1 hnone] using h
        rfl
    · exact State.commandDigit_other hc h3 h5

end CommandDigit

/-- A change held for a SETCODE round (R76). -/
theorem State.holdChange_eq {s : State} (h : s.grd.state ≠ .strapFault) (target : CodeSlotNo) (role : Role)
    (code : List Digit) :
    s.holdChange target role code = { s with
      key := { s.key with heldChange := some ⟨target, role, s.cred.liveStamp + 1, code, s.now + 10000⟩ }
      eng := { s.eng with queue := queuePost .setcode (setcodeArg target role (s.cred.liveStamp + 1)) s.eng.queue } } :=
  State.post_eq (s := { s with key := { s.key with
    heldChange := some ⟨target, role, s.cred.liveStamp + 1, code, s.now + 10000⟩ } }) h _ _

/-! ## MARK_ENTRY -/

theorem State.markDigit_eq {s : State} {c : PendingCommand} (hc : s.key.command = some c) (d : Digit) :
    s.markDigit d = { s with key := { s.key with
      command := some { c with digits := if c.digits.length < 4 then c.digits ++ [d] else c.digits }
      entryTimer := some (s.now + 10000) } } := by
  simp only [State.markDigit, hc]
  rfl

theorem markOperands_of_three {x y z : Digit} (he : 10 * x.val + y.val < 64) (hm : z.val ≤ 2) :
    markOperands [x, y, z] = some (10 * x.val + y.val, z.val) :=
  if_pos ⟨he, hm⟩

/-- Digits that spell no fixed mark (R73). -/
theorem markOperands_none {digits : List Digit}
    (h : digits.length ≠ 3
      ∨ ∃ x y z : Digit, digits = [x, y, z] ∧ (64 ≤ 10 * x.val + y.val ∨ 2 < z.val)) : markOperands digits = none := by
  unfold markOperands
  split
  · next x y z =>
    refine if_neg fun hin => ?_
    rcases h with h | ⟨x', y', z', he, h⟩
    · exact h rfl
    · obtain ⟨rfl, rfl, rfl⟩ : x = x' ∧ y = y' ∧ z = z' := by simpa using he
      omega
  · rfl

theorem State.markEntered_posts {s : State} {c : PendingCommand} {x y z : Digit} (hc : s.key.command = some c)
    (hd : c.digits = [x, y, z]) (he : 10 * x.val + y.val < 64) (hm : z.val ≤ 2) (hlock : s.gate.markLockOpen = true) :
    s.markEntered = s.keypadIdle.post .setmark (setmarkFixed (10 * x.val + y.val) z.val) := by
  simp [State.markEntered, hc, hd, markOperands_of_three he hm, hlock]

theorem State.markEntered_refuses {s : State} {c : PendingCommand} (hc : s.key.command = some c)
    (h : c.digits.length ≠ 3 ∨ s.gate.markLockOpen = false
      ∨ (∃ x y z : Digit, c.digits = [x, y, z] ∧ (64 ≤ 10 * x.val + y.val ∨ 2 < z.val))) :
    s.markEntered = s.keypadRefuse := by
  by_cases hlock : s.gate.markLockOpen = false
  · unfold State.markEntered
    split
    · simp [hlock]
    · rfl
  · have hnone : markOperands c.digits = none := markOperands_none (by simpa [hlock] using h)
    simp [State.markEntered, hc, hnone]

/-! ## Chords over a pending command -/

theorem State.takeChord_lock {s : State} (h : s.grd.state = .opened ∨ s.grd.state = .admin)
    (hc : s.key.mode ≠ .collecting) (hr : s.key.mode ≠ .resetHold) : s.takeChord 0 = s.keypadLock := by
  unfold State.takeChord
  rw [if_pos h]
  cases hm : s.key.mode with
  | idle => simp [State.chordInIdle]
  | newFirst | newSecond | command | markEntry => simp
  | collecting => exact absurd hm hc
  | resetHold => exact absurd hm hr

theorem State.takeChord_wipes {s : State} {c : PendingCommand} (h : s.grd.state = .admin) (hm : s.key.mode = .command)
    (hc : s.key.command = some c) (h9 : c.chord = 9) : s.takeChord 9 = s.keypadIdle.post .wipe 3 := by
  simp [State.takeChord, h, hm, hc, h9, wipeAdmin]

theorem State.takeChord_refuses {s : State} {d : Digit} (h : s.grd.state = .admin)
    (hm : s.key.mode = .command ∨ s.key.mode = .markEntry) (h0 : d ≠ 0)
    (h9 : d = 9 → s.key.mode = .markEntry ∨ ∀ c, s.key.command = some c → c.chord ≠ 9) :
    s.takeChord d = s.keypadRefuse := by
  rcases hm with hm | hm
  · have hnot : ¬(d = 9 ∧ s.key.command.map (·.chord) = some 9) := by
      rintro ⟨rfl, hc⟩
      rcases h9 rfl with hmark | hne
      · simp [hm] at hmark
      · obtain ⟨c, hcmd, hchord⟩ := Option.map_eq_some_iff.1 hc
        exact hne c hcmd hchord
    simp only [State.takeChord, h, hm, h0, hnot, or_true, if_true, if_false]
  · simp [State.takeChord, h, hm, h0]

theorem State.takeChordUnlock_refuses {s : State} (h : s.grd.state = .admin)
    (hm : s.key.mode = .command ∨ s.key.mode = .markEntry) : s.takeChordUnlock = s.keypadRefuse := by
  rcases hm with hm | hm <;> simp [State.takeChordUnlock, h, hm]

/-! ## The typing of a new code -/

/-- The guard states in which a new code is typed take keys, and are none of those that collect an entry. -/
theorem GuardState.takesKeys_of_typing {g : GuardState} (h : g = .blank ∨ g = .opened ∨ g = .admin) :
    g.takesKeys = true := by
  rcases h with rfl | rfl | rfl <;> rfl

theorem Keypad.digitFollows_typing {k : Keypad} (h : k.mode = .newFirst ∨ k.mode = .newSecond) :
    k.digitFollows = false := by
  rcases h with h | h <;> simp [Keypad.digitFollows, h]

theorem State.takeDigit_typing {s : State} (h : s.key.mode = .newFirst ∨ s.key.mode = .newSecond) (d : Digit) :
    s.takeDigit d = s.appendDigit d := by
  rcases h with h | h <;> simp [State.takeDigit, h]

theorem State.takeChord_typing {s : State} (h : s.key.mode = .newFirst ∨ s.key.mode = .newSecond) {d : Digit}
    (hd : d ≠ 0) : s.takeChord d = s := by
  rcases h with h | h <;> simp [State.takeChord, h, hd]

theorem State.takeChordUnlock_typing {s : State} (h : s.key.mode = .newFirst ∨ s.key.mode = .newSecond) :
    s.takeChordUnlock = s := by
  rcases h with h | h <;> simp [State.takeChordUnlock, h]

end Sys2Proof.Machine
end


section
/-! PROOF. The keypad's statements on commands, new codes and timers, from the rules of each gesture. -/

namespace Sys2Proof.Machine

/-! ## Commands (R72, R73) -/

theorem GuardState.takesKeys_of_admin {g : GuardState} (h : g = .admin) : g.takesKeys = true :=
  GuardState.takesKeys_of_open (.inr h)

section Digits

variable {s u : State} {t : Nat} {d : Digit} {c : PendingCommand} (hs : Settled s) (hdue : PressDue s (.digit d) t)
  (hfree : PressFree s) (hclass : classify (.digit d) s.key.states = .digit d
    ∨ (classify (.digit d) s.key.states = .chord d ∧ s.key.digitFollows = true)) (hadmin : s.grd.state = .admin)
  (hc : s.key.command = some c)
include hs hdue hfree hclass hadmin

/-- A digit that follows a command chord, plain or with SHIFT still held, is taken as a digit (R65). -/
theorem exec_keyPress_commandDigit (htake : (s.withPress (.digit d) t).takeDigit d = u) (hu : Settled u) :
    exec (.keyPress (.digit d)) s = .next u := by
  rcases hclass with hplain | ⟨hchord, hfollows⟩
  · exact exec_keyPress_digit hs hfree (GuardState.takesKeys_of_admin hadmin) hdue hplain htake hu
  · exact exec_keyPress_following hs hfree (GuardState.takesKeys_of_admin hadmin) hdue hchord hfollows htake hu

include hc

theorem exec_commandDigit_clears {m : CodeSlotNo} (hmode : s.key.mode = .command) (hm0 : m ≠ 0) (hm : m.val = d.val)
    (hchord : c.chord = 3) (hfull : (s.cred.slots.get m).contents ≠ .empty) (hstamp : s.cred.liveStamp ≠ 65535) :
    exec (.keyPress (.digit d)) s = .next { s.withPress (.digit d) t with
      key := { (s.withPress (.digit d) t).key.idleAgain with
        heldChange := some ⟨m, .empty, s.cred.liveStamp + 1, [], max s.now t + 10000⟩ }
      eng := { s.eng with
        queue := queuePost .setcode (setcodeArg m .empty (s.cred.liveStamp + 1)) s.eng.queue } } := by
  refine exec_keyPress_commandDigit hs hdue hfree hclass hadmin ?_ ((hs.withPress _ t).withKeyPost _ _ _ _)
  have hgoes : ¬((s.withPress (.digit d) t).roleOf m = .empty ∨ (s.withPress (.digit d) t).cred.liveStamp = 65535) :=
    fun h => h.elim (fun he => hfull ((roleOf_empty_iff _ m).1 he)) hstamp
  have htake : (s.withPress (.digit d) t).takeDigit d = (s.withPress (.digit d) t).commandDigit d := by
    unfold State.takeDigit
    rw [show (s.withPress (.digit d) t).key.mode = .command from hmode]
  rw [htake, State.commandDigit_clear (s := s.withPress _ t) hc hchord, commandTarget_of_slot hm0 hm]
  refine (if_neg hgoes).trans ?_
  rw [State.holdChange_eq (s := (s.withPress (.digit d) t).keypadIdle) (fun h => nomatch hadmin.symm.trans h)]
  rfl

theorem exec_commandDigit_newUser {m : CodeSlotNo} (hmode : s.key.mode = .command) (hm0 : m ≠ 0) (hm : m.val = d.val)
    (hchord : c.chord = 5) (hm3 : m ≠ 3) :
    exec (.keyPress (.digit d)) s = .next { s.withPress (.digit d) t with
      key := { (s.withPress (.digit d) t).key.idleAgain with
        mode := .newFirst, target := some (m, .user), entryTimer := some (max s.now t + 10000) } } := by
  refine exec_keyPress_commandDigit hs hdue hfree hclass hadmin ?_ ((hs.withPress _ t).withKey _)
  have htake : (s.withPress (.digit d) t).takeDigit d = (s.withPress (.digit d) t).commandDigit d := by
    unfold State.takeDigit
    rw [show (s.withPress (.digit d) t).key.mode = .command from hmode]
  rw [htake, State.commandDigit_user (s := s.withPress _ t) hc hchord, commandTarget_of_slot hm0 hm]
  exact if_neg hm3

theorem exec_commandDigit_refuses (hmode : s.key.mode = .command)
    (hno : c.chord = 9 ∨ d = 0 ∨ 3 < d.val ∨ (c.chord = 5 ∧ d = 3)
      ∨ (c.chord = 3 ∧ ∃ m : CodeSlotNo, m.val = d.val
          ∧ ((s.cred.slots.get m).contents = .empty ∨ s.cred.liveStamp = 65535))) :
    exec (.keyPress (.digit d)) s = .next (s.withPress (.digit d) t).keypadRefuse := by
  refine exec_keyPress_commandDigit hs hdue hfree hclass hadmin ?_ (hs.withPress _ t).keypadRefuse
  unfold State.takeDigit
  rw [show (s.withPress (.digit d) t).key.mode = .command from hmode]
  exact State.commandDigit_refuses (s := s.withPress _ t) hc hno

theorem exec_markDigit (hmode : s.key.mode = .markEntry) :
    exec (.keyPress (.digit d)) s = .next { s.withPress (.digit d) t with
      key := { (s.withPress (.digit d) t).key with
        command := some { c with digits := if c.digits.length < 4 then c.digits ++ [d] else c.digits }
        entryTimer := some (max s.now t + 10000) } } := by
  refine exec_keyPress_commandDigit hs hdue hfree hclass hadmin ?_ ((hs.withPress _ t).withKey _)
  unfold State.takeDigit
  rw [show (s.withPress (.digit d) t).key.mode = .markEntry from hmode]
  exact State.markDigit_eq (s := s.withPress _ t) hc d

end Digits

theorem State.takeUnlock_markEntry {s : State} (h : s.key.mode = .markEntry) : s.takeUnlock = s.markEntered := by
  simp [State.takeUnlock, h]

section Unlock

variable {s : State} {t : Nat} (hs : Settled s) (hdue : PressDue s .unlock t) (hfree : PressFree s)
  (hadmin : s.grd.state = .admin)
include hs hdue hfree hadmin

theorem exec_markEntered_posts {c : PendingCommand} {x y z : Digit} (hclass : classify .unlock s.key.states = .unlock)
    (hmode : s.key.mode = .markEntry) (hc : s.key.command = some c) (hd : c.digits = [x, y, z])
    (he : 10 * x.val + y.val < 64) (hm : z.val ≤ 2) (hlock : s.gate.markLockOpen = true) :
    exec (.keyPress .unlock) s = .next { s.withPress .unlock t with
      key := (s.withPress .unlock t).key.idleAgain
      eng := { s.eng with
        queue := queuePost .setmark (setmarkFixed (10 * x.val + y.val) z.val) s.eng.queue } } := by
  refine exec_keyPress_unlock hs hfree (GuardState.takesKeys_of_admin hadmin) hdue hclass ?_
    ((hs.withPress _ t).withKeyPost _ _ _ _)
  rw [State.takeUnlock_markEntry (s := s.withPress _ t) hmode,
    State.markEntered_posts (s := s.withPress _ t) hc hd he hm hlock,
    State.post_eq (s := (s.withPress .unlock t).keypadIdle) (fun h => nomatch hadmin.symm.trans h)]
  rfl

theorem exec_markEntered_refuses {c : PendingCommand} (hclass : classify .unlock s.key.states = .unlock)
    (hmode : s.key.mode = .markEntry) (hc : s.key.command = some c)
    (hno : c.digits.length ≠ 3 ∨ s.gate.markLockOpen = false
      ∨ (∃ x y z : Digit, c.digits = [x, y, z] ∧ (64 ≤ 10 * x.val + y.val ∨ 2 < z.val))) :
    exec (.keyPress .unlock) s = .next (s.withPress .unlock t).keypadRefuse :=
  exec_keyPress_unlock hs hfree (GuardState.takesKeys_of_admin hadmin) hdue hclass
    ((State.takeUnlock_markEntry (s := s.withPress _ t) hmode).trans
      (State.markEntered_refuses (s := s.withPress _ t) hc hno)) (hs.withPress _ t).keypadRefuse

theorem exec_unlock_refuses_command
    (hmode : s.key.mode = .command ∨ (s.key.mode = .markEntry ∧ classify .unlock s.key.states = .chordUnlock)) :
    exec (.keyPress .unlock) s = .next (s.withPress .unlock t).keypadRefuse := by
  have hkeys := GuardState.takesKeys_of_admin hadmin
  have hrefuse := (hs.withPress .unlock t).keypadRefuse
  have hpending : s.key.mode = .command ∨ s.key.mode = .markEntry := hmode.imp_right And.left
  have hchord := State.takeChordUnlock_refuses (s := s.withPress .unlock t) hadmin hpending
  by_cases hclass : classify .unlock s.key.states = .chordUnlock
  · exact exec_keyPress_chordUnlock hs hfree hkeys hdue hclass hchord hrefuse
  · have hcommand : s.key.mode = .command := hmode.resolve_right fun h => hclass h.2
    have hplain : classify .unlock s.key.states = .unlock := by
      rw [classify_unlock] at hclass ⊢
      split at hclass
      · exact absurd rfl hclass
      · next h => rw [if_neg h]
    refine exec_keyPress_unlock hs hfree hkeys hdue hplain ?_ hrefuse
    unfold State.takeUnlock
    rw [show (s.withPress .unlock t).key.mode = .command from hcommand]

end Unlock

section Chords

variable {s : State} {t : Nat} {d : Digit} (hs : Settled s) (hdue : PressDue s (.digit d) t) (hfree : PressFree s)
  (hclass : classify (.digit d) s.key.states = .chord d) (hadmin : s.grd.state = .admin)
  (hfresh : s.key.digitFollows = false)
include hs hdue hfree hclass hadmin hfresh

theorem exec_chord_wipes {c : PendingCommand} (hcommand : s.key.mode = .command) (hc : s.key.command = some c)
    (h9 : c.chord = 9) (hd : d = 9) :
    exec (.keyPress (.digit d)) s = .next { s.withPress (.digit d) t with
      key := (s.withPress (.digit d) t).key.idleAgain
      eng := { s.eng with queue := queuePost .wipe 3 s.eng.queue } } := by
  subst hd
  refine exec_keyPress_takeChord hs hfree (GuardState.takesKeys_of_admin hadmin) hdue hclass hfresh ?_
    ((hs.withPress _ t).withKeyPost _ _ _ _)
  rw [State.takeChord_wipes (s := s.withPress _ t) hadmin hcommand hc h9,
    State.post_eq (s := (s.withPress (.digit 9) t).keypadIdle) (fun h => nomatch hadmin.symm.trans h)]
  rfl

theorem exec_chord_refuses (hmode : s.key.mode = .command ∨ s.key.mode = .markEntry) (h0 : d ≠ 0)
    (h9 : d = 9 → s.key.mode = .markEntry ∨ ∀ c, s.key.command = some c → c.chord ≠ 9) :
    exec (.keyPress (.digit d)) s = .next (s.withPress (.digit d) t).keypadRefuse :=
  exec_keyPress_takeChord hs hfree (GuardState.takesKeys_of_admin hadmin) hdue hclass hfresh
    (State.takeChord_refuses (s := s.withPress _ t) hadmin hmode h0 h9) (hs.withPress _ t).keypadRefuse

end Chords

/-- SHIFT+0 at an open station, where no rule of the mode takes it otherwise (R11, R71). -/
theorem exec_keypadLock {s : State} {t : Nat} (hdue : PressDue s (.digit 0) t)
    (hfree : PressFree s) (hclass : classify (.digit 0) s.key.states = .chord 0)
    (hopen : s.grd.state = .opened ∨ s.grd.state = .admin) (hcollect : s.key.mode ≠ .collecting)
    (hhold : s.key.mode ≠ .resetHold) (hfresh : s.key.digitFollows = false) :
    exec (.keyPress (.digit 0)) s
      = .next (State.keypadLock { s.withPress (.digit 0) t with notices := [] }).settle := by
  let quiet : State := { s with notices := [] }
  have hq : exec (.keyPress (.digit 0)) s = exec (.keyPress (.digit 0)) quiet := rfl
  have hclass' : classify (.digit 0) (quiet.withPress (.digit 0) t).key.states = .chord 0 :=
    (classify_or_keyMask _ _).trans hclass
  have htake : (quiet.withPress (.digit 0) t).takePress (.digit 0) = (quiet.withPress (.digit 0) t).keypadLock := by
    rw [State.takePress_eq_takeGesture (s := quiet.withPress _ t) (GuardState.takesKeys_of_open hopen), hclass']
    refine (if_neg (Bool.eq_false_iff.1 hfresh)).trans ?_
    exact State.takeChord_lock (s := quiet.withPress _ t) hopen hcollect hhold
  rw [hq, exec_keyPress_of_due (s := quiet) rfl ⟨hdue.timer, hdue.line, hdue.up, hdue.awake⟩ hfree, htake]
  rfl

/-- Settles O22: each press by the rule of its class and mode; SHIFT+0 by the lock of an open station. -/
theorem commandsTakeTheirDigits : Obligations.CommandsTakeTheirDigits := by
  unfold Obligations.CommandsTakeTheirDigits
  refine ⟨Keypad.digitFollows_iff, ?digits, ?marks, fun s t hs hdue hfree hadmin hmode => ?unlock, ?chords, ?typing⟩
  case digits =>
    intro s t d c hs hdue hfree hclass hadmin hc
    refine ⟨fun m hmode hm0 hm => ⟨?_, ?_⟩, ?_, ?_⟩
    · exact exec_commandDigit_clears hs hdue hfree hclass hadmin hc hmode hm0 hm
    · exact exec_commandDigit_newUser hs hdue hfree hclass hadmin hc hmode hm0 hm
    · exact exec_commandDigit_refuses hs hdue hfree hclass hadmin hc
    · exact exec_markDigit hs hdue hfree hclass hadmin hc
  case marks =>
    intro s t c hs hdue hfree hclass hadmin hmode hc
    exact ⟨fun x y z => exec_markEntered_posts hs hdue hfree hadmin hclass hmode hc,
      exec_markEntered_refuses hs hdue hfree hadmin hclass hmode hc⟩
  case unlock => exact exec_unlock_refuses_command hs hdue hfree hadmin hmode
  case chords =>
    intro s t d hs hdue hfree hclass hadmin hmode hfresh
    refine ⟨?_, fun c => exec_chord_wipes hs hdue hfree hclass hadmin hfresh,
      exec_chord_refuses hs hdue hfree hclass hadmin hfresh hmode⟩
    rintro rfl
    have hlocks := State.lockAndPost_settles (s := { s.withPress (.digit 0) t with notices := [] }) (.inr hadmin) 1
    have hexec := exec_keypadLock hdue hfree hclass (.inr hadmin) (by rcases hmode with h | h <;> simp [h])
      (by rcases hmode with h | h <;> simp [h]) hfresh
    exact ⟨_, hexec, hlocks.queued, fun harmed => hlocks.cause harmed (List.not_mem_nil),
      fun h => hlocks.away.not_open (.inr h), fun h => hlocks.away.not_open (.inl h), hlocks.away.rest⟩
  case typing =>
    intro s t hs hfree hgrd hmode
    have hkeys := GuardState.takesKeys_of_typing hgrd
    have hfresh := Keypad.digitFollows_typing hmode
    refine ⟨fun d hdue hclass => ?digit, fun hdue hclass hfirst => ?first, fun d hdue hclass h0 => ?chord,
      fun hdue hclass => ?chordUnlock⟩
    case digit =>
      refine exec_keyPress_digit hs hfree hkeys hdue hclass ?_ ((hs.withPress _ t).withKey _)
      rw [State.takeDigit_typing (s := s.withPress _ t) hmode, State.appendDigit_eq]
      rfl
    case first =>
      refine exec_keyPress_unlock hs hfree hkeys hdue hclass ?_ ((hs.withPress _ t).withKey _)
      unfold State.takeUnlock
      rw [show (s.withPress .unlock t).key.mode = .newFirst from hfirst]
      rfl
    case chord =>
      exact exec_keyPress_takeChord hs hfree hkeys hdue hclass hfresh
        (State.takeChord_typing (s := s.withPress _ t) hmode h0) (hs.withPress _ t)
    case chordUnlock =>
      exact exec_keyPress_chordUnlock hs hfree hkeys hdue hclass
        (State.takeChordUnlock_typing (s := s.withPress _ t) hmode) (hs.withPress _ t)

end Sys2Proof.Machine
end


section
/-! PROOF. The second typing of a new code (R75, R76) and its ARG (R175); the sampler's timers and held items (R67 to
R77). -/

namespace Sys2Proof.Machine

/-! ## The second typing -/

/-- What matching a slot means for an entry that is not empty (R81). -/
theorem matchesSlot_iff_of_ne_nil {entry : List Digit} (h : entry ≠ []) (c : SlotContents) :
    matchesSlot entry c = true ↔
      ∃ code, slotMark c = some code ∧ entry.length = code.length ∧ Config.verifierOf entry = code.verifier := by
  unfold matchesSlot
  cases slotMark c with
  | none => simp
  | some m => simp [h]

theorem mem_slotNumbers (i : CodeSlotNo) : i ∈ slotNumbers := by
  revert i
  decide

/-- A code that is not empty is a duplicate where it matches a slot other than the target (R76). -/
theorem duplicates_iff {s : State} {target : CodeSlotNo} {code : List Digit} (h : code ≠ []) :
    duplicates s target code = true ↔ ∃ i : CodeSlotNo, i ≠ target ∧ ∃ m, slotMark (s.cred.slots.get i).contents = some m
      ∧ code.length = m.length ∧ Config.verifierOf code = m.verifier := by
  simp [duplicates, mem_slotNumbers, matchesSlot_iff_of_ne_nil h]

/-- The table of R75 for plain UNLOCK in NEW_SECOND. -/
theorem State.secondCodeEntered_eq {s : State} {first : TypedCode} {target : CodeSlotNo} {role : Role}
    (hfirst : s.key.firstCode = some first) (htarget : s.key.target = some (target, role)) :
    s.secondCodeEntered =
      if s.key.buffer = first.digits ∧ s.key.overlong = false ∧ first.overlong = false ∧ 7 ≤ s.key.buffer.length
          ∧ s.key.buffer.length ≤ 15 ∧ duplicates s target s.key.buffer = false ∧ s.cred.liveStamp ≠ 65535 then
        s.keypadIdle.holdChange target role s.key.buffer
      else s.keypadRefuse := by
  have hbad : (s.key.buffer ≠ first.digits ∨ s.key.overlong = true ∨ first.overlong = true
      ∨ s.key.buffer.length < Config.codeMin ∨ Config.bufferMax < s.key.buffer.length)
      ↔ ¬(s.key.buffer = first.digits ∧ s.key.overlong = false ∧ first.overlong = false ∧ 7 ≤ s.key.buffer.length
          ∧ s.key.buffer.length ≤ 15) := by
    rw [Config.codeMin, Config.bufferMax]
    simp only [← Nat.not_le, ← Bool.not_eq_true]
    tauto
  simp only [State.secondCodeEntered, hfirst, htarget, hbad]
  by_cases hform : s.key.buffer = first.digits ∧ s.key.overlong = false ∧ first.overlong = false
      ∧ 7 ≤ s.key.buffer.length ∧ s.key.buffer.length ≤ 15
  · rw [if_neg (not_not.2 hform)]
    cases hdup : duplicates s target s.key.buffer with
    | true => simp
    | false =>
      by_cases hstamp : s.cred.liveStamp = 65535
      · simp [hstamp]
      · obtain ⟨hsame, hlong, hfirstLong, hmin, hmax⟩ := hform
        rw [if_neg Bool.false_ne_true, if_neg hstamp,
          if_pos ⟨hsame, hlong, hfirstLong, hmin, hmax, rfl, hstamp⟩]
  · rw [if_pos hform, if_neg fun h => hform ⟨h.1, h.2.1, h.2.2.1, h.2.2.2.1, h.2.2.2.2.1⟩]

theorem exec_secondCode {s : State} {t : Nat} {first : TypedCode} {target : CodeSlotNo} {role : Role} (hs : Settled s)
    (hdue : PressDue s .unlock t) (hfree : PressFree s) (hclass : classify .unlock s.key.states = .unlock)
    (hgrd : s.grd.state = .blank ∨ s.grd.state = .opened ∨ s.grd.state = .admin) (hmode : s.key.mode = .newSecond)
    (hfirst : s.key.firstCode = some first) (htarget : s.key.target = some (target, role)) :
    exec (.keyPress .unlock) s = .next
      (if s.key.buffer = first.digits ∧ s.key.overlong = false ∧ first.overlong = false ∧ 7 ≤ s.key.buffer.length
          ∧ s.key.buffer.length ≤ 15 ∧ duplicates s target s.key.buffer = false ∧ s.cred.liveStamp ≠ 65535 then
        { s.withPress .unlock t with
          key := { (s.withPress .unlock t).key.idleAgain with
            heldChange := some ⟨target, role, s.cred.liveStamp + 1, s.key.buffer, max s.now t + 10000⟩ }
          eng := { s.eng with
            queue := queuePost .setcode (setcodeArg target role (s.cred.liveStamp + 1)) s.eng.queue } }
      else (s.withPress .unlock t).keypadRefuse) := by
  have hstrap : s.grd.state ≠ .strapFault := by rcases hgrd with h | h | h <;> simp [h]
  refine exec_keyPress_unlock hs hfree (GuardState.takesKeys_of_typing hgrd) hdue hclass ?_ ?_
  · have htake : (s.withPress .unlock t).takeUnlock = (s.withPress .unlock t).secondCodeEntered := by
      unfold State.takeUnlock
      rw [show (s.withPress .unlock t).key.mode = .newSecond from hmode]
    rw [htake, State.secondCodeEntered_eq (s := s.withPress .unlock t) hfirst htarget,
      State.holdChange_eq (s := (s.withPress .unlock t).keypadIdle) hstrap]
    rfl
  · split
    · exact (hs.withPress _ t).withKeyPost _ _ _ _
    · exact (hs.withPress _ t).keypadRefuse

/-- The layout of a SETCODE ARG (R175). -/
theorem setcodeArg_layout (target : CodeSlotNo) (role : Role) (stamp : BitVec 16) :
    (setcodeArg target role stamp).extractLsb' 14 2 = BitVec.ofNat 2 target.val
      ∧ (setcodeArg target role stamp).extractLsb' 12 2 = roleCode role
      ∧ (setcodeArg target role stamp).extractLsb' 0 12 = stamp.extractLsb' 0 12 := by
  unfold setcodeArg
  refine ⟨?_, ?_, ?_⟩
  · rw [BitVec.extractLsb'_append_eq_of_le (by decide)]
    exact BitVec.extractLsb'_append_eq_left
  · rw [BitVec.extractLsb'_append_eq_of_le (by decide)]
    exact BitVec.extractLsb'_append_eq_right
  · rw [BitVec.extractLsb'_append_eq_right, BitVec.setWidth_eq_extractLsb' (by decide)]

/-- Settles O23: the table of R75; where the code has a legal length it is not empty, so that a match is a duplicate. -/
theorem theSecondTypingHoldsTheChangeOrPulses : Obligations.TheSecondTypingHoldsTheChangeOrPulses := by
  unfold Obligations.TheSecondTypingHoldsTheChangeOrPulses
  refine ⟨?typing, fun c w m => ⟨rfl, rfl, rfl, rfl⟩, fun target role stamp => ?layout⟩
  case typing =>
    intro s t first target role duplicate hs hdue hfree hduplicate hclass hgrd hmode hfirst htarget
    rw [exec_secondCode hs hdue hfree hclass hgrd hmode hfirst htarget]
    by_cases hlen : 7 ≤ s.key.buffer.length
    · have hcode : s.key.buffer ≠ [] := by
        intro h
        simp [h] at hlen
      obtain rfl : duplicates s target s.key.buffer = duplicate :=
        Bool.eq_iff_iff.2 ((duplicates_iff hcode).trans hduplicate.symm)
      rfl
    · rw [if_neg fun h => hlen h.2.2.2.1, if_neg fun h => hlen h.2.2.2.1]
      rfl
  case layout =>
    obtain ⟨hslot, hrole, hstamp⟩ := setcodeArg_layout target role stamp
    exact ⟨hslot, by rw [hrole]; cases role <;> rfl, hstamp⟩

/-! ## Timers and held items -/

/-- An event whose own effect leaves nothing over but for a quiet dozing station ends there, or in DORMANT (R162). -/
theorem EndsIn.of_settle {c : Instr} {s u : State} (hc : exec c s = .next u.settle) (notices : u.notices = [])
    (decided : DecisionsTaken u) (granted : PortGranted u) (sup : u.sup = s.sup) : EndsIn c s u := by
  refine ⟨u.settle, hc, ?_⟩
  rw [State.settle_eq_dormantIfQuiet notices decided granted]
  rcases u.dormantIfQuiet_cases with h | ⟨hdoze, hexpired, h⟩
  · exact .inl h
  · exact .inr ⟨by rw [← sup]; exact hdoze, by rw [← sup]; exact hexpired, h⟩

theorem exec_entryTimerExpiry {s : State} {t : Nat} (hs : Settled s) (ht : s.key.entryTimer = some t) :
    exec .entryTimerExpiry s = .next { s with now := max s.now t, key := s.key.idleAgain } := by
  show execEntryTimerExpiry s = _
  refine hs.event_eq ?_ (hs.withKeyAt _ _)
  simp only [ht]
  rfl

theorem exec_wipeWindowExpiry {s : State} {t : Nat} (hs : Settled s) (ht : s.key.wipeWindow = some t) :
    exec .wipeWindowExpiry s = .next { s with now := max s.now t, key := s.key.idleAgain } := by
  show execWipeWindowExpiry s = _
  refine hs.event_eq ?_ (hs.withKeyAt _ _)
  simp only [ht]
  rfl

theorem exec_resetTimerExpiry {s : State} {t : Nat} (hs : Settled s) (ht : s.key.resetTimer = some t) :
    exec .resetTimerExpiry s = .next { s with
      now := max s.now t
      key := s.key.idleAgain
      eng := { s.eng with queue := s.queueWith .wipe 2 } } := by
  show execResetTimerExpiry s = _
  refine hs.event_eq ?_ ?_
  · simp only [ht, State.post_eq_queueWith]
    rfl
  · refine ⟨hs.notices, hs.decided, hs.granted, fun h => hs.awake ⟨h.1, h.2.1, ?_, h.2.2.2.1, h.2.2.2.2⟩⟩
    have hempty : s.queueWith .wipe 2 = [] := h.2.2.1
    unfold State.queueWith at hempty
    split at hempty
    · exact hempty
    · exact absurd hempty (queuePost_ne_nil _ _ _)

theorem heldEntryTimerExpiry_endsIn {s : State} {h : HeldEntry} (hs : Settled s) (hh : s.key.heldEntry = some h) :
    EndsIn .heldEntryTimerExpiry s { s with
      now := max s.now h.until_
      key := { s.key with heldEntry := none }
      eng := { s.eng with queue := s.eng.queue.filter fun r => r.kind != .check || r.inFlight } } := by
  refine EndsIn.of_settle ?_ hs.notices hs.decided hs.granted rfl
  show execHeldEntryTimerExpiry s = _
  refine event_of_effect hs.notices ?_
  simp only [hh]
  rfl

theorem heldChangeTimerExpiry_endsIn {s : State} {h : HeldChange} (hs : Settled s) (hh : s.key.heldChange = some h) :
    EndsIn .heldChangeTimerExpiry s { s with
      now := max s.now h.until_
      key := { s.key with heldChange := none }
      eng := { s.eng with queue := s.eng.queue.filter fun r => r.kind != .setcode || r.inFlight } } := by
  refine EndsIn.of_settle ?_ hs.notices hs.decided hs.granted rfl
  show execHeldChangeTimerExpiry s = _
  refine event_of_effect hs.notices ?_
  simp only [hh]
  rfl

/-- Settles O25: three timers end where their effect leaves the station; a held item that goes may leave it quiet. -/
theorem gestureTimersAndHeldItemsExpire : Obligations.GestureTimersAndHeldItemsExpire := by
  unfold Obligations.GestureTimersAndHeldItemsExpire
  exact ⟨fun s t hs => ⟨exec_entryTimerExpiry hs, exec_wipeWindowExpiry hs, exec_resetTimerExpiry hs⟩,
    fun s h => heldEntryTimerExpiry_endsIn, fun s h => heldChangeTimerExpiry_endsIn⟩

end Sys2Proof.Machine
end


section
/-! PROOF. What the actions of an event leave of a closed station, of the sampler, and of a station with no entry armed;
with it the timers of the blocks (R6, R20, R109, R122, R154). -/

namespace Sys2Proof.Machine

/-! ## A closed station through the event's actions -/

/-- What the event's actions leave of a station that is neither OPEN nor ADMIN: the credential block, and of the guard
controller all but its state, its PULSE and a hold noted as due. -/
structure ClosedStays (s u : State) : Prop where
  closed : ¬(u.grd.state = .opened ∨ u.grd.state = .admin)
  cred : u.cred = s.cred
  matched : u.grd.matched = s.grd.matched
  mustChange : u.grd.mustChange = s.grd.mustChange
  battery : u.grd.batteryTimer = s.grd.batteryTimer

theorem State.drain_closed {s : State} (h : ¬(s.grd.state = .opened ∨ s.grd.state = .admin)) :
    ClosedStays s s.drain := by
  refine s.drain_keeps_all (ClosedStays s) ?_ ?_ ?_ ?_ ?_ ?_ ⟨h, rfl, rfl, rfl, rfl⟩
  · exact fun u _ h => ⟨h.closed, h.cred, h.matched, h.mustChange, h.battery⟩
  · intro u n h
    refine ⟨?_, by simpa using h.cred, by simpa using h.matched, by simpa using h.mustChange, by simpa using h.battery⟩
    rcases u.holdRequest_state n with hs | ⟨-, hs⟩ <;> rw [hs]
    · exact h.closed
    · simp
  · intro u h
    rwa [u.lockLocally_of_closed h.closed]
  · intro u k a h
    exact ⟨by simpa using h.closed, by simpa using h.cred, by simpa using h.matched, by simpa using h.mustChange,
      by simpa using h.battery⟩
  · exact fun u n h => ⟨h.closed, h.cred, h.matched, h.mustChange, h.battery⟩
  · exact fun u p _ h => ⟨h.closed, h.cred, h.matched, h.mustChange, h.battery⟩

theorem State.settle_cred (s : State) : s.settle.cred = s.drain.cred := by
  simp [State.settle]

theorem State.settle_closed {s : State} (h : ¬(s.grd.state = .opened ∨ s.grd.state = .admin)) :
    ClosedStays s s.settle := by
  obtain ⟨closed, cred, matched, mustChange, battery⟩ := s.drain_closed h
  exact ⟨by rwa [s.settle_grd], by rwa [s.settle_cred], by rwa [s.settle_grd], by rwa [s.settle_grd],
    by rwa [s.settle_grd]⟩

theorem GuardState.triggersMay.held {b : GuardState} (h : GuardState.held.triggersMay b) : b = .held := by
  rcases h with h | ⟨h | h, -⟩ | ⟨h, -⟩
  · exact h
  · cases h
  · cases h
  · cases h

theorem GuardState.triggersMay.locked {b : GuardState} (h : GuardState.locked.triggersMay b) : b = .locked ∨ b = .held := by
  rcases h with h | ⟨h | h, -⟩ | ⟨-, h⟩
  · exact .inl h
  · cases h
  · cases h
  · exact .inr h

/-- A state that is neither open nor LOCKED stays through the actions. -/
theorem GuardState.triggersMay.stays {a b : GuardState} (h : a.triggersMay b) (ho : ¬(a = .opened ∨ a = .admin))
    (hl : a ≠ .locked) : b = a := by
  rcases h with h | ⟨h, -⟩ | ⟨h, -⟩
  · exact h
  · exact absurd h ho
  · exact absurd h hl

/-! ## The sampler through the event's actions -/

/-- What a reset of the sampler keeps, the event's actions keep (R78). -/
theorem State.drain_key (P : Keypad → Prop)
    (hreset : ∀ k, P k → P { k.idleAgain with heldEntry := none, heldChange := none }) {s : State} (h : P s.key) :
    P s.drain.key := by
  have hguard : ∀ (u : State) (g : GuardState), P u.key → P (u.setGuard g).key := by
    intro u g hu
    by_cases hg : u.grd.state = g
    · rwa [State.setGuard_self hg]
    · rw [State.setGuard_key hg]
      exact hreset _ hu
  refine s.drain_keeps_all (fun u => P u.key) (fun _ _ h => h) ?_ ?_ (fun u k a h => by simpa using h) (fun _ _ h => h)
    (fun _ _ _ h => h) h
  · intro u n hu
    rcases u.holdRequest_cases n with hr | ⟨tal, due, -, -, hr | ⟨-, hr⟩⟩ <;> rw [hr]
    · exact hu
    · exact hu
    · exact hguard _ _ (by exact hu)
  · intro u hu
    unfold State.lockLocally State.drained State.endClosing
    dsimp only
    split
    · have hclosing := hguard ({ u with grd := { u.grd with batteryTimer := none } }) .closing hu
      split
      · split
        · exact hguard _ _ (by exact hclosing)
        · exact hclosing
      · exact hclosing
    · exact hu

/-- The sampler's fields but its debounce timers stand after the actions. -/
theorem State.settle_key (s : State) :
    s.settle.key = s.drain.key ∨ s.settle.key = { s.drain.key with debounce := [] } := by
  unfold State.settle
  rcases State.dormantIfQuiet_cases s.drain.regate.grantPort with h | ⟨-, -, h⟩ <;> rw [h]
  · exact .inl (by simp)
  · exact .inr (by simp [State.enterDormant])

/-! ## A station with no entry armed -/

/-- What the end of an event leaves where no entry is armed and STARTING does not end. -/
structure UnarmedEnd (s u : State) : Prop where
  grd : u.grd = s.grd
  cred : u.cred = s.cred
  tal : u.tal = s.tal
  eng : u.eng = s.eng
  armed : u.pol.armed = 0
  timers : u.pol.timers = s.pol.timers
  memos : u.pol.memos = s.pol.memos
  session : u.gate.session = s.gate.session
  mode : u.key.mode = s.key.mode

theorem State.settle_unarmed {s : State} (h : s.pol.armed = 0) (hn : Notice.startingEnded ∉ s.notices) :
    UnarmedEnd s s.settle := by
  obtain ⟨p, -, harmed, htimers, hmemos, hd⟩ := s.drain_unarmed h hn
  have hpol : s.settle.pol = p := by simp [State.settle, hd]
  refine ⟨?_, ?_, ?_, ?_, ?_, ?_, ?_, ?_, ?_⟩
  · rw [s.settle_grd, hd]
  · rw [s.settle_cred, hd]
  · simp [State.settle, hd]
  · simp [State.settle, hd]
  · rw [hpol, harmed]
  · rw [hpol, htimers]
  · rw [hpol, hmemos]
  · simp [State.settle, hd]
  · simp [State.settle, hd]

/-! ## Sets of entries -/

theorem inEntries_entryBit : ∀ x e : EntryNo, inEntries (entryBit x) e = decide (e = x) := by
  decide

theorem inEntries_or (a b : BitVec 8) (e : EntryNo) : inEntries (a ||| b) e = (inEntries a e || inEntries b e) :=
  BitVec.getLsbD_or

theorem mem_entryNumbers : ∀ e : EntryNo, e ∈ entryNumbers := by
  decide

/-- The set of the entries that meet a test, put together entry by entry. -/
theorem inEntries_collect_onto (p : EntryNo → Bool) (e : EntryNo) (l : List EntryNo) (v : BitVec 8) :
    inEntries (l.foldl (fun v l => if p l then v ||| entryBit l else v) v) e
      = (inEntries v e || (decide (e ∈ l) && p e)) := by
  induction l generalizing v with
  | nil => simp
  | cons x l ih =>
    have hstep : inEntries (if p x then v ||| entryBit x else v) e = (inEntries v e || (decide (e = x) && p x)) := by
      cases hp : p x <;> simp [inEntries_or, inEntries_entryBit]
    rw [List.foldl_cons, ih, hstep]
    by_cases hx : e = x
    · subst hx
      cases p e <;> simp
    · simp [hx]

theorem inEntries_collect (p : EntryNo → Bool) (e : EntryNo) :
    inEntries (entryNumbers.foldl (fun v l => if p l then v ||| entryBit l else v) 0) e = p e := by
  rw [inEntries_collect_onto]
  simp [inEntries, mem_entryNumbers]

theorem entries_ext {a b : BitVec 8} (h : ∀ e : EntryNo, inEntries a e = inEntries b e) : a = b :=
  BitVec.eq_of_getLsbD_eq fun i hi => h ⟨i, hi⟩

/-- An input of no level condition leaves the last condition values (R116). -/
theorem lastAfterNotice_timer (s : State) (t : TimerNo) : lastAfterNotice s (.timer t) = s.pol.last := by
  refine entries_ext fun e => ?_
  rw [lastAfterNotice, inEntries_collect]
  rfl

/-! ## The blocks' timers -/

theorem Store.put_not_quiet {α : Type} (st : Store α) (v : α) : (st.put v).quiet = false := by
  unfold Store.put
  split
  · next h => simp [Store.quiet, h]
  · split
    · next h => simp [Store.quiet, h]
    · simp [Store.quiet]

theorem exec_pulseTimerExpiry {s : State} {t : Nat} (hs : Settled s) (ht : s.grd.pulseTimer = some t) :
    exec .pulseTimerExpiry s = .next { s with now := max s.now t, grd := { s.grd with pulseTimer := none } } := by
  show execPulseTimerExpiry s = _
  refine hs.event_eq ?_ ⟨hs.notices, hs.decided, hs.granted, hs.awake⟩
  simp only [ht]
  rfl

/-- A hold cleared at its deadline (R109). -/
def State.holdOver (s : State) (d : Nat) : State :=
  { s with
    now := max s.now d
    tal := { s.tal with
      deadline := none
      holdOwed := 0
      owedStore := if s.grd.state = .strapFault then s.tal.owedStore else s.tal.owedStore.put 0 } }

theorem State.clearHold_reach (s : State) (d : Nat) : (s.reach d).clearHold = s.holdOver d := by
  have hmay : s.mayStore = true ↔ s.grd.state ≠ .strapFault := bne_iff_ne
  unfold State.holdOver
  by_cases h : s.grd.state = .strapFault
  · rw [if_pos h]
    have hmay' : s.mayStore = false := Bool.eq_false_iff.2 fun hm => hmay.1 hm h
    simp [State.clearHold, State.setOwed, State.reach, State.mayStore, h]
  · rw [if_neg h]
    simp [State.clearHold, State.setOwed, State.reach, State.mayStore, h]

theorem Settled.holdOver {s : State} (hs : Settled s) (d : Nat) : Settled (s.holdOver d) := by
  refine ⟨hs.notices, hs.decided, hs.granted, fun h => ?_⟩
  by_cases hstrap : s.grd.state = .strapFault
  · refine hs.awake ⟨h.1, h.2.1, h.2.2.1, ?_, h.2.2.2.2⟩
    have hquiet := h.2.2.2.1
    unfold State.holdOver at hquiet
    rw [if_pos hstrap] at hquiet
    exact hquiet
  · have hquiet := h.2.2.2.1
    have hbusy : (s.holdOver d).tal.owedStore.quiet = false := by
      unfold State.holdOver
      rw [if_neg hstrap]
      exact Store.put_not_quiet _ _
    simp [State.storesQuiet, hbusy] at hquiet

theorem exec_holdDeadlineReached {s : State} {d : Nat} (hn : s.notices = []) (hd : s.tal.deadline = some d) :
    exec .holdDeadlineReached s
      = .next (if s.grd.state = .held then (s.holdOver d).setGuard .locked else s.holdOver d).settle := by
  show execHoldDeadlineReached s = _
  refine event_of_effect hn ?_
  simp only [hd, State.clearHold_reach]
  rfl

/-- HELD left at its deadline (R6, R109). -/
theorem exec_holdDeadlineReached_held {s : State} {d : Nat} (hs : Settled s) (hd : s.tal.deadline = some d)
    (hheld : s.grd.state = .held) :
    ∃ t, exec .holdDeadlineReached s = .next t ∧ t.now = max s.now d ∧ t.key.mode = .idle ∧ t.key.buffer = []
      ∧ (t.grd.state = .locked ∨ t.grd.state = .held) ∧ t.nv = s.nv ∧ t.tal.tally = s.tal.tally
      ∧ (s.pol.armed = 0 → t.grd.state = .locked ∧ t.tal.deadline = none ∧ t.tal.holdOwed = 0
          ∧ t.tal.owedStore = s.tal.owedStore.put 0) := by
  have hne : (s.holdOver d).grd.state ≠ .locked := fun h => nomatch hheld.symm.trans h
  have hrest : (fun k : Keypad => k.mode = .idle ∧ k.buffer = []) ((s.holdOver d).setGuard .locked).drain.key := by
    refine State.drain_key (fun k => k.mode = .idle ∧ k.buffer = []) (fun _ _ => ⟨rfl, rfl⟩) ?_
    rw [State.setGuard_key hne]
    exact ⟨rfl, rfl⟩
  refine ⟨((s.holdOver d).setGuard .locked).settle, ?_, by simp [State.holdOver], ?_, ?_, ?_, by simp [State.holdOver],
    by simp [State.holdOver], fun harmed => ?_⟩
  · rw [exec_holdDeadlineReached hs.notices hd, if_pos hheld]
  · rcases ((s.holdOver d).setGuard .locked).settle_key with h | h <;> rw [h] <;> exact hrest.1
  · rcases ((s.holdOver d).setGuard .locked).settle_key with h | h <;> rw [h] <;> exact hrest.2
  · have hmay := ((s.holdOver d).setGuard .locked).settle_triggersMay
    rw [State.setGuard_state] at hmay
    exact hmay.locked
  · have hend := State.settle_unarmed (s := (s.holdOver d).setGuard .locked) (by simpa [State.holdOver] using harmed)
      (State.setGuard_no_startingEnded (by simp [State.holdOver, hs.notices]) _)
    refine ⟨by rw [hend.grd, State.setGuard_state], ?_⟩
    rw [hend.tal]
    simp [State.holdOver, hheld]

/-- The moment a policy timer runs out (R122). -/
def State.timerOut (s : State) (n : TimerNo) (t : Nat) : State :=
  { s with now := max s.now t, pol := { s.pol with timers := s.pol.timers.set n.val none } }

theorem exec_policyTimerExpiry {s : State} {n : TimerNo} {t : Nat} (hn : s.notices = [])
    (ht : s.pol.timers.get n = some t) :
    exec (.policyTimerExpiry n) s = .next ((s.timerOut n t).note (.timer n)).settle := by
  show execPolicyTimerExpiry n s = _
  refine event_of_effect hn ?_
  simp only [ht]
  rfl

/-- An input other than a fault and the end of STARTING: the last values are taken, and what it raises fires (R115 to
R118). -/
theorem State.takeNotice_fires {s : State} {n : Notice} (h : s.grd.state ≠ .strapFault) (hf : n ≠ .fault)
    (he : n ≠ .startingEnded) :
    s.takeNotice n = (raised s n).foldl State.fire { s with pol := { s.pol with last := lastAfterNotice s n } } := by
  unfold State.takeNotice
  rw [if_neg h]
  cases n with
  | fault => exact absurd rfl hf
  | startingEnded => exact absurd rfl he
  | tally v => rfl
  | entered g => rfl
  | peerLost b => rfl
  | busRise => rfl
  | busFall => rfl
  | timer t => rfl

/-- With no entry armed a policy timer's expiry is nothing to the triggers. -/
theorem State.takeNotice_timer_unarmed {s : State} (h : s.pol.armed = 0) (n : TimerNo) : s.takeNotice (.timer n) = s := by
  have hfold : ∀ (l : List EntryNo), l.foldl State.fire s = s := by
    intro l
    induction l with
    | nil => rfl
    | cons x l ih =>
      have hfire : s.fire x = s := by simp [State.fire, inEntries, h]
      rw [List.foldl_cons, hfire, ih]
  by_cases hstrap : s.grd.state = .strapFault
  · exact if_pos hstrap
  · rw [State.takeNotice_fires (n := .timer n) hstrap nofun nofun, lastAfterNotice_timer]
    exact hfold _

theorem State.settle_timer_unarmed {s : State} (hs : Settled s) (h : s.pol.armed = 0) (n : TimerNo) :
    (s.note (.timer n)).settle = s := by
  have hnote : (s.note (.timer n)).notices = [.timer n] := by simp [hs.notices]
  have hdrop : ({ s.note (.timer n) with notices := [] } : State) = s := by
    rw [← hs.notices]
    rfl
  have hdrain : (s.note (.timer n)).drain = s := by
    unfold State.drain
    rw [drainNotices_cons _ _ _ _ hnote, hdrop, State.takeNotice_timer_unarmed h, drainNotices_nil _ _ hs.notices]
  unfold State.settle
  rw [hdrain, s.regate_of_decided hs.decided, s.grantPort_of_granted hs.granted, s.dormantIfQuiet_awake hs.awake]

theorem exec_progressTimerExpiry {s : State} {t : Nat} (hs : Settled s) (ht : s.wipe.progressTimer = some t) :
    exec .progressTimerExpiry s = .next
      (if s.wipe.journal.phase = .done ∧ s.grd.state = .wiping then
        { s with
          now := max s.now t
          eng := { s.eng with queue := queuePost .progress 0 s.eng.queue }
          wipe := { s.wipe with progressTimer := some (max s.now t + 1000) } }
      else { s with now := max s.now t, wipe := { s.wipe with progressTimer := none } }) := by
  show execProgressTimerExpiry s = _
  by_cases h : s.wipe.journal.phase = .done ∧ s.grd.state = .wiping
  · rw [if_pos h]
    refine hs.event_eq ?_ ⟨hs.notices, hs.decided, hs.granted, fun hq => queuePost_ne_nil _ _ _ hq.2.2.1⟩
    simp only [ht]
    refine (if_pos h).trans ?_
    rw [State.post_eq (s := s.reach t) (fun he => nomatch h.2.symm.trans he)]
    rfl
  · rw [if_neg h]
    refine hs.event_eq ?_ ⟨hs.notices, hs.decided, hs.granted, hs.awake⟩
    simp only [ht]
    exact if_neg h

/-- Settles O27: each timer's own effect, and what the armed entries may add to it. -/
theorem theBlocksTimersRunOut : Obligations.TheBlocksTimersRunOut := by
  unfold Obligations.TheBlocksTimersRunOut
  refine ⟨fun s t => exec_pulseTimerExpiry, fun s d hs hd => ⟨fun hheld => ?shut, exec_holdDeadlineReached_held hs hd⟩,
    fun n s t hs ht => ⟨?timer, fun harmed => ?unarmed⟩, fun s t => exec_progressTimerExpiry⟩
  case shut =>
    rw [exec_holdDeadlineReached hs.notices hd, if_neg hheld, State.settle_settled _ (hs.holdOver d)]
    rfl
  case timer =>
    refine ⟨_, exec_policyTimerExpiry hs.notices ht, by simp [State.timerOut], by simp [State.timerOut],
      by simp [State.timerOut], ?_⟩
    exact ((s.timerOut n t).note (.timer n)).settle_triggersMay
  case unarmed =>
    rw [exec_policyTimerExpiry hs.notices ht, State.settle_timer_unarmed (s := s.timerOut n t)
      ⟨hs.notices, hs.decided, hs.granted, hs.awake⟩ harmed]
    rfl

end Sys2Proof.Machine
end


section
/-! PROOF. Offering a round and its START (R22, R23, R48); one request and the yield rule (R131, R137); completions (R15,
R134, R152). -/

namespace Sys2Proof.Machine

/-! ## Offering -/

/-- In rising order the lowest eligible request is the first (R48). -/
theorem offeredRequest_of_lowest {s : State} (hq : QueueRises s.eng.queue) {r : Request} (hr : r ∈ s.eng.queue)
    (he : r.eligible s.now = true)
    (hlow : ∀ x ∈ s.eng.queue, x.eligible s.now = true → kindCode r.kind ≤ kindCode x.kind) :
    offeredRequest s = some r := by
  cases hfind : offeredRequest s with
  | none => exact absurd he (by simpa using List.find?_eq_none.1 hfind r hr)
  | some y =>
    obtain ⟨hy, before, after, hsplit, hskip⟩ := List.find?_eq_some_iff_append.1 hfind
    have hymem : y ∈ s.eng.queue := by simp [hsplit]
    have hle : kindCode r.kind ≤ kindCode y.kind := hlow y hymem hy
    rw [hsplit] at hr hq
    rcases List.mem_append.1 hr with hb | ha
    · simp at hskip
      exact absurd he (by simpa using hskip r hb)
    · rcases List.mem_cons.1 ha with rfl | hafter
      · rfl
      · have hlt := (List.pairwise_cons.1 (List.pairwise_append.1 hq).2.1).1 r hafter
        omega

/-- A queue changed request by request is empty when it was. -/
theorem Settled.withQueueMap {s : State} (h : Settled s) (n : Nat) (l : LineIf) (hl : l.view = s.line.view)
    (f : Request → Request) : Settled { s with
      now := n, line := l, eng := { s.eng with queue := s.eng.queue.map f } } :=
  ⟨h.notices, h.decided, h.granted, fun hq => h.awake
    ⟨hq.1, hq.2.1, List.map_eq_nil_iff.1 hq.2.2.1, hq.2.2.2.1, hl ▸ hq.2.2.2.2⟩⟩

theorem exec_openRound {s : State} (hs : Settled s) (hq : QueueRises s.eng.queue) {r : Request}
    (hr : r ∈ s.eng.queue) (htrack : s.tracking = true) (hview : s.line.view = .idle) (hheader : s.line.header = none)
    (he : r.eligible s.now = true)
    (hlow : ∀ x ∈ s.eng.queue, x.eligible s.now = true → kindCode r.kind ≤ kindCode x.kind) :
    exec .openRound s = .next { s with
      line := { s.line with header := some (r.kind, r.arg) }
      eng := { s.eng with
        queue := s.eng.queue.map fun x => if x.kind = r.kind then { x with inFlight := true } else x } } := by
  have hopen : s.mayOpen = true := by simp [State.mayOpen, htrack, hview, hheader]
  show execOpenRound s = _
  refine hs.event_eq ?_ (hs.withQueueMap s.now { s.line with header := some (r.kind, r.arg) } rfl _)
  unfold State.offerRound
  rw [if_pos hopen, offeredRequest_of_lowest hq hr he hlow]
  rfl

/-- RETRY_DUE: the request may be offered from its moment on (R48). -/
theorem exec_retryDue {s : State} (hs : Settled s) (hq : QueueRises s.eng.queue) {r : Request}
    (hr : r ∈ s.eng.queue) {t : Nat} (ht : r.notBefore = some t) (u : State) (hu : u = { s with
      now := max s.now t
      eng := { s.eng with
        queue := s.eng.queue.map fun x => if x.kind = r.kind then { x with notBefore := none } else x } }) :
    exec (.retryDue r.kind) s = if s.line.view = .idle then exec .openRound u else .next u := by
  have hnu : u.notices = [] := by rw [hu]; exact hs.notices
  have hevent : exec (.retryDue r.kind) s = .next u.offerRound.settle := by
    show execRetryDue r.kind s = _
    refine event_of_effect hs.notices ?_
    have hfind : (queueFind r.kind s.eng.queue).bind (·.notBefore) = some t := by
      rw [hq.find hr]
      exact ht
    rw [hu]
    simp only [hfind]
    rfl
  rw [hevent]
  by_cases hview : s.line.view = .idle
  · rw [if_pos hview]
    show _ = execOpenRound u
    exact (event_of_effect hnu rfl).symm
  · have hmay : u.mayOpen = false := by
      rw [hu]
      simp [State.mayOpen, hview]
    have hstay : u.offerRound = u := if_neg (by simp [hmay])
    have hsettled : Settled u := by
      rw [hu]
      exact hs.withQueueMap (max s.now t) s.line rfl _
    rw [if_neg hview, hstay, u.settle_settled hsettled]

/-! ## START -/

/-- Within a round no station falls dormant (R162). -/
theorem AwakeForCause.of_round {s : State} (h : s.line.view = .round) : AwakeForCause s := fun hq => hq.2.2.2.2 h

theorem Settled.roundStart {s : State} (h : Settled s) (now : Nat) (l : LineIf) (hl : l.view = .round) (e : Engine) :
    Settled { s with sup := s.supplyAfterActivity now, line := l, eng := e } := by
  rcases s.supplyAfterActivity_cases now with hs | hs <;> rw [hs] <;>
    exact ⟨h.notices, h.decided, h.granted, .of_round hl⟩

theorem exec_roundStart {s : State} (hs : Settled s) (htrack : s.tracking = true)
    (hview : s.line.view = .idle ∨ s.line.view = .gap) :
    exec .roundStart s = .next s.startRound := by
  have hstart : (s.tracking && (s.line.view == .idle || s.line.view == .gap)) = true := by
    rw [htrack]
    rcases hview with h | h <;> simp [h]
  show execRoundStart s = _
  refine hs.event_eq (if_pos hstart) ?_
  unfold State.startRound
  simp only [State.activityEvent_eq]
  exact hs.roundStart _ _ rfl _

/-- Settles O32: the offer goes to the first eligible request; START makes a contender or a listener. -/
theorem requestsAreOfferedAndStartsTaken : Obligations.RequestsAreOfferedAndStartsTaken := by
  unfold Obligations.RequestsAreOfferedAndStartsTaken
  refine ⟨fun s hs hq => ⟨fun r hr => exec_openRound hs hq.rising hr, fun r hr t ht => exec_retryDue hs hq.rising hr ht⟩,
    fun s hs htrack hview => ⟨fun k a hheader => ?contends, fun hheader => ?listens⟩⟩
  case contends =>
    rw [exec_roundStart hs htrack hview]
    simp only [State.startRound, State.activityEvent_eq, hheader]
    rfl
  case listens =>
    rw [exec_roundStart hs htrack hview]
    simp only [State.startRound, State.activityEvent_eq, hheader]
    rfl

/-! ## One request, and the yield rule -/

theorem State.present_of_taken {s : State} {q : BridgeRequest} (h : s.gate.presented = some q) (r : BridgeRequest) :
    s.present r = s :=
  if_neg fun hfree => by simp [h] at hfree

/-- The state in which the bank is READY. -/
def State.withPort (s : State) : State := { s with gate := { s.gate with portReady := true } }

theorem exec_portReady {s : State} (hs : Settled s) (hbus : s.sup.state = .bus)
    (hstrap : s.grd.state ≠ .strapFault) : exec .portReady s = .next s.withPort.grantPort.dormantIfQuiet := by
  have hsettle : s.withPort.settle = s.withPort.grantPort.dormantIfQuiet := by
    rw [s.withPort.settle_quiet hs.notices, s.withPort.regate_of_decided hs.decided]
  rw [← hsettle]
  show execPortReady s = _
  exact event_of_effect hs.notices (if_pos ⟨hbus, hstrap⟩)

theorem State.grantPort_withPort {s : State} (hload : s.sup.step ≠ .loading) (hstrap : s.grd.state ≠ .strapFault) :
    s.withPort.grantPort = match bridgeCandidate s, s.gate.eraseWaiting with
      | none, none => s.withPort
      | none, some e => s.withPort.issueErase e
      | some r, none => s.withPort.issueAccess r
      | some r, some e =>
        if s.gate.yieldCount < 8 then s.withPort.issueAccess r else s.withPort.issueErase e := by
  have hready : (s.withPort.gate.portReady && s.withPort.grd.state != .strapFault && s.withPort.sup.step != .loading)
      = true := by
    simp [State.withPort, hstrap, hload]
  have hcand : bridgeCandidate s.withPort = bridgeCandidate s := rfl
  unfold State.grantPort
  rw [if_pos hready, hcand]
  rfl

/-- Settles O59: a second request is not taken; a READY port is granted by the table of R137. -/
theorem oneRequestAndTheYieldRule : Obligations.OneRequestAndTheYieldRule := by
  unfold Obligations.OneRequestAndTheYieldRule
  refine ⟨fun s r c hs hp hc => ?second, fun s hs hbus hload hstrap => ?port⟩
  case second =>
    obtain ⟨k, e, b, hkind⟩ : ∃ k e b, c = .read e b ∧ k = AccessKind.read ∨ c = .write e b ∧ k = AccessKind.write
        ∨ c = .trim e b ∧ k = AccessKind.trim := by
      obtain ⟨e, b, h | h | h⟩ := hc
      · exact ⟨.read, e, b, .inl ⟨h, rfl⟩⟩
      · exact ⟨.write, e, b, .inr (.inl ⟨h, rfl⟩)⟩
      · exact ⟨.trim, e, b, .inr (.inr ⟨h, rfl⟩)⟩
    rw [exec_access hkind, event_settled _ _ hs.notices, State.present_of_taken hp, s.settle_settled hs]
  case port =>
    rw [exec_portReady hs hbus hstrap, State.grantPort_withPort hload hstrap]
    cases hcand : bridgeCandidate s with
    | none =>
      cases herase : s.gate.eraseWaiting with
      | none => exact congrArg _ (State.dormantIfQuiet_awake s.withPort hs.awake)
      | some e => exact congrArg _ (State.dormantIfQuiet_awake (s.withPort.issueErase e) hs.awake)
    | some r =>
      have hissue : (s.withPort.issueAccess r).dormantIfQuiet = s.withPort.issueAccess r :=
        State.dormantIfQuiet_awake _ hs.awake
      cases herase : s.gate.eraseWaiting with
      | none =>
        dsimp only
        rw [hissue, State.issueAccess_of_no_erase (s := s.withPort) herase]
        rfl
      | some e =>
        dsimp only
        by_cases hyield : s.gate.yieldCount < 8
        · rw [if_pos hyield, if_pos hyield, hissue]
          simp [State.issueAccess, State.withPort, herase]
        · rw [if_neg hyield, if_neg hyield]
          exact congrArg _ (State.dormantIfQuiet_awake (s.withPort.issueErase e) hs.awake)

/-! ## Completions -/

/-- The state after a completion goes to the oldest request (R134). -/
def State.completed (s : State) (r : BridgeRequest) (rest : List BridgeRequest) (status : Nat) : State :=
  { s with toBridge := s.toBridge ++ [.completion r status], gate := { s.gate with outstanding := rest } }

theorem exec_accessCompletion {s : State} {r : BridgeRequest} {rest : List BridgeRequest} (hn : s.notices = [])
    (ho : s.gate.outstanding = r :: rest) (status : Nat) :
    exec (.accessCompletion status) s
      = .next (if rest = [] then (s.completed r rest status).drained else s.completed r rest status).settle := by
  show execAccessCompletion status s = _
  refine event_of_effect hn ?_
  simp only [State.completeAccess, ho]
  rfl

theorem State.drained_of_not_closing {s : State} (h : s.grd.state ≠ .closing) : s.drained = s :=
  if_neg h

/-- The end of CLOSING at its last completion (R15). -/
theorem State.endClosing_settles (s : State) :
    ((s.endClosing).settle.grd.state = .locked ∨ s.endClosing.settle.grd.state = .held)
      ∧ s.endClosing.settle.cred.plainKey = none ∧ s.endClosing.settle.grd.matched = none
      ∧ s.endClosing.settle.grd.mustChange = false
      ∧ (s.tal.deadline ≠ none → s.endClosing.settle.grd.state = .held) := by
  have hmay := s.endClosing.settle_triggersMay
  have hclosed : ¬(s.endClosing.grd.state = .opened ∨ s.endClosing.grd.state = .admin) := by
    rw [s.endClosing_state]
    split <;> simp
  have hstays := State.settle_closed hclosed
  refine ⟨?_, ?_, ?_, ?_, fun hd => ?_⟩
  · rw [s.endClosing_state] at hmay
    split at hmay
    · exact .inr hmay.held
    · exact hmay.locked
  · rw [hstays.cred]
    simp [State.endClosing]
  · rw [hstays.matched]
    simp [State.endClosing]
  · rw [hstays.mustChange]
    simp [State.endClosing]
  · rw [s.endClosing_state, if_pos (Option.isSome_iff_ne_none.2 hd)] at hmay
    exact hmay.held

theorem exec_eraseCompletion {s : State} (hn : s.notices = []) (hissued : s.wipe.erase = .issued) (ok : Bool) :
    exec (.eraseCompletion ok) s = .next (s.eraseEnded ok).settle := by
  show execEraseCompletion ok s = _
  exact event_of_effect hn (if_pos hissued)

/-- A journal store begun where none is in progress or to be repeated (R143). -/
theorem State.askJournal_begins {s : State} (hstrap : s.grd.state ≠ .strapFault) (hbusy : s.wipe.busy = none)
    (hagain : s.wipe.again = none) (j : Journal) :
    s.askJournal j = { s with wipe := { s.wipe with busy := some j } } := by
  have hmay : s.mayStore = true := bne_iff_ne.2 hstrap
  simp [State.askJournal, hmay, hbusy, hagain]

/-- A journal store in progress keeps a dozing station from DORMANT (R162). -/
theorem AwakeForCause.of_journal {s : State} {j : Journal} (h : s.wipe.busy = some j) : AwakeForCause s := by
  intro hq
  have hquiet : s.storesQuiet = true := hq.2.2.2.1
  simp [State.storesQuiet, h] at hquiet

theorem State.setFlag_eraseBad {s : State} (hstrap : s.grd.state ≠ .strapFault) :
    s.setFlag .eraseBad = { s with
      stat := { s.stat with
        flags := s.stat.flags ||| Flag.eraseBad.mask
        reported := s.stat.reported &&& ~~~Flag.eraseBad.mask
        store := s.stat.store.put (s.stat.flags ||| Flag.eraseBad.mask) }
      eng := { s.eng with round := s.eng.round.map (·.uncarry .eraseBad) } } := by
  have hmay : s.mayStore = true := bne_iff_ne.2 hstrap
  have hplain : FlagSet.any Flag.eraseBad.mask disarmingFlags = false := by decide
  simp [State.setFlag, hmay, hplain]

section Erase

variable {s : State} (hs : Settled s) (hissued : s.wipe.erase = .issued) (hbusy : s.wipe.busy = none)
  (hagain : s.wipe.again = none) (hstrap : s.grd.state ≠ .strapFault)
include hs hissued hbusy hagain hstrap

theorem exec_eraseCompletion_success :
    exec (.eraseCompletion true) s = .next { s with wipe := { s.wipe with
      erase := .absent
      busy := some { s.wipe.journal with nextExtent := s.wipe.journal.nextExtent + 1, attempts := 0 } } } := by
  have heffect : s.eraseEnded true = { s with wipe := { s.wipe with
      erase := .absent
      busy := some { s.wipe.journal with nextExtent := s.wipe.journal.nextExtent + 1, attempts := 0 } } } := by
    rw [State.eraseEnded, if_pos rfl,
      State.askJournal_begins (s := { s with wipe := { s.wipe with erase := .absent } }) hstrap hbusy hagain]
  rw [exec_eraseCompletion hs.notices hissued, heffect, State.settle_settled]
  exact ⟨hs.notices, hs.decided, hs.granted, .of_journal rfl⟩

theorem exec_eraseCompletion_failure (hfew : s.wipe.journal.attempts < 2) :
    exec (.eraseCompletion false) s = .next { s with wipe := { s.wipe with
      erase := .absent
      busy := some { s.wipe.journal with attempts := s.wipe.journal.attempts + 1 } } } := by
  have heffect : s.eraseEnded false = { s with wipe := { s.wipe with
      erase := .absent
      busy := some { s.wipe.journal with attempts := s.wipe.journal.attempts + 1 } } } := by
    rw [State.eraseEnded, if_neg Bool.false_ne_true, if_pos hfew,
      State.askJournal_begins (s := { s with wipe := { s.wipe with erase := .absent } }) hstrap hbusy hagain]
  rw [exec_eraseCompletion hs.notices hissued, heffect, State.settle_settled]
  exact ⟨hs.notices, hs.decided, hs.granted, .of_journal rfl⟩

theorem exec_eraseCompletion_third (hlast : s.wipe.journal.attempts = 2) :
    exec (.eraseCompletion false) s = .next { s with
      wipe := { s.wipe with
        erase := .absent
        busy := some { s.wipe.journal with
          bad := s.wipe.journal.bad ++ [s.wipe.journal.nextExtent]
          nextExtent := s.wipe.journal.nextExtent + 1
          attempts := 0 } }
      stat := { s.stat with
        flags := s.stat.flags ||| Flag.eraseBad.mask
        reported := s.stat.reported &&& ~~~Flag.eraseBad.mask
        store := s.stat.store.put (s.stat.flags ||| Flag.eraseBad.mask) }
      eng := { s.eng with round := s.eng.round.map (·.uncarry .eraseBad) } } := by
  have heffect : s.eraseEnded false = ({ s with wipe := { s.wipe with
      erase := .absent
      busy := some { s.wipe.journal with
        bad := s.wipe.journal.bad ++ [s.wipe.journal.nextExtent]
        nextExtent := s.wipe.journal.nextExtent + 1
        attempts := 0 } } } : State).setFlag .eraseBad := by
    rw [State.eraseEnded, if_neg Bool.false_ne_true, if_neg (hlast ▸ Nat.lt_irrefl 2),
      State.askJournal_begins (s := { s with wipe := { s.wipe with erase := .absent } }) hstrap hbusy hagain]
  rw [exec_eraseCompletion hs.notices hissued, heffect,
    State.setFlag_eraseBad (s := { s with wipe := { s.wipe with
      erase := .absent
      busy := some { s.wipe.journal with
        bad := s.wipe.journal.bad ++ [s.wipe.journal.nextExtent]
        nextExtent := s.wipe.journal.nextExtent + 1
        attempts := 0 } } }) hstrap,
    State.settle_settled]
  exact ⟨hs.notices, hs.decided, hs.granted, .of_journal rfl⟩

end Erase

/-- Settles O60: the oldest request is completed, which may end CLOSING; an erase that ends begins the journal's store. -/
theorem completionsReachWhatTheyComplete : Obligations.CompletionsReachWhatTheyComplete := by
  unfold Obligations.CompletionsReachWhatTheyComplete
  refine ⟨fun status s hs => ⟨fun hempty => ?dropped, fun r rest ho => ⟨fun hport hstays => ?exact, ?ends⟩⟩,
    fun s hs => ⟨fun hno ok => ?noErase, fun hissued hbusy hagain hstrap => ⟨?_, ?_, ?_⟩⟩⟩
  case dropped =>
    show execAccessCompletion status s = _
    refine hs.event_eq ?_ hs
    simp [State.completeAccess, hempty]
  case exact =>
    have heffect : (if rest = [] then (s.completed r rest status).drained else s.completed r rest status)
        = s.completed r rest status := by
      split
      · next hrest => exact State.drained_of_not_closing (hstays.resolve_right (not_not.2 hrest))
      · rfl
    rw [exec_accessCompletion hs.notices ho, heffect, State.settle_settled (s.completed r rest status)]
    · rfl
    · exact ⟨hs.notices, hs.decided, fun h => by simp [State.completed, hport] at h, hs.awake⟩
  case ends =>
    refine ⟨_, exec_accessCompletion hs.notices ho status, ?_, ?_, fun hclosing hrest => ?_⟩
    · split <;> simp [State.completed]
    · obtain ⟨l, hl⟩ := State.settle_bridge
        (if rest = [] then (s.completed r rest status).drained else s.completed r rest status)
      obtain ⟨l', hl'⟩ : ∃ l', (if rest = [] then (s.completed r rest status).drained
          else s.completed r rest status).toBridge = (s.completed r rest status).toBridge ++ l' := by
        split
        · exact (State.drained_keeps _).bridge
        · exact ⟨[], by simp⟩
      exact ⟨l' ++ l, by rw [hl, hl']; simp [State.completed]⟩
    · have hend : (if rest = [] then (s.completed r rest status).drained else s.completed r rest status)
          = (s.completed r rest status).endClosing := (if_pos hrest).trans (if_pos hclosing)
      rw [hend]
      exact (s.completed r rest status).endClosing_settles
  case noErase =>
    show execEraseCompletion ok s = _
    exact hs.event_eq (if_neg hno) hs
  · exact exec_eraseCompletion_success hs hissued hbusy hagain hstrap
  · exact exec_eraseCompletion_failure hs hissued hbusy hagain hstrap
  · exact exec_eraseCompletion_third hs hissued hbusy hagain hstrap

end Sys2Proof.Machine
end


section
/-! PROOF. The ends of the tally's, the hold's, the flags', the fixed marks', the policy's and the pending mark's stores
(R101, R108, R129, R140, R141, R168, R174). -/

namespace Sys2Proof.Machine

/-! ## A store that failed -/

theorem FlagSet.has_or_mask (fs : FlagSet) (f : Flag) : FlagSet.has (fs ||| f.mask) f = true := by
  have hbit : f.mask.getLsbD f.bit = true := by cases f <;> decide
  rw [FlagSet.has, BitVec.getLsbD_or, hbit, Bool.or_true]

theorem State.setFlag_has (s : State) (f : Flag) : (s.setFlag f).stat.flags.has f = true := by
  have hflags : (s.setFlag f).stat.flags = s.stat.flags ||| f.mask := by
    by_cases hdisarms : FlagSet.any f.mask disarmingFlags = true <;> simp [State.setFlag, hdisarms]
  rw [hflags, FlagSet.has_or_mask]

/-- A state in which STORE_FAIL has just been set. -/
def State.storeFail (s : State) : State := { s with
  notices := s.notices ++ [.fault]
  stat := { s.stat with
    flags := s.stat.flags ||| Flag.storeFail.mask
    reported := s.stat.reported &&& ~~~Flag.storeFail.mask
    store := if s.mayStore then s.stat.store.put (s.stat.flags ||| Flag.storeFail.mask) else s.stat.store }
  eng := { s.eng with round := s.eng.round.map (·.uncarry .storeFail) } }

theorem State.setFlag_storeFail (s : State) : s.setFlag .storeFail = s.storeFail := by
  have hdisarms : FlagSet.any Flag.storeFail.mask disarmingFlags = true := by decide
  rw [State.setFlag, if_pos hdisarms]
  rfl

theorem State.storeFail_has (s : State) : s.storeFail.stat.flags.has .storeFail = true :=
  FlagSet.has_or_mask _ _

theorem State.storeFail_store_not_quiet {s : State} (h : s.grd.state ≠ .strapFault) :
    s.storeFail.stat.store.quiet = false := by
  have hmay : s.mayStore = true := bne_iff_ne.2 h
  simp [State.storeFail, hmay, Store.put_not_quiet]

/-- The triggers' answer to a flag that disarms is the disarming alone (R125). -/
theorem State.drain_fault {s : State} (h : s.notices = [.fault]) :
    ∃ p : Policy, p.table = s.pol.table ∧ p.store = s.pol.store ∧ s.drain = { s with notices := [], pol := p } := by
  have hdrain : s.drain = ({ s with notices := [] } : State).takeNotice .fault := by
    have hquiet : (({ s with notices := [] } : State).takeNotice .fault).notices = [] := by
      unfold State.takeNotice State.faultDisarm
      split
      · rfl
      · dsimp only
        split <;> rfl
    rw [State.drain, h]
    simp [drainNotices, h, hquiet]
  rw [hdrain]
  unfold State.takeNotice State.faultDisarm
  split
  · exact ⟨s.pol, rfl, rfl, rfl⟩
  · dsimp only
    split
    · exact ⟨{ s.pol with armed := 0, latch := true }, rfl, rfl, rfl⟩
    · exact ⟨s.pol, rfl, rfl, rfl⟩

/-- A flag store in progress or to be repeated keeps a dozing station from DORMANT (R162). -/
theorem AwakeForCause.of_flagStore {s : State} (h : s.stat.store.quiet = false) : AwakeForCause s := by
  intro hq
  have hquiet : s.storesQuiet = true := hq.2.2.2.1
  simp [State.storesQuiet, h] at hquiet

/-- A store that failed leaves the station as the failure does, but for the entries that the flag disarms. -/
theorem State.settle_failed {s : State} (hn : s.notices = [.fault]) (hd : DecisionsTaken s) (hg : PortGranted s)
    (hf : s.stat.store.quiet = false) :
    ∃ p : Policy, p.table = s.pol.table ∧ p.store = s.pol.store ∧ s.settle = { s with notices := [], pol := p } := by
  obtain ⟨p, htable, hstore, hdrain⟩ := s.drain_fault hn
  refine ⟨p, htable, hstore, ?_⟩
  have hrest : Settled ({ s with notices := [], pol := p } : State) := ⟨rfl, hd, hg, .of_flagStore hf⟩
  unfold State.settle
  rw [hdrain, State.regate_of_decided _ hrest.decided, State.grantPort_of_granted _ hrest.granted,
    State.dormantIfQuiet_awake _ hrest.awake]

/-- A command whose effect is a store that failed ends in what the failure leaves, but for the entries disarmed. -/
theorem exec_failed {c : Instr} {s u : State} (hc : exec c s = .next u.storeFail.settle) (hn : u.notices = [])
    (hd : DecisionsTaken u) (hg : PortGranted u) (hstrap : u.grd.state ≠ .strapFault) :
    ∃ p : Policy, p.table = u.pol.table ∧ p.store = u.pol.store
      ∧ exec c s = .next { u.storeFail with notices := [], pol := p } := by
  obtain ⟨p, htable, hstore, hsettle⟩ := State.settle_failed (s := u.storeFail) (by simp [State.storeFail, hn]) hd hg
    (State.storeFail_store_not_quiet hstrap)
  exact ⟨p, htable, hstore, by rw [hc, hsettle]⟩

theorem Store.failed_later {α : Type} (st : Store α) (v : α) (held : Bool) :
    st.failed v true (!held)
      = if held ∧ st.waiting = none then { again := true } else { busy := some v } := by
  cases held <;> cases hw : st.waiting <;> simp [Store.failed, hw]

theorem Store.failed_now {α : Type} (st : Store α) (v : α) : st.failed v true true = { busy := some v } := by
  simp [Store.failed]

/-! ## Tally, hold and flags -/

section TallyAndHold

variable {s : State} (hs : Settled s) (hstrap : s.grd.state ≠ .strapFault) {v : Nat}
include hs hstrap

theorem tallyStoreEnded_made_endsIn (hbusy : s.tal.tallyStore.busy = some v) (hheld : heldStore s ≠ some .tally) :
    EndsIn (.tallyStoreEnded true) s { s with
      nv := { s.nv with tally := v }
      tal := { s.tal with tallyStore := { busy := s.tal.tallyStore.waiting } } } := by
  have hmay : s.mayStore = true := bne_iff_ne.2 hstrap
  refine EndsIn.of_settle ?_ hs.notices hs.decided hs.granted rfl
  show execTallyStoreEnded true s = _
  refine event_of_effect hs.notices ?_
  simp [hheld, State.tallyMade, hbusy, Store.made, hmay]

theorem exec_tallyStoreEnded_failed (hbusy : s.tal.tallyStore.busy = some v) (hheld : heldStore s ≠ some .tally) :
    ∃ t, exec (.tallyStoreEnded false) s = .next t ∧ t.nv = s.nv ∧ t.stat.flags.has .storeFail = true
      ∧ t.tal = { s.tal with tallyStore :=
          if s.inHold ∧ s.tal.tallyStore.waiting = none then { again := true } else { busy := some s.tal.tally } } := by
  have hmay : s.mayStore = true := bne_iff_ne.2 hstrap
  have hc : exec (.tallyStoreEnded false) s = .next ({ s with tal := { s.tal with tallyStore :=
      if s.inHold ∧ s.tal.tallyStore.waiting = none then { again := true }
      else { busy := some s.tal.tally } } } : State).storeFail.settle := by
    show execTallyStoreEnded false s = _
    refine event_of_effect hs.notices ?_
    rw [if_neg hheld, if_neg Bool.false_ne_true, ← State.setFlag_storeFail, ← Store.failed_later]
    simp [State.tallyFailed, hbusy, hmay]
  obtain ⟨p, -, -, ht⟩ := exec_failed hc hs.notices hs.decided hs.granted hstrap
  exact ⟨_, ht, rfl, State.storeFail_has _, rfl⟩

theorem holdOwedStoreEnded_made_endsIn (hbusy : s.tal.owedStore.busy = some v) :
    EndsIn (.holdOwedStoreEnded true) s { s with
      nv := { s.nv with holdOwed := v }
      tal := { s.tal with owedStore := { busy := s.tal.owedStore.waiting } } } := by
  have hmay : s.mayStore = true := bne_iff_ne.2 hstrap
  refine EndsIn.of_settle ?_ hs.notices hs.decided hs.granted rfl
  show execHoldOwedStoreEnded true s = _
  refine event_of_effect hs.notices ?_
  simp [State.owedEnded, hbusy, Store.made, hmay]

theorem exec_holdOwedStoreEnded_failed (hbusy : s.tal.owedStore.busy = some v) :
    ∃ t, exec (.holdOwedStoreEnded false) s = .next t ∧ t.nv = s.nv ∧ t.stat.flags.has .storeFail = true
      ∧ t.tal = { s.tal with owedStore :=
          if s.inHold ∧ s.tal.owedStore.waiting = none then { again := true }
          else { busy := some s.tal.holdOwed } } := by
  have hmay : s.mayStore = true := bne_iff_ne.2 hstrap
  have hc : exec (.holdOwedStoreEnded false) s = .next ({ s with tal := { s.tal with owedStore :=
      if s.inHold ∧ s.tal.owedStore.waiting = none then { again := true }
      else { busy := some s.tal.holdOwed } } } : State).storeFail.settle := by
    show execHoldOwedStoreEnded false s = _
    refine event_of_effect hs.notices ?_
    rw [← State.setFlag_storeFail, ← Store.failed_later]
    simp [State.owedEnded, hbusy, hmay]
  obtain ⟨p, -, -, ht⟩ := exec_failed hc hs.notices hs.decided hs.granted hstrap
  exact ⟨_, ht, rfl, State.storeFail_has _, rfl⟩

end TallyAndHold

theorem flagStoreEnded_made_endsIn {s : State} {v : FlagSet} (hs : Settled s) (hbusy : s.stat.store.busy = some v) :
    EndsIn (.flagStoreEnded true) s { s with
      nv := { s.nv with flags := v }
      stat := { s.stat with store := { busy := s.stat.store.waiting } } } := by
  refine EndsIn.of_settle ?_ hs.notices hs.decided hs.granted rfl
  show execFlagStoreEnded true s = _
  refine event_of_effect hs.notices ?_
  simp [State.flagsEnded, hbusy, Store.made]

theorem exec_flagStoreEnded_failed {s : State} {v : FlagSet} (hs : Settled s) (hbusy : s.stat.store.busy = some v) :
    ∃ t, exec (.flagStoreEnded false) s = .next t ∧ t.nv = s.nv
      ∧ t.stat = { s.stat with
          flags := s.stat.flags ||| Flag.storeFail.mask
          reported := s.stat.reported &&& ~~~Flag.storeFail.mask
          store := { busy := some (s.stat.flags ||| Flag.storeFail.mask) } } := by
  have hc : exec (.flagStoreEnded false) s = .next ({ s.storeFail with stat := { s.storeFail.stat with
      store := { busy := some (s.stat.flags ||| Flag.storeFail.mask) } } } : State).settle := by
    show execFlagStoreEnded false s = _
    refine event_of_effect hs.notices ?_
    simp only [State.flagsEnded, hbusy, State.setFlag_storeFail, Store.failed_now]
    rfl
  obtain ⟨p, -, -, ht⟩ := State.settle_failed (s := { s.storeFail with stat := { s.storeFail.stat with
      store := { busy := some (s.stat.flags ||| Flag.storeFail.mask) } } }) (by simp [State.storeFail, hs.notices])
    hs.decided hs.granted rfl
  rw [ht] at hc
  exact ⟨_, hc, rfl, rfl⟩

/-- Settles O56: a store made leaves its value stored and the waiting one next; one that failed sets STORE_FAIL. -/
theorem tallyHoldAndFlagStoresEnd : Obligations.TallyHoldAndFlagStoresEnd := by
  unfold Obligations.TallyHoldAndFlagStoresEnd
  refine ⟨fun s v hs hstrap => ⟨fun hbusy hheld => ?tally, fun hbusy => ?owed⟩, fun s v hs hbusy => ?flags⟩
  case tally =>
    exact ⟨tallyStoreEnded_made_endsIn hs hstrap hbusy hheld, exec_tallyStoreEnded_failed hs hstrap hbusy hheld⟩
  case owed => exact ⟨holdOwedStoreEnded_made_endsIn hs hstrap hbusy, exec_holdOwedStoreEnded_failed hs hstrap hbusy⟩
  case flags => exact ⟨flagStoreEnded_made_endsIn hs hbusy, exec_flagStoreEnded_failed hs hbusy⟩

/-! ## Fixed marks and policy -/

section MarksAndPolicy

variable {s : State} (hs : Settled s) (hstrap : s.grd.state ≠ .strapFault)
include hs hstrap

theorem fixedMarkStoreEnded_made_endsIn {w : MarkWrite} (hbusy : s.gate.markStore.busy = some w) :
    EndsIn (.fixedMarkStoreEnded true) s { s with
      nv := { s.nv with
        fixedMarks := w.marks, pendingMark := if w.emptiesPending then none else s.nv.pendingMark }
      gate := { s.gate with markStore := { busy := s.gate.markStore.waiting } } } := by
  have hmay : s.mayStore = true := bne_iff_ne.2 hstrap
  refine EndsIn.of_settle ?_ hs.notices hs.decided hs.granted rfl
  show execFixedMarkStoreEnded true s = _
  refine event_of_effect hs.notices ?_
  simp [State.marksMade, hbusy, Store.made, hmay]

theorem exec_fixedMarkStoreEnded_failed {w : MarkWrite} (hbusy : s.gate.markStore.busy = some w) :
    ∃ t, exec (.fixedMarkStoreEnded false) s = .next t ∧ t.nv = s.nv ∧ t.stat.flags.has .storeFail = true
      ∧ t.gate.fixedMarks = s.gate.fixedMarks
      ∧ t.gate.markStore = { busy := some ⟨s.gate.fixedMarks, w.emptiesPending
          || s.gate.markStore.waiting.any (·.emptiesPending)⟩ } := by
  have hmay : s.mayStore = true := bne_iff_ne.2 hstrap
  have hc : exec (.fixedMarkStoreEnded false) s = .next ({ s with gate := { s.gate with markStore :=
      { busy := some ⟨s.gate.fixedMarks, w.emptiesPending
          || s.gate.markStore.waiting.any (·.emptiesPending)⟩ } } } : State).storeFail.settle := by
    show execFixedMarkStoreEnded false s = _
    refine event_of_effect hs.notices ?_
    rw [if_neg Bool.false_ne_true, ← State.setFlag_storeFail, ← Store.failed_now s.gate.markStore]
    cases hwait : s.gate.markStore.waiting <;> simp [State.marksFailed, hbusy, hmay, hwait]
  obtain ⟨p, -, -, ht⟩ := exec_failed hc hs.notices hs.decided hs.granted hstrap
  exact ⟨_, ht, rfl, State.storeFail_has _, rfl, rfl⟩

theorem policyStoreEnded_made_endsIn {v : PolicyTable} (hbusy : s.pol.store.busy = some v) :
    EndsIn (.policyStoreEnded true) s { s with
      nv := { s.nv with policy := v }
      pol := { s.pol with store := { busy := s.pol.store.waiting } } } := by
  have hmay : s.mayStore = true := bne_iff_ne.2 hstrap
  refine EndsIn.of_settle ?_ hs.notices hs.decided hs.granted rfl
  show execPolicyStoreEnded true s = _
  refine event_of_effect hs.notices ?_
  simp [State.policyEnded, hbusy, Store.made, hmay]

theorem exec_policyStoreEnded_failed {v : PolicyTable} (hbusy : s.pol.store.busy = some v) :
    ∃ t, exec (.policyStoreEnded false) s = .next t ∧ t.nv = s.nv ∧ t.stat.flags.has .storeFail = true
      ∧ t.pol.table = s.pol.table ∧ t.pol.store = { busy := some s.pol.table } := by
  have hmay : s.mayStore = true := bne_iff_ne.2 hstrap
  have hc : exec (.policyStoreEnded false) s = .next ({ s with pol := { s.pol with store :=
      { busy := some s.pol.table } } } : State).storeFail.settle := by
    show execPolicyStoreEnded false s = _
    refine event_of_effect hs.notices ?_
    rw [← State.setFlag_storeFail, ← Store.failed_now s.pol.store]
    simp [State.policyEnded, hbusy, hmay]
  obtain ⟨p, htable, hstore, ht⟩ := exec_failed hc hs.notices hs.decided hs.granted hstrap
  exact ⟨_, ht, rfl, State.storeFail_has _, htable, hstore⟩

/-! ## The pending mark -/

omit hstrap in
theorem pendingMarkStoreEnded_emptied_endsIn (hheld : heldStore s ≠ some .pendingMark) (hwait : s.gate.pmWaiting = [])
    (hbusy : s.gate.pmBusy = some .empty) :
    EndsIn (.pendingMarkStoreEnded true) s { s with
      nv := { s.nv with pendingMark := none }, gate := { s.gate with pmBusy := none } } := by
  refine EndsIn.of_settle ?_ hs.notices hs.decided hs.granted rfl
  show execPendingMarkStoreEnded true s = _
  refine event_of_effect hs.notices ?_
  simp [hheld, State.pmMade, hbusy, State.nextPm, hwait]

theorem exec_pendingMarkStoreEnded_empty_failed (hheld : heldStore s ≠ some .pendingMark)
    (hwait : s.gate.pmWaiting = []) (hbusy : s.gate.pmBusy = some .empty) :
    ∃ t, exec (.pendingMarkStoreEnded false) s = .next t ∧ t.nv = s.nv ∧ t.gate = s.gate
      ∧ t.stat.flags.has .storeFail = true := by
  have hmay : s.mayStore = true := bne_iff_ne.2 hstrap
  have hc : exec (.pendingMarkStoreEnded false) s = .next s.storeFail.settle := by
    show execPendingMarkStoreEnded false s = _
    refine event_of_effect hs.notices ?_
    rw [if_neg hheld, if_neg Bool.false_ne_true, ← State.setFlag_storeFail]
    simp [State.pmFailed, hbusy, hwait, State.mayStore, hstrap]
  obtain ⟨p, -, -, ht⟩ := exec_failed hc hs.notices hs.decided hs.granted hstrap
  exact ⟨_, ht, rfl, rfl, State.storeFail_has _⟩

omit hstrap in
theorem pendingMarkStoreEnded_staged_endsIn {p : PendingMark} (hheld : heldStore s ≠ some .pendingMark)
    (hwait : s.gate.pmWaiting = []) (hbusy : s.gate.pmBusy = some (.stage p false)) :
    EndsIn (.pendingMarkStoreEnded true) s { s with
      nv := { s.nv with pendingMark := some { p with stored := true } }
      gate := { s.gate with pmBusy := none, pendingMark := some { p with stored := true } } } := by
  refine EndsIn.of_settle ?_ hs.notices hs.decided hs.granted rfl
  show execPendingMarkStoreEnded true s = _
  refine event_of_effect hs.notices ?_
  simp [hheld, State.pmMade, hbusy, State.nextPm, hwait]

theorem exec_pendingMarkStoreEnded_staging_failed {p : PendingMark} (hheld : heldStore s ≠ some .pendingMark)
    (hwait : s.gate.pmWaiting = []) (hbusy : s.gate.pmBusy = some (.stage p false)) :
    ∃ t, exec (.pendingMarkStoreEnded false) s = .next t ∧ t.nv = s.nv
      ∧ t.gate = { s.gate with pmBusy := none, pendingMark := none } ∧ t.stat.flags.has .storeFail = true := by
  have hc : exec (.pendingMarkStoreEnded false) s = .next ({ s with
      gate := { s.gate with pmBusy := none, pendingMark := none } } : State).storeFail.settle := by
    show execPendingMarkStoreEnded false s = _
    refine event_of_effect hs.notices ?_
    rw [if_neg hheld, if_neg Bool.false_ne_true]
    simp only [State.pmFailed, hbusy, State.setFlag_storeFail]
    simp [State.nextPm, State.storeFail, State.mayStore, hwait]
  obtain ⟨p, -, -, ht⟩ := exec_failed hc hs.notices hs.decided hs.granted hstrap
  exact ⟨_, ht, rfl, rfl, State.storeFail_has _⟩

theorem exec_pendingMarkStoreEnded_discarded {p : PendingMark} (hheld : heldStore s ≠ some .pendingMark)
    (hwait : s.gate.pmWaiting = []) (hbusy : s.gate.pmBusy = some (.stage p true)) :
    exec (.pendingMarkStoreEnded true) s = .next { s with
      nv := { s.nv with pendingMark := some { p with stored := true } }
      gate := { s.gate with pmBusy := some .empty, pendingMark := none } } := by
  have hawake : ∀ u : State, u.gate.pmBusy ≠ none → AwakeForCause u := by
    intro u hu hq
    have hquiet : u.storesQuiet = true := hq.2.2.2.1
    simp [State.storesQuiet, hu] at hquiet
  show execPendingMarkStoreEnded true s = _
  refine hs.event_eq ?_ ⟨hs.notices, hs.decided, hs.granted, hawake _ nofun⟩
  simp [hheld, State.pmMade, hbusy, State.nextPm, hwait, State.askPm, State.beginPm, State.mayStore, hstrap]

end MarksAndPolicy

/-- Settles O57: the record in force is what is stored again; a staging made late is kept or emptied, one that failed is
lost. -/
theorem markPolicyAndPendingMarkStoresEnd : Obligations.MarkPolicyAndPendingMarkStoresEnd := by
  unfold Obligations.MarkPolicyAndPendingMarkStoresEnd
  refine ⟨fun s hs hstrap => ⟨fun w hbusy => ?marks, fun v hbusy => ?policy⟩,
    fun s p hs hheld hwait hstrap => ⟨fun hbusy => ?emptying, fun hbusy => ?staging, fun hbusy => ?discarded⟩⟩
  case marks => exact ⟨fixedMarkStoreEnded_made_endsIn hs hstrap hbusy, exec_fixedMarkStoreEnded_failed hs hstrap hbusy⟩
  case policy => exact ⟨policyStoreEnded_made_endsIn hs hstrap hbusy, exec_policyStoreEnded_failed hs hstrap hbusy⟩
  case emptying =>
    exact ⟨pendingMarkStoreEnded_emptied_endsIn hs hheld hwait hbusy,
      exec_pendingMarkStoreEnded_empty_failed hs hstrap hheld hwait hbusy⟩
  case staging =>
    exact ⟨pendingMarkStoreEnded_staged_endsIn hs hheld hwait hbusy,
      exec_pendingMarkStoreEnded_staging_failed hs hstrap hheld hwait hbusy⟩
  case discarded => exact exec_pendingMarkStoreEnded_discarded hs hstrap hheld hwait hbusy

end Sys2Proof.Machine

end


section
/-! PROOF. The ends of the credential table's and the journal's stores, in a hold field and outside one (R31, R80, R93 to
R98, R143 to R151). -/

namespace Sys2Proof.Machine

/-! ## The end of an event that hands the triggers nothing but a flag -/

/-- What an event keeps whose only input to the triggers is a flag that disarms. -/
structure CalmEnd (s u : State) : Prop where
  grd : u.grd = s.grd
  cred : u.cred = s.cred
  tal : u.tal = s.tal

theorem State.settle_calm {s : State} (h : s.notices = [] ∨ s.notices = [.fault]) : CalmEnd s s.settle := by
  obtain ⟨p, hdrain⟩ : ∃ p, s.drain = { s with notices := [], pol := p } := by
    rcases h with hnone | hfault
    · exact ⟨s.pol, by rw [s.drain_nil hnone, ← hnone]⟩
    · obtain ⟨p, -, -, hdrain⟩ := s.drain_fault hfault
      exact ⟨p, hdrain⟩
  refine ⟨?_, ?_, ?_⟩
  · rw [s.settle_grd, hdrain]
  · rw [s.settle_cred, hdrain]
  · simp [State.settle, hdrain]

/-- The line at the end of an event: as its effect left it, or released and no longer followed in DORMANT (R162). -/
theorem State.settle_line (s : State) : s.settle.line = s.line ∨ s.settle.line = {} := by
  unfold State.settle
  rcases s.drain.regate.grantPort.dormantIfQuiet_cases with h | ⟨-, -, h⟩ <;> rw [h]
  · exact .inl (by simp)
  · exact .inr rfl

theorem State.settle_released {s : State} (h : s.line.ownDrive = false) : s.settle.line.ownDrive = false := by
  rcases s.settle_line with hl | hl <;> rw [hl]
  exact h

/-! ## The journal's store -/

/-- The record in progress in force and stored, the waiting one begun (R143). -/
def State.journalStored (s : State) (j : Journal) : State := { s with
  nv := { s.nv with journal := j }
  wipe := { s.wipe with journal := j, waiting := none, busy := s.wipe.waiting } }

/-- What a journal store that was made does, by the phase that it stored. -/
theorem State.journalMade_eq {s : State} {j : Journal} (hstrap : s.grd.state ≠ .strapFault)
    (hbusy : s.wipe.busy = some j) :
    s.journalMade = match j.phase with
      | .ordered => if s.wipe.journal.phase = .ordered then s.journalStored j else (s.journalStored j).orderInForce
      | .done => if s.wipe.journal.phase = .done then s.journalStored j else (s.journalStored j).reachDone
      | .none => s.journalStored j
      | .keyGone | .passing => (s.journalStored j).engineStep := by
  have hmay : s.mayStore = true := bne_iff_ne.2 hstrap
  have hmay' : (s.journalStored j).mayStore = true := hmay
  simp only [State.journalMade, hbusy, hmay, if_true]
  change (if (!(s.journalStored j).mayStore) = true then _ else _) = _
  rw [hmay', Bool.not_true, if_neg Bool.false_ne_true]
  rfl

/-- An order in force before the table's destruction is asked for: no longer pending, and but for STARTING the station is in
WIPING (R16, R145). -/
def State.orderTaken (s : State) : State :=
  let u := { s with wipe := { s.wipe with orderPending := none } }
  if u.grd.state = .starting ∨ u.grd.state = .wiping then u else u.enterWiping

theorem State.orderInForce_eq (s : State) : s.orderInForce = s.orderTaken.askDestruction := rfl

/-- What the guard controller's part of an order in force leaves. -/
structure OrderTaken (s u : State) : Prop where
  starting : s.grd.state = .starting → u.grd.state = .starting
  wiping : s.grd.state ≠ .starting → u.grd.state = .wiping
  nv : u.nv = s.nv
  wipe : u.wipe = { s.wipe with orderPending := none }
  pol : u.pol = s.pol
  busy : u.cred.busy = s.cred.busy
  waiting : u.cred.waiting = s.cred.waiting
  dropped : u.cred.stagingDropped = s.cred.stagingDropped

theorem State.orderTaken_spec (s : State) : OrderTaken s s.orderTaken := by
  unfold State.orderTaken
  dsimp only
  split
  · next h =>
    exact ⟨id, fun hs => h.resolve_left hs, rfl, rfl, rfl, rfl, rfl, rfl⟩
  · next h =>
    obtain ⟨hstarting, hwiping⟩ := not_or.1 h
    refine ⟨fun hs => absurd hs hstarting, fun _ => ?_, ?_, ?_, ?_, ?_, ?_, ?_⟩ <;> simp

theorem State.askDestruction_begins {s : State} (hstrap : s.grd.state ≠ .strapFault) (h : s.cred.busy = none) :
    s.askDestruction = { s with cred := { s.cred with busy := some .destroy } } := by
  have hmay : s.mayStore = true := bne_iff_ne.2 hstrap
  simp [State.askDestruction, h, State.askCred, hmay, State.beginCred]

/-- What a state after an order in force has left of key and hold, when the station came to WIPING with it (R16). -/
theorem State.orderTaken_wipes {s : State} (hstarting : s.grd.state ≠ .starting) (hwiping : s.grd.state ≠ .wiping) :
    s.orderTaken.cred.plainKey = none ∧ s.orderTaken.cred.genKey = none ∧ s.orderTaken.grd.matched = none
      ∧ s.orderTaken.grd.mustChange = false ∧ s.orderTaken.grd.batteryTimer = none
      ∧ s.orderTaken.tal.deadline = none ∧ s.orderTaken.tal.holdOwed = 0 := by
  have hnot : ¬(s.grd.state = .starting ∨ s.grd.state = .wiping) := by simp [hstarting, hwiping]
  simp only [State.orderTaken, if_neg hnot]
  simp [State.enterWiping, State.setGuard_grd, hwiping]

theorem State.orderTaken_no_startingEnded {s : State} (h : Notice.startingEnded ∉ s.notices) :
    Notice.startingEnded ∉ s.orderTaken.notices := by
  unfold State.orderTaken
  dsimp only
  split
  · exact h
  · exact State.setGuard_no_startingEnded (by simpa using h) _

theorem exec_journalStoreMade {s : State} (hheld : heldStore s ≠ some .journal) :
    exec .journalStoreMade s = .next ({ s with notices := [] } : State).journalMade.settle := by
  have hheld' : heldStore ({ s with notices := [] } : State) ≠ some .journal := hheld
  show execJournalStoreMade s = _
  exact congrArg (fun u : State => Host.Outcome.next u.settle) (if_neg hheld')

theorem exists_stage_iff (l : List CredJob) : l.any CredJob.isStage = true ↔ ∃ p, .stage p ∈ l := by
  rw [List.any_eq_true]
  constructor
  · rintro ⟨j, hj, hstage⟩
    cases j <;> simp [CredJob.isStage] at hstage
    exact ⟨_, hj⟩
  · rintro ⟨p, hp⟩
    exact ⟨_, hp, rfl⟩

section OrderInForce

variable {s : State}

theorem State.orderTaken_place (s : State) :
    s.orderTaken.grd.state = .starting ∨ s.orderTaken.grd.state = .wiping := by
  by_cases h : s.grd.state = .starting
  · exact .inl (s.orderTaken_spec.starting h)
  · exact .inr (s.orderTaken_spec.wiping h)

/-- STARTING and WIPING stay as they are at the end of the event. -/
theorem State.orderInForce_settle_state (s : State) : s.orderInForce.settle.grd.state = s.orderTaken.grd.state := by
  have hmay := s.orderInForce.settle_triggersMay
  rw [s.orderInForce_eq] at hmay ⊢
  refine (hmay.stays ?_ ?_).trans (by simp) <;> rcases s.orderTaken_place with h | h <;> simp [h]

theorem State.orderInForce_settle_closed (s : State) : ClosedStays s.orderTaken.askDestruction s.orderInForce.settle := by
  rw [s.orderInForce_eq]
  exact State.settle_closed (by rcases s.orderTaken_place with h | h <;> simp [h])

theorem State.orderInForce_settle_destruction_begins (hidle : s.cred.busy = none) :
    s.orderInForce.settle.cred.busy = some .destroy := by
  have hplace : s.orderTaken.grd.state ≠ .strapFault := by rcases s.orderTaken_place with h | h <;> simp [h]
  rw [s.orderInForce_settle_closed.cred,
    State.askDestruction_begins hplace (s.orderTaken_spec.busy.trans hidle)]

theorem State.orderInForce_settle_destruction_waits (hstore : s.cred.busy ≠ none)
    (hother : s.cred.busy ≠ some .destroy) :
    s.orderInForce.settle.cred.waiting = [.destroy]
      ∧ (s.orderInForce.settle.cred.stagingDropped = true
          ↔ (∃ p, .stage p ∈ s.cred.waiting) ∨ s.cred.stagingDropped = true) := by
  obtain ⟨-, -, -, -, -, hbusy, hwaiting, hdropped⟩ := s.orderTaken_spec
  rw [s.orderInForce_settle_closed.cred,
    State.askDestruction_waits _ (by rwa [hbusy]) (by rwa [hbusy])]
  refine ⟨rfl, ?_⟩
  rw [← exists_stage_iff, ← hwaiting, ← hdropped, Bool.or_eq_true]

end OrderInForce

/-- An order in force at a station that comes to WIPING with it leaves neither key nor matched slot nor hold (R16). -/
theorem State.orderInForce_settle_wipes {s : State} (hstarting : s.grd.state ≠ .starting)
    (hwiping : s.grd.state ≠ .wiping) (hn : s.notices = []) :
    s.orderInForce.settle.cred.plainKey = none ∧ s.orderInForce.settle.cred.genKey = none
      ∧ s.orderInForce.settle.grd.matched = none ∧ s.orderInForce.settle.grd.mustChange = false
      ∧ s.orderInForce.settle.grd.batteryTimer = none
      ∧ (s.pol.armed = 0 → s.orderInForce.settle.tal.deadline = none ∧ s.orderInForce.settle.tal.holdOwed = 0) := by
  obtain ⟨hplain, hgen, hmatched, hmust, hbattery, hdeadline, howed⟩ := State.orderTaken_wipes hstarting hwiping
  obtain ⟨-, cred, matched, mustChange, battery⟩ := s.orderInForce_settle_closed
  refine ⟨?_, ?_, ?_, ?_, ?_, fun harmed => ?_⟩
  · rw [cred]; simpa using hplain
  · rw [cred]; simpa using hgen
  · rw [matched]; simpa using hmatched
  · rw [mustChange]; simpa using hmust
  · rw [battery]; simpa using hbattery
  · have hnone : Notice.startingEnded ∉ s.orderTaken.notices := State.orderTaken_no_startingEnded (by simp [hn])
    have hunarmed := State.settle_unarmed (s := s.orderTaken.askDestruction) (by simpa [s.orderTaken_spec.pol] using harmed)
      (by simpa using hnone)
    rw [s.orderInForce_eq, hunarmed.tal]
    exact ⟨by simpa using hdeadline, by simpa using howed⟩

/-- Settles O53: a stored order is in force, asks for the table's destruction and takes the station to WIPING. -/
theorem anOrderInForceWipes : Obligations.AnOrderInForceWipes := by
  unfold Obligations.AnOrderInForceWipes
  intro s j hheld hbusy hordered hbefore hstrap
  have hmade : ({ s with notices := [] } : State).journalMade
      = (({ s with notices := [] } : State).journalStored j).orderInForce := by
    rw [State.journalMade_eq (s := { s with notices := [] }) hstrap hbusy, hordered]
    exact if_neg hbefore
  rw [exec_journalStoreMade hheld, hmade]
  refine ⟨_, rfl, ?_, ?_, ?_,
    State.orderInForce_settle_destruction_begins (s := ({ s with notices := [] } : State).journalStored j),
    State.orderInForce_settle_destruction_waits (s := ({ s with notices := [] } : State).journalStored j), fun h => ?starting, fun h => ?wiping,
    fun h h' => State.orderInForce_settle_wipes h h' rfl⟩
  · simp [State.orderInForce_eq, (State.orderTaken_spec _).wipe, State.journalStored]
  · simp [State.orderInForce_eq, (State.orderTaken_spec _).nv, State.journalStored]
  · simp [State.orderInForce_eq, (State.orderTaken_spec _).wipe]
  case starting => exact (State.orderInForce_settle_state _).trans ((State.orderTaken_spec _).starting h)
  case wiping => exact (State.orderInForce_settle_state _).trans ((State.orderTaken_spec _).wiping h)

/-! ## The pass -/

/-- Where skipping PUBLIC extents ends (R151). -/
theorem skipPublic_spec (marks : Vector FixedMark 64) : ∀ fuel n, n ≤ 64 → 64 ≤ n + fuel →
    n ≤ skipPublic marks fuel n ∧ skipPublic marks fuel n ≤ 64
      ∧ (∀ x : Extent, n ≤ x.val → x.val < skipPublic marks fuel n → marks.get x = .pub)
      ∧ ∀ x : Extent, x.val = skipPublic marks fuel n → marks.get x ≠ .pub := by
  intro fuel
  induction fuel with
  | zero =>
    intro n hn hfuel
    exact ⟨Nat.le_refl n, hn, fun x h h' => absurd h' (Nat.not_lt.2 h), fun x h => by
      have : x.val = n := h
      omega⟩
  | succ fuel ih =>
    intro n hn hfuel
    unfold skipPublic
    split
    · next hlt =>
      split
      · next hpub =>
        obtain ⟨hle, hmax, hskipped, hstop⟩ := ih (n + 1) hlt (by omega)
        refine ⟨by omega, hmax, fun x h h' => ?_, hstop⟩
        rcases Nat.eq_or_lt_of_le h with heq | hgt
        · have hx : x = ⟨n, hlt⟩ := Fin.ext heq.symm
          rw [hx, hpub]
        · exact hskipped x hgt h'
      · next hnot =>
        refine ⟨Nat.le_refl n, hn, fun x h h' => absurd h' (Nat.not_lt.2 h), fun x h => ?_⟩
        have hx : x = ⟨n, hlt⟩ := Fin.ext h
        rwa [hx]
    · next hge => exact ⟨Nat.le_refl n, hn, fun x h h' => absurd h' (Nat.not_lt.2 h), fun x h => by omega⟩

theorem skipPublic_of_public {marks : Vector FixedMark 64} {e : Extent} (h : marks.get e = .pub) :
    e.val < skipPublic marks Config.extents e.val := by
  have hstop := (skipPublic_spec marks Config.extents e.val (Nat.le_of_lt e.isLt) (Nat.le_add_left 64 _))
  exact Nat.lt_of_le_of_ne hstop.1 fun heq => hstop.2.2.2 e heq h

theorem skipPublic_of_not_public {marks : Vector FixedMark 64} {e : Extent} (h : marks.get e ≠ .pub) :
    skipPublic marks Config.extents e.val = e.val := by
  simp [Config.extents, skipPublic, h]

/-- With no erase waiting at the gate the end of an event leaves the wipe engine as it is. -/
theorem State.settle_wipe_of_no_erase {s : State} (h : s.gate.eraseWaiting = none) : s.settle.wipe = s.wipe := by
  have hnone : s.drain.regate.gate.eraseWaiting = none := by simpa using h
  unfold State.settle

  rcases s.drain.regate.grantPort_cases with hg | ⟨-, e, he, -⟩ | ⟨r, -, -, -, hg⟩
  · simp [hg]
  · exact absurd (he.symm.trans hnone) nofun
  · simp [hg]

/-- An erase asked for waits at the end of the event, or has been given to the bank (R137, R138). -/
theorem State.settle_eraseAsked {s : State} {n : Nat} (hwipe : s.wipe.erase = .waiting)
    (hgate : s.gate.eraseWaiting = some n) : EraseAsked s s.settle n := by
  have hwait : s.drain.regate.gate.eraseWaiting = some n := by simpa using hgate
  unfold State.settle
  rcases s.drain.regate.grantPort_cases with hg | ⟨-, e, he, hg⟩ | ⟨r, -, -, -, hg⟩
  · exact .inl ⟨by simp [hg, hwipe], by simp [hg, hgate]⟩
  · obtain rfl : e = n := Option.some.inj (he.symm.trans hwait)
    exact .inr ⟨by simp [hg, State.issueErase], by simp [hg, State.issueErase], by simp [hg]⟩
  · exact .inl ⟨by simp [hg, hwipe], by simp [hg, hgate]⟩

/-- A station whose wipe engine may go on: bus power, WIPING, and no journal store or erase in progress (R153). -/
structure EngineIdle (s : State) : Prop where
  state : s.grd.state = .wiping
  bus : s.sup.state = .bus
  busy : s.wipe.busy = none
  again : s.wipe.again = none
  erase : s.wipe.erase = .absent
  gate : s.gate.eraseWaiting = none

theorem EngineIdle.askJournal {s : State} (h : EngineIdle s) (j : Journal) :
    s.askJournal j = { s with wipe := { s.wipe with busy := some j } } :=
  State.askJournal_begins (by simp [h.state]) h.busy h.again j

theorem EngineIdle.step_keyGone {s : State} (h : EngineIdle s) (hphase : s.wipe.journal.phase = .keyGone) :
    s.engineStep = { s with wipe := { s.wipe with busy := some { s.wipe.journal with phase := .passing } } } := by
  rw [← h.askJournal]
  simp [State.engineStep, h.state, h.bus, h.busy, h.again, hphase]

theorem EngineIdle.step_passing {s : State} (h : EngineIdle s) (hphase : s.wipe.journal.phase = .passing) :
    s.engineStep = s.passStep := by
  simp [State.engineStep, h.state, h.bus, h.busy, h.again, hphase, h.erase]

/-- A step of the pass shows at the end of any event that leaves it to the gate. -/
theorem EngineIdle.passStep {s u : State} (h : EngineIdle s) (hwipe : u.wipe = s.passStep.wipe)
    (hgate : u.gate.eraseWaiting = s.passStep.gate.eraseWaiting) (hbank : u.toBank = s.toBank) :
    PassStepTaken s.wipe.journal s u.settle := by
  have hnone : ∀ j, (s.askJournal j).gate.eraseWaiting = none := fun j => by simp [h.gate]
  refine ⟨fun hpast => ?past, fun e he hnot => ?erases, fun e he hpub => ?skips⟩
  case past =>
    have hstep : s.passStep = s.askJournal { s.wipe.journal with phase := .done } := if_pos hpast
    rw [hstep] at hwipe hgate
    rw [State.settle_wipe_of_no_erase (hgate.trans (hnone _)), hwipe, h.askJournal]
    exact ⟨rfl, h.erase⟩
  case erases =>
    have hlt : ¬Config.extents ≤ s.wipe.journal.nextExtent := by rw [he]; exact Nat.not_le.2 e.isLt
    have hskip : skipPublic s.gate.fixedMarks Config.extents s.wipe.journal.nextExtent = s.wipe.journal.nextExtent := by
      rw [he]; exact skipPublic_of_not_public hnot
    have hstep : s.passStep = { s with
        wipe := { s.wipe with erase := .waiting }
        gate := { s.gate with eraseWaiting := some e.val, yieldCount := 0 } } := by
      rw [State.passStep, if_neg hlt, if_pos hskip, hskip, he]
    rw [hstep] at hwipe hgate
    have hasked := State.settle_eraseAsked (s := u) (by rw [hwipe]) hgate
    exact ⟨by simp [hwipe, h.busy], by rwa [EraseAsked, hbank] at hasked⟩
  case skips =>
    have hlt : ¬Config.extents ≤ s.wipe.journal.nextExtent := by rw [he]; exact Nat.not_le.2 e.isLt
    have hskip : skipPublic s.gate.fixedMarks Config.extents s.wipe.journal.nextExtent ≠ s.wipe.journal.nextExtent := by
      rw [he]; exact (Nat.ne_of_lt (skipPublic_of_public hpub)).symm
    obtain ⟨-, hmax, hskipped, hstop⟩ := skipPublic_spec s.gate.fixedMarks Config.extents e.val
      (Nat.le_of_lt e.isLt) (Nat.le_add_left 64 _)
    have hstep : s.passStep = s.askJournal { s.wipe.journal with
        nextExtent := skipPublic s.gate.fixedMarks Config.extents e.val, attempts := 0 } := by
      simp only [State.passStep, ge_iff_le, hlt, if_false, hskip]
      rw [he]
    rw [hstep] at hwipe hgate
    rw [State.settle_wipe_of_no_erase (hgate.trans (hnone _)), hwipe, h.askJournal]
    exact ⟨_, rfl, h.erase, skipPublic_of_public hpub, hmax, hskipped, hstop⟩

theorem releaseFrozen_get (marks : Vector FixedMark 64) (e : Extent) :
    (releaseFrozen marks).get e = if marks.get e = .frozen then .normal else marks.get e := by
  simp [releaseFrozen, mapEntries, Vector.get_eq_getElem]

/-- With DONE in force FROZEN marks are released, PROGRESS is posted and its timer runs (R154). -/
structure DoneReached (s t : State) : Prop where
  marks : ∀ e : Extent,
    t.gate.fixedMarks.get e = if s.gate.fixedMarks.get e = .frozen then .normal else s.gate.fixedMarks.get e
  queue : t.eng.queue = queuePost .progress 0 s.eng.queue
  timer : t.wipe.progressTimer = some (s.now + 1000)
  journal : t.wipe.journal = s.wipe.journal
  notices : t.notices = s.notices

theorem State.reachDone_done {s : State} (hstrap : s.grd.state ≠ .strapFault) : DoneReached s s.reachDone := by
  unfold State.reachDone
  dsimp only
  split
  · next hsame =>
    refine ⟨fun e => ?_, ?_, ?_, ?_, ?_⟩
    · rw [← releaseFrozen_get, hsame]
      simp
    · simp [State.post, hstrap]
    · simp [Config.progressRetry]
    · simp
    · simp
  · next hdiff =>
    refine ⟨fun e => ?_, ?_, ?_, ?_, ?_⟩
    · rw [← releaseFrozen_get]
      simp [State.putMarks]
    · simp [State.post, hstrap]
    · simp [Config.progressRetry]
    · simp
    · simp

/-- A journal store that was made leaves its record in force and stored (R143). -/
theorem State.journalMade_record {s : State} {j : Journal} (hbusy : s.wipe.busy = some j) :
    s.journalMade.wipe.journal = j ∧ s.journalMade.nv.journal = j := by
  by_cases hstrap : s.grd.state = .strapFault
  · simp [State.journalMade, hbusy, State.mayStore, hstrap]
  have hrecord : (s.journalStored j).wipe.journal = j ∧ (s.journalStored j).nv.journal = j := ⟨rfl, rfl⟩
  have horder : (s.journalStored j).orderInForce.wipe.journal = j
      ∧ (s.journalStored j).orderInForce.nv.journal = j := by
    simp [State.orderInForce_eq, (State.orderTaken_spec _).wipe, (State.orderTaken_spec _).nv, hrecord]
  rw [State.journalMade_eq hstrap hbusy]
  cases j.phase <;> dsimp only
  case ordered => split <;> assumption
  case done =>
    have hdone := State.reachDone_done (s := s.journalStored j) hstrap
    split
    · exact hrecord
    · exact ⟨hdone.journal.trans hrecord.1, by simpa using hrecord.2⟩
  case none => exact hrecord
  case keyGone => simpa using hrecord
  case passing => simpa using hrecord

/-- A journal store that was made leaves WIPING in place. -/
theorem State.journalMade_wiping {s : State} (hwiping : s.grd.state = .wiping) : s.journalMade.grd.state = .wiping := by
  cases hbusy : s.wipe.busy with
  | none => simpa [State.journalMade, hbusy] using hwiping
  | some j =>
    have hstored : (s.journalStored j).grd.state = .wiping := hwiping
    rw [State.journalMade_eq (by simp [hwiping]) hbusy]
    cases j.phase <;> dsimp only
    case ordered =>
      split
      · exact hstored
      · simpa [State.orderInForce_eq] using (s.journalStored j).orderTaken_spec.wiping (by simp [hstored])
    case done => split <;> simpa using hstored
    case none => exact hstored
    case keyGone => simpa using hstored
    case passing => simpa using hstored

theorem State.settle_fixedMarks (s : State) : s.settle.gate.fixedMarks = s.gate.fixedMarks := by simp

theorem State.settle_progressTimer (s : State) : s.settle.wipe.progressTimer = s.wipe.progressTimer := by simp

/-- Settles O54: KEY_GONE begins the pass, PASSING takes a step of it, DONE ends it. -/
theorem madeJournalStoresDriveThePass : Obligations.MadeJournalStoresDriveThePass := by
  unfold Obligations.MadeJournalStoresDriveThePass
  intro s j hheld hbusy hwait hagain herase hgate hwiping hbus
  have hstrap : s.grd.state ≠ .strapFault := by simp [hwiping]
  have hmade := State.journalMade_eq (s := { s with notices := [] }) hstrap hbusy
  have hrecord := State.journalMade_record (s := { s with notices := [] }) hbusy
  have hstate := State.journalMade_wiping (s := { s with notices := [] }) hwiping
  have hidle : EngineIdle (({ s with notices := [] } : State).journalStored j) :=
    ⟨hwiping, hbus, hwait, hagain, herase, hgate⟩
  rw [exec_journalStoreMade hheld]
  refine ⟨_, rfl, by simpa using hrecord.1, by simpa using hrecord.2, ?state, fun hphase => ?keyGone,
    fun hphase => ?passing, fun hphase hbefore => ?done⟩
  case state =>
    exact ((State.settle_triggersMay _).stays (by simp [hstate]) (by simp [hstate])).trans hstate
  case keyGone =>
    rw [hmade, hphase]
    simp only [hidle.step_keyGone hphase]
    simp [State.journalStored]
  case passing =>
    rw [hmade, hphase]
    simp only [hidle.step_passing hphase]
    obtain ⟨past, erases, skips⟩ := hidle.passStep rfl rfl (by simp)
    exact ⟨past, erases, skips⟩
  case done =>
    have hdone : ({ s with notices := [] } : State).journalMade
        = (({ s with notices := [] } : State).journalStored j).reachDone := by
      rw [hmade, hphase]
      exact if_neg hbefore
    obtain ⟨marks, queue, timer, -, notices⟩ :=
      State.reachDone_done (s := ({ s with notices := [] } : State).journalStored j) hstrap
    rw [hdone]
    refine ⟨fun e => ?_, ?_, ?_⟩
    · rw [State.settle_fixedMarks]
      exact marks e
    · rw [State.settle_queue, State.drain_nil _ notices]
      exact queue
    · rw [State.settle_progressTimer]
      exact timer

end Sys2Proof.Machine

end


section
/-! PROOF. Journal and credential stores that fail, and the stores for which the station holds the line (R31, R80, R93 to
R98, R143, R145; log 18, log 52). -/

namespace Sys2Proof.Machine

/-! ## A journal store that failed -/

/-- The wipe engine after its journal store failed (R143, R145, R156). -/
def State.wipeAfterFailure (s : State) (j : Journal) (now : Bool) : Wipe :=
  match s.wipe.waiting, j.phase with
  | some w, .none => { s.wipe with busy := some w, waiting := none }
  | _, _ => if now then s.wipe else { s.wipe with busy := none, again := some j }

theorem State.journalFailed_eq {s : State} {j : Journal} (hstrap : s.grd.state ≠ .strapFault)
    (hbusy : s.wipe.busy = some j) (now : Bool) :
    s.journalFailed now = { s with wipe := s.wipeAfterFailure j now }.storeFail := by
  have hmay : s.mayStore = true := bne_iff_ne.2 hstrap
  have hmay' : s.storeFail.mayStore = true := hmay
  simp only [State.journalFailed, hbusy, State.setFlag_storeFail, hmay', State.wipeAfterFailure]
  change (match s.wipe.waiting, j.phase with | some _, .none => _ | _, _ => _) = _
  split
  · rfl
  · cases now <;> rfl

theorem repeatsNow_iff {s : State} {j : Journal} (hbusy : s.wipe.busy = some j) :
    repeatsNow s = true ↔ s.eng.round = none ∨ j.phase ≠ .ordered := by
  cases hr : s.eng.round <;> simp [repeatsNow, hr, hbusy]

theorem exec_journalStoreFailed {s : State} {j : Journal} (hs : Settled s) (hheld : heldStore s ≠ some .journal)
    (hbusy : s.wipe.busy = some j) (hstrap : s.grd.state ≠ .strapFault) :
    ∃ t, exec .journalStoreFailed s = .next t ∧ t.stat.flags.has .storeFail = true ∧ t.nv = s.nv
      ∧ t.wipe = s.wipeAfterFailure j (repeatsNow s) := by
  have hc : exec .journalStoreFailed s
      = .next ({ s with wipe := s.wipeAfterFailure j (repeatsNow s) } : State).storeFail.settle := by
    show execJournalStoreFailed s = _
    refine event_of_effect hs.notices ?_
    rw [if_neg hheld, State.journalFailed_eq hstrap hbusy]
  obtain ⟨p, -, -, ht⟩ := exec_failed hc hs.notices hs.decided hs.granted hstrap
  exact ⟨_, ht, State.storeFail_has _, rfl, rfl⟩

/-! ## The store that the station holds the line for -/

/-- The store that the station would hold the line for in a round of some kind is in progress. -/
def StoreRuns (s : State) (owner : HoldOwner) : Prop := ∃ k, ownStoreRuns s k = some owner

theorem storeRuns_of_held {s : State} {owner : HoldOwner} (h : heldStore s = some owner) : StoreRuns s owner := by
  unfold heldStore at h
  split at h
  · obtain ⟨k, -, hk⟩ := Option.bind_eq_some_iff.1 h
    exact ⟨k, hk⟩
  · cases h

theorem StoreRuns.tally {s : State} (h : StoreRuns s .tally) :
    s.tal.tallyStore.busy ≠ none ∧ s.tal.tallyStore.waiting = none := by
  obtain ⟨k, hk⟩ := h
  cases k <;> simp [ownStoreRuns] at hk
  exact ⟨Option.isSome_iff_ne_none.1 hk.1, hk.2⟩

theorem StoreRuns.credential {s : State} (h : StoreRuns s .credential) :
    (∃ p, s.cred.busy = some (.stage p)) ∧ ∀ x ∈ s.cred.waiting, x.isStage = false := by
  obtain ⟨k, hk⟩ := h
  cases k <;> simp [ownStoreRuns] at hk
  obtain ⟨hstage, hnone, -⟩ := hk
  refine ⟨?_, hnone⟩
  cases hbusy : s.cred.busy with
  | none => simp [hbusy] at hstage
  | some j => cases j <;> simp [hbusy, CredJob.isStage] at hstage ⊢

theorem StoreRuns.pendingMark {s : State} (h : StoreRuns s .pendingMark) :
    (∃ p d, s.gate.pmBusy = some (.stage p d)) ∧ ∀ x ∈ s.gate.pmWaiting, x.isStage = false := by
  obtain ⟨k, hk⟩ := h
  cases k <;> simp [ownStoreRuns] at hk
  obtain ⟨hstage, hnone⟩ := hk
  refine ⟨?_, hnone⟩
  cases hbusy : s.gate.pmBusy with
  | none => simp [hbusy] at hstage
  | some j => cases j <;> simp [hbusy, PendingMarkJob.isStage] at hstage ⊢

theorem StoreRuns.journal {s : State} (h : StoreRuns s .journal) :
    ∃ j, s.wipe.busy = some j ∧ j.phase = .ordered := by
  obtain ⟨k, hk⟩ := h
  cases k <;> simp [ownStoreRuns] at hk
  obtain ⟨-, hordered⟩ := hk
  cases hbusy : s.wipe.busy with
  | none => simp [hbusy] at hordered
  | some j => exact ⟨j, rfl, by simpa [hbusy] using hordered⟩

/-! ## A store that its owner takes as made -/

theorem State.beginCred_pendingSlot {s : State} {j : CredJob} (h : j.isStage = false) :
    (s.beginCred j).nv = s.nv := by
  cases j <;> simp [CredJob.isStage, State.beginCred] at h ⊢

theorem State.nextCred_nv {s : State} (h : ∀ x ∈ s.cred.waiting, x.isStage = false) : s.nextCred.nv = s.nv := by
  unfold State.nextCred
  dsimp only
  cases hw : s.cred.waiting with
  | nil => rfl
  | cons j js =>
    dsimp only
    split
    · rw [State.beginCred_pendingSlot (h j (by simp [hw]))]
    · rfl

theorem State.credEndMade_stage {s : State} {p : PendingChange} (hbusy : s.cred.busy = some (.stage p)) :
    s.credEndMade = ({ s with
      nv := { s.nv with pendingSlot := some { p with stored := true } }
      cred := { s.cred with pendingSlot := some { p with stored := true } } } : State).nextCred := by
  have hother : (some (CredJob.stage p) == some CredJob.destroy) = false := by
    rw [beq_eq_false_iff_ne]
    nofun
  simp only [State.credEndMade, State.credMade, hbusy, hother, Bool.false_and]
  exact if_neg Bool.false_ne_true

theorem State.nextPm_record {s : State} (h : ∀ x ∈ s.gate.pmWaiting, x.isStage = false) :
    s.nextPm.nv = s.nv ∧ s.nextPm.gate.pendingMark = s.gate.pendingMark := by
  unfold State.nextPm
  dsimp only
  cases hw : s.gate.pmWaiting with
  | nil => exact ⟨rfl, rfl⟩
  | cons j js =>
    have hj := h j (by simp [hw])
    dsimp only
    split
    · cases j with
      | stage p d => simp [PendingMarkJob.isStage] at hj
      | empty => exact ⟨rfl, rfl⟩
    · exact ⟨rfl, rfl⟩

theorem State.askPm_empty_nv (s : State) : (s.askPm .empty).nv = s.nv := by
  unfold State.askPm
  split
  · rfl
  · split <;> rfl

theorem State.pmMade_stage {s : State} {p : PendingMark} {dropped : Bool}
    (hbusy : s.gate.pmBusy = some (.stage p dropped)) (h : ∀ x ∈ s.gate.pmWaiting, x.isStage = false) :
    s.pmMade.nv = { s.nv with pendingMark := some { p with stored := true } }
      ∧ (dropped = false → s.pmMade.gate.pendingMark = some { p with stored := true }) := by
  cases dropped with
  | false =>
    simp only [State.pmMade, hbusy, Bool.false_and, Bool.false_eq_true, if_false]
    exact ⟨(State.nextPm_record (by exact h)).1, fun _ => (State.nextPm_record (by exact h)).2⟩
  | true =>
    refine ⟨?_, nofun⟩
    simp only [State.pmMade, hbusy, Bool.true_and, if_true]
    split
    · rw [State.askPm_empty_nv]
      exact (State.nextPm_record (by exact h)).1
    · exact (State.nextPm_record (by exact h)).1

/-- What a store leaves in storage, and in force, when its owner takes it as made (R93, R101, R140, R145). -/
structure TakenAsMade (owner : HoldOwner) (s t : State) : Prop where
  tally : owner = .tally → ∀ v, s.tal.tallyStore.busy = some v → t.nv.tally = v
  credential : owner = .credential → ∀ p, s.cred.busy = some (.stage p) →
    t.nv.pendingSlot = some { p with stored := true }
  pendingMark : owner = .pendingMark → ∀ p d, s.gate.pmBusy = some (.stage p d) →
    t.nv.pendingMark = some { p with stored := true }
      ∧ (d = false → t.gate.pendingMark = some { p with stored := true })
  journal : owner = .journal → ∀ j, s.wipe.busy = some j → t.nv.journal = j ∧ t.wipe.journal = j

theorem State.ownerMade_taken {s : State} (owner : HoldOwner)
    (hcred : owner = .credential → ∀ x ∈ s.cred.waiting, x.isStage = false)
    (hpm : owner = .pendingMark → ∀ x ∈ s.gate.pmWaiting, x.isStage = false) :
    TakenAsMade owner s (s.ownerMade owner) := by
  refine ⟨?_, ?_, ?_, ?_⟩ <;> rintro rfl
  · intro v hbusy
    simp [State.ownerMade, State.tallyMade, hbusy]
  · intro p hbusy
    simp only [State.ownerMade]
    rw [State.credEndMade_stage hbusy]
    exact congrArg Nonvolatile.pendingSlot (State.nextCred_nv (by exact hcred rfl))
  · intro p d hbusy
    obtain ⟨hnv, hmark⟩ := State.pmMade_stage hbusy (hpm rfl)
    exact ⟨by simp only [State.ownerMade, hnv], hmark⟩
  · intro j hbusy
    exact ⟨(State.journalMade_record hbusy).2, (State.journalMade_record hbusy).1⟩

/-- A round whose held store of this station was made in the field (R31). -/
def RoundRec.storeMade (r : RoundRec) : RoundRec := { r with made := true }

theorem exec_holdStoreFinished {s : State} {owner : HoldOwner} (h : heldStore s = some owner) :
    exec .holdStoreFinished s
      = .next (((({ s with notices := [] } : State).release).mapRound RoundRec.storeMade).ownerMade owner).settle := by
  have h' : heldStore ({ s with notices := [] } : State) = some owner := h
  show execHoldStoreFinished s = _
  simp only [execHoldStoreFinished, event_next, State.heldStoreMade, h']
  rfl

theorem exec_holdStoreFailed {s : State} {owner : HoldOwner} (h : heldStore s = some owner) :
    exec .holdStoreFailed s = .next ((({ s with notices := [] } : State).release).ownerFailed owner).settle := by
  have h' : heldStore ({ s with notices := [] } : State) = some owner := h
  show execHoldStoreFailed s = _
  simp only [execHoldStoreFailed, event_next, State.heldStoreFailed, h']

theorem holdStoreFinished_made {s : State} {r : RoundRec} {owner : HoldOwner} (hr : s.eng.round = some r)
    (h : heldStore s = some owner) :
    ∃ t, exec .holdStoreFinished s = .next t ∧ t.line.ownDrive = false
      ∧ t.eng.round = some { r with made := true } ∧ TakenAsMade owner s t := by
  have hcred : owner = .credential → ∀ x ∈ s.cred.waiting, x.isStage = false :=
    fun ho => (storeRuns_of_held (h.trans (congrArg some ho))).credential.2
  have hpm : owner = .pendingMark → ∀ x ∈ s.gate.pmWaiting, x.isStage = false :=
    fun ho => (storeRuns_of_held (h.trans (congrArg some ho))).pendingMark.2
  have hmade := State.ownerMade_taken (s := (({ s with notices := [] } : State).release).mapRound RoundRec.storeMade)
    owner hcred hpm
  obtain ⟨tally, credential, pendingMark, journal⟩ := hmade
  refine ⟨_, exec_holdStoreFinished h, State.settle_released ?_, ?_, ?_, ?_, ?_, ?_⟩
  · simp [State.release]
  · simp [State.mapRound, hr, RoundRec.storeMade]
  · simpa using tally
  · simpa using credential
  · simpa using pendingMark
  · simpa using journal

/-! ## A held store that failed -/

theorem State.credFailed_stage {s : State} {p : PendingChange} (hbusy : s.cred.busy = some (.stage p)) :
    s.credFailed = ({ s.storeFail with cred := { s.cred with pendingSlot := none } } : State).nextCred := by
  simp only [State.credFailed, hbusy, State.setFlag_storeFail]
  rfl

theorem State.pmFailed_stage {s : State} {p : PendingMark} {dropped : Bool}
    (hbusy : s.gate.pmBusy = some (.stage p dropped)) :
    s.pmFailed = ({ s with gate := { s.gate with pendingMark := none } } : State).storeFail.nextPm := by
  simp only [State.pmFailed, hbusy, State.setFlag_storeFail]

theorem State.tallyFailed_eq {s : State} {v : Nat} (hbusy : s.tal.tallyStore.busy = some v) (now : Bool) :
    s.tallyFailed now = ({ s with tal := { s.tal with
      tallyStore := s.tal.tallyStore.failed s.tal.tally s.mayStore now } } : State).storeFail := by
  simp only [State.tallyFailed, hbusy, State.setFlag_storeFail]

/-- What every store that failed in a hold field does to flags and round. -/
structure FailedInHold (s u : State) : Prop where
  flag : u.stat.flags.has .storeFail = true
  round : u.eng.round = s.eng.round.map (·.uncarry .storeFail)

theorem State.ownerFailed_inHold {s : State} {owner : HoldOwner} (h : StoreRuns s owner) :
    FailedInHold s (s.ownerFailed owner) := by
  cases owner with
  | tally =>
    obtain ⟨v, hbusy⟩ := Option.ne_none_iff_exists'.1 h.tally.1
    simp only [State.ownerFailed, State.tallyFailed_eq hbusy]
    exact ⟨State.storeFail_has _, rfl⟩
  | credential =>
    obtain ⟨⟨p, hbusy⟩, hwait⟩ := h.credential
    simp only [State.ownerFailed, State.credFailed_stage hbusy]
    exact ⟨by simpa using s.storeFail_has, by simp [State.storeFail]⟩
  | pendingMark =>
    obtain ⟨⟨p, d, hbusy⟩, hwait⟩ := h.pendingMark
    simp only [State.ownerFailed, State.pmFailed_stage hbusy]
    exact ⟨by simpa using State.storeFail_has _, by simp [State.storeFail]⟩
  | journal =>
    obtain ⟨j, hbusy, -⟩ := h.journal
    simp only [State.ownerFailed]
    by_cases hstrap : s.grd.state = .strapFault
    · have hmay : s.storeFail.mayStore = false := by simp [State.mayStore, State.storeFail, hstrap]
      simp only [State.journalFailed, hbusy, State.setFlag_storeFail, hmay]
      exact ⟨s.storeFail_has, rfl⟩
    · rw [State.journalFailed_eq hstrap hbusy]
      exact ⟨State.storeFail_has _, rfl⟩

theorem State.ownerFailed_tally {s : State} (h : StoreRuns s .tally) (hstrap : s.grd.state ≠ .strapFault) :
    (s.ownerFailed .tally).tal.tallyStore = { again := true } := by
  obtain ⟨hbusy, hwait⟩ := h.tally
  obtain ⟨v, hbusy⟩ := Option.ne_none_iff_exists'.1 hbusy
  have hmay : s.mayStore = true := bne_iff_ne.2 hstrap
  simp only [State.ownerFailed, State.tallyFailed_eq hbusy]
  simp [State.storeFail, Store.failed, hmay, hwait]

theorem State.ownerFailed_credential {s : State} (h : StoreRuns s .credential) (hwait : s.cred.waiting = []) :
    (s.ownerFailed .credential).cred.pendingSlot = none := by
  obtain ⟨⟨p, hbusy⟩, -⟩ := h.credential
  simp only [State.ownerFailed, State.credFailed_stage hbusy]
  simp [State.nextCred, hwait]

theorem State.ownerFailed_pendingMark {s : State} (h : StoreRuns s .pendingMark) (hwait : s.gate.pmWaiting = []) :
    (s.ownerFailed .pendingMark).gate.pendingMark = none := by
  obtain ⟨⟨p, d, hbusy⟩, -⟩ := h.pendingMark
  simp only [State.ownerFailed, State.pmFailed_stage hbusy]
  simp [State.nextPm, State.storeFail, hwait]

theorem State.ownerFailed_journal {s : State} (h : StoreRuns s .journal) (hstrap : s.grd.state ≠ .strapFault) :
    (s.ownerFailed .journal).wipe = { s.wipe with busy := none, again := s.wipe.busy } := by
  obtain ⟨j, hbusy, hordered⟩ := h.journal
  simp only [State.ownerFailed, State.journalFailed_eq hstrap hbusy]
  have hafter : s.wipeAfterFailure j false = { s.wipe with busy := none, again := some j } := by
    unfold State.wipeAfterFailure
    split
    · next hphase => simp [hordered] at hphase
    · rfl
  simp only [State.storeFail, hafter, hbusy]

/-! ## A store that ends behind the station's back -/

section LateStore

variable {s : State}

theorem lateStoreFinished_tally {v : Nat} (hheld : heldStore s ≠ some .tally) (hbusy : s.tal.tallyStore.busy = some v) :
    ∃ t, exec (.lateStoreFinished .tally) s = .next t ∧ t.nv = { s.nv with tally := v }
      ∧ t.eng.round = s.eng.round ∧ t.tal = { s.tal with tallyStore := s.tal.tallyStore.made s.mayStore } := by
  have hheld' : heldStore ({ s with notices := [] } : State) ≠ some .tally := hheld
  have hmade : ({ s with notices := [] } : State).tallyMade = { s with
      notices := []
      nv := { s.nv with tally := v }
      tal := { s.tal with tallyStore := s.tal.tallyStore.made s.mayStore } } := by
    simp only [State.tallyMade, hbusy]
    rfl
  have hc : exec (.lateStoreFinished .tally) s = .next ({ s with notices := [] } : State).tallyMade.settle :=
    congrArg (fun u : State => Host.Outcome.next u.settle) (if_neg hheld')
  rw [hmade] at hc
  exact ⟨_, hc, by simp, by simp, (State.settle_calm (.inl rfl)).tal⟩

theorem lateStoreFinished_credential {p : PendingChange} (hheld : heldStore s ≠ some .credential)
    (hbusy : s.cred.busy = some (.stage p)) (hwait : s.cred.waiting = []) :
    ∃ t, exec (.lateStoreFinished .credential) s = .next t
      ∧ t.nv = { s.nv with pendingSlot := some { p with stored := true } } ∧ t.eng.round = s.eng.round
      ∧ t.cred = { s.cred with busy := none, pendingSlot := some { p with stored := true } } := by
  have hheld' : heldStore ({ s with notices := [] } : State) ≠ some .credential := hheld
  have hstage : s.cred.busy.any CredJob.isStage = true := by simp [hbusy, CredJob.isStage]
  have hmade : ({ s with notices := [] } : State).credEndMade = { s with
      notices := []
      nv := { s.nv with pendingSlot := some { p with stored := true } }
      cred := { s.cred with busy := none, pendingSlot := some { p with stored := true } } } := by
    rw [State.credEndMade_stage (s := { s with notices := [] }) hbusy]
    simp [State.nextCred, hwait]
  have hc : exec (.lateStoreFinished .credential) s = .next ({ s with notices := [] } : State).credEndMade.settle :=
    congrArg (fun u : State => Host.Outcome.next u.settle) ((if_neg hheld').trans (if_pos hstage))
  rw [hmade] at hc
  exact ⟨_, hc, by simp, by simp, (State.settle_calm (.inl rfl)).cred⟩

theorem lateStoreFinished_pendingMark {p : PendingMark} (hheld : heldStore s ≠ some .pendingMark)
    (hbusy : s.gate.pmBusy = some (.stage p false)) (hwait : s.gate.pmWaiting = []) :
    ∃ t, exec (.lateStoreFinished .pendingMark) s = .next t
      ∧ t.nv = { s.nv with pendingMark := some { p with stored := true } } ∧ t.eng.round = s.eng.round
      ∧ t.gate.pendingMark = some { p with stored := true } ∧ t.gate.pmBusy = none := by
  have hheld' : heldStore ({ s with notices := [] } : State) ≠ some .pendingMark := hheld
  have hstage : s.gate.pmBusy.any PendingMarkJob.isStage = true := by simp [hbusy, PendingMarkJob.isStage]
  have hmade : ({ s with notices := [] } : State).pmMade = { s with
      notices := []
      nv := { s.nv with pendingMark := some { p with stored := true } }
      gate := { s.gate with pmBusy := none, pendingMark := some { p with stored := true } } } := by
    simp [State.pmMade, hbusy, State.nextPm, hwait]
  have hc : exec (.lateStoreFinished .pendingMark) s = .next ({ s with notices := [] } : State).pmMade.settle :=
    congrArg (fun u : State => Host.Outcome.next u.settle) ((if_neg hheld').trans (if_pos hstage))
  rw [hmade] at hc
  exact ⟨_, hc, by simp, by simp, by simp, by simp⟩

theorem lateStoreFinished_journal {j : Journal} (hheld : heldStore s ≠ some .journal) (hbusy : s.wipe.busy = some j)
    (hordered : j.phase = .ordered) (hbefore : s.wipe.journal.phase ≠ .ordered) (hstrap : s.grd.state ≠ .strapFault) :
    ∃ t, exec (.lateStoreFinished .journal) s = .next t ∧ t.wipe.journal = j ∧ t.nv.journal = j
      ∧ t.wipe.orderPending = none ∧ t.eng.round = s.eng.round := by
  have hheld' : heldStore ({ s with notices := [] } : State) ≠ some .journal := hheld
  have horder : s.wipe.busy.any (·.phase == .ordered) = true := by simp [hbusy, hordered]
  obtain ⟨hforce, hstored⟩ := State.journalMade_record (s := { s with notices := [] }) hbusy
  have hmade : ({ s with notices := [] } : State).journalMade
      = (({ s with notices := [] } : State).journalStored j).orderInForce := by
    rw [State.journalMade_eq (s := { s with notices := [] }) hstrap hbusy, hordered]
    exact if_neg hbefore
  have hc : exec (.lateStoreFinished .journal) s = .next ({ s with notices := [] } : State).journalMade.settle :=
    congrArg (fun u : State => Host.Outcome.next u.settle) ((if_neg hheld').trans (if_pos horder))
  refine ⟨_, hc, by simpa using hforce, by simpa using hstored, ?_, by simp⟩
  rw [hmade]
  simp [State.orderInForce_eq, (State.orderTaken_spec _).wipe]

end LateStore

/-- Settles O52: the owner takes a held store that was made; one that failed counts as not made; a late one is its owner's
alone. -/
theorem heldStoresCountWhenMadeInTheField : Obligations.HeldStoresCountWhenMadeInTheField := by
  unfold Obligations.HeldStoresCountWhenMadeInTheField
  refine ⟨fun s r b owner hin hheld => ⟨?made, ?failed⟩, fun s r b hs hin hkind hdropped => ?dropped, fun s =>
    ⟨fun v => lateStoreFinished_tally, fun p => lateStoreFinished_credential, fun p => lateStoreFinished_pendingMark,
      fun j => lateStoreFinished_journal⟩⟩
  case made =>
    obtain ⟨t, hc, hdrive, hround, tally, credential, pendingMark, journal⟩ := holdStoreFinished_made hin.record hheld
    exact ⟨t, hc, hdrive, hround, tally, credential, pendingMark, journal⟩
  case failed =>
    have hheldRuns : StoreRuns s owner := storeRuns_of_held hheld
    have hruns : StoreRuns ({ s with notices := [] } : State).release owner := hheldRuns
    obtain ⟨flag, round⟩ := State.ownerFailed_inHold hruns
    have hround : ({ s with notices := [] } : State).release.eng.round = some r := hin.record
    refine ⟨_, exec_holdStoreFailed hheld, State.settle_released ?_, ?_, ⟨r.uncarry .storeFail, ?_, rfl⟩, ?_, ?_,
      ?_, ?_, ?_, ?_⟩
    · simp [State.release]
    · simpa using flag
    · rw [hround] at round
      simpa using round
    · simp
    · simp
    · rintro rfl hstrap
      simpa using State.ownerFailed_tally hruns hstrap
    · rintro rfl hwait
      simpa using State.ownerFailed_credential hruns hwait
    · rintro rfl hwait
      simpa using State.ownerFailed_pendingMark hruns hwait
    · rintro rfl hstrap
      have hwipe := State.ownerFailed_journal hruns hstrap
      simp [hwipe]
  case dropped =>
    have hnone := heldStore_stagingDropped s r hin.record hkind hdropped
    exact ⟨hs.event_eq (by simp only [State.heldStoreMade, hnone]) hs,
      hs.event_eq (by simp only [State.heldStoreFailed, hnone]) hs⟩

/-! ## The credential table's stores outside a hold field -/

theorem heldStore_of_no_staging {s : State} (h : ∀ p, s.cred.busy ≠ some (.stage p)) :
    heldStore s ≠ some .credential := fun hheld => by
  obtain ⟨p, hp⟩ := (storeRuns_of_held hheld).credential.1
  exact h p hp

/-- The table in force and in storage after its destruction was made, and the KEY_GONE store asked for (R98, R149). -/
def State.destructionMade (s : State) : State := { s with
  cred := { s.cred with
    slots := Vector.replicate 4 {}, liveStamp := 0, pendingSlot := none, roundEntry := none
    roundChange := none, busy := none }
  nv := { s.nv with slots := Vector.replicate 4 {}, liveStamp := 0, pendingSlot := none }
  wipe := if s.wipe.busy = none ∧ s.wipe.again = none then
      { s.wipe with busy := some { s.wipe.journal with phase := .keyGone } }
    else { s.wipe with waiting := some { s.wipe.journal with phase := .keyGone } } }

theorem State.credEndMade_destroy {s : State} (hbusy : s.cred.busy = some .destroy) (hwait : s.cred.waiting = [])
    (hordered : s.wipe.journal.phase = .ordered) (hstrap : s.grd.state ≠ .strapFault) :
    s.credEndMade = s.destructionMade := by
  have hmay : s.mayStore = true := bne_iff_ne.2 hstrap
  have hmade : s.credMade = { s with
      cred := { s.cred with
        slots := Vector.replicate 4 {}, liveStamp := 0, pendingSlot := none, roundEntry := none
        roundChange := none, busy := none }
      nv := { s.nv with slots := Vector.replicate 4 {}, liveStamp := 0, pendingSlot := none } } := by
    simp [State.credMade, hbusy, State.nextCred, hwait, CredJob.stored, CredJob.inForce, Credentials.destroyed]
  simp only [State.credEndMade, hmade, hbusy, hordered]
  by_cases hidle : s.wipe.busy = none ∧ s.wipe.again = none
  · simp [State.askJournal, State.mayStore, hstrap, State.destructionMade, hidle]
  · simp [State.askJournal, State.mayStore, hstrap, State.destructionMade, hidle]

theorem exec_destruction_made {s : State} {c : Instr} (hs : Settled s)
    (hcmd : c = .tableDestructionMade ∨ c = .credentialStoreEnded true) (hbusy : s.cred.busy = some .destroy)
    (hwait : s.cred.waiting = []) (hordered : s.wipe.journal.phase = .ordered) (hstrap : s.grd.state ≠ .strapFault) :
    exec c s = .next s.destructionMade.settle := by
  have hmade := State.credEndMade_destroy hbusy hwait hordered hstrap
  rcases hcmd with rfl | rfl
  · show execTableDestructionMade s = _
    exact event_of_effect hs.notices ((if_pos hbusy).trans hmade)
  · have hheld : heldStore s ≠ some .credential := heldStore_of_no_staging (by simp [hbusy])
    show execCredentialStoreEnded true s = _
    exact event_of_effect hs.notices ((if_neg hheld).trans ((if_pos rfl).trans hmade))

section CredentialStore

variable {s : State} {p : PendingChange} (hheld : heldStore s ≠ some .credential) (hwait : s.cred.waiting = [])
include hheld

theorem exec_credentialStoreEnded (made : Bool) :
    exec (.credentialStoreEnded made) s = .next
      (if made then ({ s with notices := [] } : State).credEndMade
        else ({ s with notices := [] } : State).credFailed).settle := by
  have hheld' : heldStore ({ s with notices := [] } : State) ≠ some .credential := hheld
  exact congrArg (fun u : State => Host.Outcome.next u.settle) (if_neg hheld')

include hwait

theorem credentialStoreEnded_promoted (hbusy : s.cred.busy = some (.promote p)) :
    ∃ t, exec (.credentialStoreEnded true) s = .next t ∧ t.cred = { s.cred with busy := none }
      ∧ t.nv = { s.nv with
          slots := s.nv.slots.set p.target.val ⟨p.contents, p.stamp⟩, liveStamp := p.stamp, pendingSlot := none } := by
  have hother : (some (CredJob.promote p) == some CredJob.destroy) = false := by
    rw [beq_eq_false_iff_ne]
    nofun
  have hmade : ({ s with notices := [] } : State).credEndMade = { s with
      notices := []
      cred := { s.cred with busy := none }
      nv := CredJob.stored (.promote p) s.nv } := by
    simp [State.credEndMade, State.credMade, hbusy, hother, State.nextCred, hwait, CredJob.inForce]
  rw [exec_credentialStoreEnded hheld, if_pos rfl, hmade]
  exact ⟨_, rfl, (State.settle_calm (.inl rfl)).cred, by simp [CredJob.stored, setSlot]⟩

theorem credentialStoreEnded_promotion_failed (hstrap : s.grd.state ≠ .strapFault)
    (hbusy : s.cred.busy = some (.promote p)) :
    ∃ t, exec (.credentialStoreEnded false) s = .next t ∧ t.cred = s.cred ∧ t.nv = s.nv
      ∧ t.stat.flags.has .storeFail = true := by
  have hmay : ({ s with notices := [] } : State).storeFail.mayStore = true := bne_iff_ne.2 hstrap
  have hfailed : ({ s with notices := [] } : State).credFailed = ({ s with notices := [] } : State).storeFail := by
    simp only [State.credFailed, hbusy, State.setFlag_storeFail, hmay]
    simp [State.storeFail, hwait]
  rw [exec_credentialStoreEnded hheld, if_neg Bool.false_ne_true, hfailed]
  exact ⟨_, rfl, (State.settle_calm (.inr rfl)).cred, by simp [State.storeFail],
    by simpa using State.storeFail_has _⟩

theorem credentialStoreEnded_staged (hbusy : s.cred.busy = some (.stage p)) :
    ∃ t, exec (.credentialStoreEnded true) s = .next t
      ∧ t.cred = { s.cred with busy := none, pendingSlot := some { p with stored := true } }
      ∧ t.nv = { s.nv with pendingSlot := some { p with stored := true } } := by
  have hmade : ({ s with notices := [] } : State).credEndMade = { s with
      notices := []
      nv := { s.nv with pendingSlot := some { p with stored := true } }
      cred := { s.cred with busy := none, pendingSlot := some { p with stored := true } } } := by
    rw [State.credEndMade_stage (s := { s with notices := [] }) hbusy]
    simp [State.nextCred, hwait]
  rw [exec_credentialStoreEnded hheld, if_pos rfl, hmade]
  exact ⟨_, rfl, (State.settle_calm (.inl rfl)).cred, by simp⟩

theorem credentialStoreEnded_staging_failed (hbusy : s.cred.busy = some (.stage p)) :
    ∃ t, exec (.credentialStoreEnded false) s = .next t
      ∧ t.cred = { s.cred with busy := none, pendingSlot := none } ∧ t.nv = s.nv
      ∧ t.stat.flags.has .storeFail = true := by
  have hfailed : ({ s with notices := [] } : State).credFailed = { ({ s with notices := [] } : State).storeFail with
      cred := { s.cred with busy := none, pendingSlot := none } } := by
    rw [State.credFailed_stage (s := { s with notices := [] }) hbusy]
    simp [State.nextCred, State.storeFail, hwait]
  rw [exec_credentialStoreEnded hheld, if_neg Bool.false_ne_true, hfailed]
  exact ⟨_, rfl, (State.settle_calm (.inr rfl)).cred, by simp [State.storeFail],
    by simpa using State.storeFail_has _⟩

end CredentialStore

/-- Settles O55: a failed journal store is begun again, a destruction made is reported to the wipe engine, and the
credential table's stores end by their kind. -/
theorem journalAndCredentialStoresEnd : Obligations.JournalAndCredentialStoresEnd := by
  unfold Obligations.JournalAndCredentialStoresEnd
  refine ⟨fun s j hs hheld hbusy hstrap => ?failed, fun s c hs hcmd hbusy hwait hordered hstrap => ?destroyed,
    fun s p hheld hwait hstrap => ⟨fun hbusy => ?promotion, fun hbusy => ?staging⟩⟩
  case failed =>
    obtain ⟨t, hc, hflag, hnv, hwipe⟩ := exec_journalStoreFailed hs hheld hbusy hstrap
    refine ⟨t, hc, hflag, hnv, fun w hnone hwait => ?_, fun hown => ?_⟩
    · rw [hwipe]
      simp [State.wipeAfterFailure, hnone, hwait]
    · have hrepeat := repeatsNow_iff hbusy
      rw [hwipe, State.wipeAfterFailure]
      split
      · next w hwait hnone => exact absurd hown (by simp [hwait, hnone])
      · simp only [hrepeat]
  case destroyed =>
    rw [exec_destruction_made hs hcmd hbusy hwait hordered hstrap,
      State.settle_eq_dormantIfQuiet (s := s.destructionMade) hs.notices hs.decided hs.granted]
    exact ⟨_, rfl, by simp [State.destructionMade]⟩
  case promotion =>
    exact ⟨credentialStoreEnded_promoted hheld hwait hbusy,
      credentialStoreEnded_promotion_failed hheld hwait hstrap hbusy⟩
  case staging =>
    exact ⟨credentialStoreEnded_staged hheld hwait hbusy, credentialStoreEnded_staging_failed hheld hwait hbusy⟩

end Sys2Proof.Machine

end


section
/-! PROOF. A bus-power fall and a bus-power rise (R12, R13, R136, R150, R153, R159, R161, R163). -/

namespace Sys2Proof.Machine

/-! ## An empty slot of the gate -/

/-- Nothing is presented, and the bridge has been told this much. -/
structure SlotEmpty (told : List BridgeReply) (s : State) : Prop where
  presented : s.gate.presented = none
  told : s.toBridge = told

namespace SlotEmpty

variable {told : List BridgeReply} {s : State}

theorem regate (h : SlotEmpty told s) : SlotEmpty told s.regate := by
  rwa [s.regate_none h.presented]

theorem setGuard (h : SlotEmpty told s) (g : GuardState) : SlotEmpty told (s.setGuard g) := by
  refine ⟨State.setGuard_presented_none h.presented g, ?_⟩
  by_cases hg : s.grd.state = g
  · rw [State.setGuard_self hg, h.told]
  · rw [State.setGuard_of_ne hg]
    dsimp only
    rw [State.regate_none _ (by simp [h.presented])]
    repeat' split
    all_goals simp [h.told]

theorem endClosing (h : SlotEmpty told s) : SlotEmpty told s.endClosing := by
  refine SlotEmpty.setGuard ?_ _
  exact ⟨h.presented, h.told⟩

theorem drained (h : SlotEmpty told s) : SlotEmpty told s.drained := by
  unfold State.drained
  split
  · exact h.endClosing
  · exact h

theorem lockLocally (h : SlotEmpty told s) : SlotEmpty told s.lockLocally := by
  unfold State.lockLocally
  dsimp only
  split
  · have hclosing : SlotEmpty told
        (({ s with grd := { s.grd with batteryTimer := none } } : State).setGuard .closing) := by
      refine SlotEmpty.setGuard ?_ _
      exact ⟨h.presented, h.told⟩
    split
    · exact hclosing.drained
    · exact hclosing
  · exact h

theorem holdRequest (h : SlotEmpty told s) (n : Nat) : SlotEmpty told (s.holdRequest n) := by
  rcases s.holdRequest_cases n with hr | ⟨tal, due, -, -, hr | ⟨-, hr⟩⟩ <;> rw [hr]
  · exact h
  · exact ⟨h.presented, h.told⟩
  · refine SlotEmpty.setGuard ?_ _
    exact ⟨h.presented, h.told⟩

theorem grantPort (h : SlotEmpty told s) : SlotEmpty told s.grantPort := by
  rcases s.grantPort_cases with hg | ⟨-, e, -, hg⟩ | ⟨r, -, -, -, hg⟩ <;> rw [hg]
  · exact h
  · exact ⟨h.presented, h.told⟩
  · exact ⟨rfl, h.told⟩

theorem settle (h : SlotEmpty told s) : SlotEmpty told s.settle := by
  have hdrain : SlotEmpty told s.drain := by
    refine s.drain_keeps_all (SlotEmpty told) ?_ ?_ ?_ ?_ ?_ ?_ h
    · exact fun u l h => ⟨h.presented, h.told⟩
    · exact fun u n h => h.holdRequest n
    · exact fun u h => h.lockLocally
    · exact fun u k a h => ⟨by simpa using h.presented, by simpa using h.told⟩
    · exact fun u n h => ⟨h.presented, h.told⟩
    · exact fun u p _ h => ⟨h.presented, h.told⟩
  have hgranted := hdrain.regate.grantPort
  exact ⟨by simpa [State.settle] using hgranted.presented, by simpa [State.settle] using hgranted.told⟩

end SlotEmpty

/-! ## A closed station that takes trigger actions -/

/-- Between states that hold no station awake a change of guard state is nothing to the supply controller (R161). -/
theorem State.setGuard_sup {s : State} {g : GuardState} (h : s.grd.state.holding = false) (hg : g.holding = false) :
    (s.setGuard g).sup = s.sup := by
  by_cases hsame : s.grd.state = g
  · rw [State.setGuard_self hsame]
  · rw [State.setGuard_of_ne hsame]
    simp [h, hg]

/-- Trigger actions at a closed station are nothing to the supply controller (R161). -/
theorem State.drain_closed_sup {s : State} (h : ¬(s.grd.state = .opened ∨ s.grd.state = .admin)) :
    s.drain.sup = s.sup := by
  have hkept : ¬(s.drain.grd.state = .opened ∨ s.drain.grd.state = .admin) ∧ s.drain.sup = s.sup := by
    refine s.drain_keeps_all (fun u => ¬(u.grd.state = .opened ∨ u.grd.state = .admin) ∧ u.sup = s.sup)
      ?_ ?_ ?_ ?_ ?_ ?_ ⟨h, rfl⟩
    · exact fun u l h => h
    · rintro u n ⟨hclosed, hsup⟩
      rcases u.holdRequest_cases n with hr | ⟨tal, due, -, -, hr | ⟨hlocked, hr⟩⟩ <;> rw [hr]
      · exact ⟨hclosed, hsup⟩
      · exact ⟨hclosed, hsup⟩
      · rw [State.setGuard_sup (by simp [hlocked, GuardState.holding]) rfl]
        exact ⟨by simp, hsup⟩
    · rintro u ⟨hclosed, hsup⟩
      rw [u.lockLocally_of_closed hclosed]
      exact ⟨hclosed, hsup⟩
    · rintro u k a ⟨hclosed, hsup⟩
      exact ⟨by simpa using hclosed, by simpa using hsup⟩
    · exact fun u n h => h
    · exact fun u p _ h => h
  exact hkept.2

/-! ## The fall of bus power -/

/-- What the fall takes from the gate and the wipe engine, and the flag it sets where it takes an access (R136, R153). -/
def State.fallTaken (s : State) : State :=
  let s := { s with sup := { s.sup with state := .battery } }
  let lost := s.gate.outstanding ≠ []
  let s := ({ s with gate := { s.gate with outstanding := [], portReady := false } }).abandonErase
  let s := if lost then s.setFlag .abandoned else s
  s.regate

theorem State.busFall_eq (s : State) :
    s.busFall = ((s.fallTaken.drained.lockLocally).note .busFall).activityEvent := rfl

/-- The gate is empty of everything a fall of bus power abandons (R136, R138). -/
structure GateAbandoned (s : State) : Prop where
  outstanding : s.gate.outstanding = []
  ready : s.gate.portReady = false
  erase : s.gate.eraseWaiting = none
  yielded : s.gate.yieldCount = 0

/-- What a fall of bus power has done before the guard controller takes it. -/
structure FallTaken (s u : State) : Prop where
  gate : GateAbandoned u
  slot : SlotEmpty (s.toBridge ++ (match s.gate.presented with | some r => [.refusal r .noPower] | none => [])) u
  wipe : u.wipe = { s.wipe with erase := .absent }
  flags : u.stat.flags = s.stat.flags ||| (if s.gate.outstanding = [] then 0 else Flag.abandoned.mask)
  grd : u.grd = s.grd
  cred : u.cred = s.cred
  sup : u.sup = { s.sup with state := .battery }

/-- Without bus power a presented request is refused NO_POWER (R132). -/
theorem State.regate_noPower {s : State} (h : s.sup.state ≠ .bus) :
    s.regate = { s with
      toBridge := s.toBridge ++ (match s.gate.presented with | some r => [.refusal r .noPower] | none => [])
      gate := { s.gate with presented := none } } := by
  cases hp : s.gate.presented with
  | none =>
    have hsame : ({ s.gate with presented := none } : Gate) = s.gate := by rw [← hp]
    rw [s.regate_none hp]
    simp [hsame]
  | some r =>
    have hrefuse : gateDecision s r = .refuse .noPower := if_pos h
    simp [State.regate, hp, hrefuse]

theorem State.fallTaken_spec (s : State) : FallTaken s s.fallTaken := by
  by_cases hlost : s.gate.outstanding = []
  · simp only [State.fallTaken, hlost, ne_eq, not_true, if_false]
    rw [State.regate_noPower (by simp [State.abandonErase])]
    refine ⟨⟨rfl, rfl, rfl, rfl⟩, ⟨rfl, rfl⟩, rfl, ?_, rfl, rfl, rfl⟩
    simp [State.abandonErase, hlost]
  · simp only [State.fallTaken, hlost, ne_eq, not_false_eq_true, if_true]
    rw [State.regate_noPower (by simp [State.abandonErase])]
    refine ⟨⟨?_, ?_, ?_, ?_⟩, ⟨?_, ?_⟩, ?_, ?_, ?_, ?_, ?_⟩ <;> simp [State.abandonErase, State.dropErase, hlost]

/-- The guard controller's part of the fall: an open station ends LOCKED or HELD without its key, another stays (R12,
R15). -/
structure FallLocked (s u : State) : Prop where
  closed : ¬(u.grd.state = .opened ∨ u.grd.state = .admin)
  locks : s.grd.state = .opened ∨ s.grd.state = .admin ∨ s.grd.state = .closing →
    (u.grd.state = .locked ∨ u.grd.state = .held) ∧ u.cred.plainKey = none ∧ u.grd.matched = none
      ∧ u.grd.mustChange = false
  stays : ¬(s.grd.state = .opened ∨ s.grd.state = .admin ∨ s.grd.state = .closing) → u = s

theorem State.endClosing_locks (s : State) :
    (s.endClosing.grd.state = .locked ∨ s.endClosing.grd.state = .held) ∧ s.endClosing.cred.plainKey = none
      ∧ s.endClosing.grd.matched = none ∧ s.endClosing.grd.mustChange = false := by
  refine ⟨?_, ?_, ?_, ?_⟩
  · rw [s.endClosing_state]
    split <;> simp
  all_goals simp [State.endClosing]

theorem State.fallLocked_spec {s : State} (ho : s.gate.outstanding = []) : FallLocked s s.drained.lockLocally := by
  by_cases hclosing : s.grd.state = .closing
  · have hdrained : s.drained = s.endClosing := if_pos hclosing
    obtain ⟨hstate, hrest⟩ := s.endClosing_locks
    have hclosed : ¬(s.endClosing.grd.state = .opened ∨ s.endClosing.grd.state = .admin) := by
      rcases hstate with h | h <;> simp [h]
    rw [hdrained, State.lockLocally_of_closed _ hclosed]
    exact ⟨hclosed, fun _ => ⟨hstate, hrest⟩, fun h => absurd (.inr (.inr hclosing)) h⟩
  · rw [State.drained_of_not_closing hclosing]
    by_cases hopen : s.grd.state = .opened ∨ s.grd.state = .admin
    · let u := (({ s with grd := { s.grd with batteryTimer := none } } : State).setGuard .closing)
      have hlock : s.lockLocally = u.endClosing := by
        have houtstanding : u.gate.outstanding = [] := by simp [u, ho]
        have hstate : u.grd.state = .closing := by simp [u]
        exact (if_pos hopen).trans ((if_pos houtstanding).trans (if_pos hstate))
      obtain ⟨hstate, hrest⟩ := u.endClosing_locks
      rw [hlock]
      refine ⟨by rcases hstate with h | h <;> simp [h], fun _ => ⟨hstate, hrest⟩, fun h => ?_⟩
      exact absurd (hopen.imp_right .inl) h
    · rw [State.lockLocally_of_closed _ hopen]
      refine ⟨hopen, fun h => ?_, fun _ => rfl⟩
      rcases h with h | h | h
      · exact absurd (.inl h) hopen
      · exact absurd (.inr h) hopen
      · exact absurd h hclosing

/-- The sense lines after the cause of a fall of bus power (R159). -/
def fallPins (cause : FallCause) (p : Pins) : Pins :=
  match cause with
  | .senseLost => { p with busSense := false }
  | .warning => { p with pfw := true }

theorem fallPins_busPresent (cause : FallCause) (p : Pins) : (fallPins cause p).busPresent = false := by
  cases cause <;> simp [fallPins, Pins.busPresent]

theorem exec_busPowerFall {s : State} (h : s.sup.state = .bus) (cause : FallCause) :
    exec (.busPowerFall cause) s
      = .next ({ s with notices := [], pins := fallPins cause s.pins } : State).busFall.settle := by
  have hfall : (({ s with notices := [], pins := fallPins cause s.pins } : State).takesSupply
      && s.sup.state == .bus && !(fallPins cause s.pins).busPresent) = true := by
    simp [State.takesSupply, h, fallPins_busPresent]
  exact congrArg (fun u : State => Host.Outcome.next u.settle) (if_pos hfall)

/-- An activity event leaves a DORMANT station DORMANT, and no other (R161; log 58). -/
theorem State.activityEvent_dormant (s : State) :
    s.activityEvent.sup.activity = .dormant ↔ s.sup.activity = .dormant := by
  unfold State.activityEvent
  split
  · next h =>
    have hnot : s.sup.activity ≠ .dormant := by simpa using (Bool.and_eq_true_iff.1 h).2
    simp [hnot]
  · rfl

theorem State.stayAwake_dormant (s : State) : s.stayAwake.sup.activity = .dormant ↔ s.sup.activity = .dormant := by
  cases hact : s.sup.activity <;> simp [State.stayAwake, hact]

/-- A change of guard state wakes no DORMANT station and sends none there. -/
theorem State.setGuard_dormant (s : State) (g : GuardState) :
    (s.setGuard g).sup.activity = .dormant ↔ s.sup.activity = .dormant := by
  by_cases hg : s.grd.state = g
  · rw [State.setGuard_self hg]
  · rw [State.setGuard_of_ne hg]
    dsimp only
    repeat' split
    · exact (State.stayAwake_dormant _).trans (by simp)
    · exact (State.activityEvent_dormant _).trans (by simp)
    · simp

theorem State.fallLocked_dormant (s : State) :
    s.drained.lockLocally.sup.activity = .dormant ↔ s.sup.activity = .dormant := by
  have hend : ∀ u : State, u.endClosing.sup.activity = .dormant ↔ u.sup.activity = .dormant :=
    fun u => by simp only [State.endClosing, State.setGuard_dormant]
  have hdrained : ∀ u : State, u.drained.sup.activity = .dormant ↔ u.sup.activity = .dormant := by
    intro u
    unfold State.drained
    split
    · exact hend u
    · exact Iff.rfl
  unfold State.lockLocally
  dsimp only
  split
  · split
    · rw [hdrained, State.setGuard_dormant]
      exact hdrained s
    · rw [State.setGuard_dormant]
      exact hdrained s
  · exact hdrained s

/-- What stands in the gate at the end of an event without a READY port and without an erase waiting. -/
theorem GateAbandoned.settle {s : State} (h : GateAbandoned s) :
    GateAbandoned s.settle ∧ s.settle.wipe = s.wipe ∧ s.settle.toBank = s.toBank := by
  have hready : s.drain.regate.gate.portReady = false := by simp [h.ready]
  have hgrant : s.drain.regate.grantPort = s.drain.regate := State.grantPort_notReady _ hready
  refine ⟨⟨?_, ?_, ?_, ?_⟩, ?_, ?_⟩ <;> simp [State.settle, hgrant, h.outstanding, h.ready, h.erase, h.yielded]

/-- An awake station does not fall DORMANT in an event. -/
theorem State.settle_sup_of_awake {s : State} (hclosed : ¬(s.grd.state = .opened ∨ s.grd.state = .admin))
    (h : s.sup.activity ≠ .doze) : s.settle.sup = s.sup := by
  have hsup : s.drain.regate.grantPort.sup = s.sup := by simp [State.drain_closed_sup hclosed]
  have hawake : AwakeForCause s.drain.regate.grantPort := fun hq => h (by rw [← hsup]; exact hq.1)
  rw [State.settle, State.dormantIfQuiet_awake _ hawake, hsup]

/-- Where a closed station stands awake and may doze at the end of an event, it did when the triggers began. -/
theorem State.settle_resting {s : State} (hclosed : ¬(s.grd.state = .opened ∨ s.grd.state = .admin))
    (hrest : s.settle.grd.state.holding = false) (hstrap : s.settle.grd.state ≠ .strapFault) :
    s.grd.state.holding = false ∧ s.grd.state ≠ .strapFault := by
  rcases s.settle_triggersMay with h | ⟨h, -⟩ | ⟨h, -⟩
  · exact ⟨h ▸ hrest, h ▸ hstrap⟩
  · exact absurd h hclosed
  · simp [h, GuardState.holding]

/-- What a fall of bus power has done when the triggers take it. -/
structure FallOver (s u v : State) : Prop where
  gate : GateAbandoned v
  slot : SlotEmpty (s.toBridge ++ (match s.gate.presented with | some r => [.refusal r .noPower] | none => [])) v
  wipe : v.wipe = { s.wipe with erase := .absent }
  flags : v.stat.flags = s.stat.flags ||| (if s.gate.outstanding = [] then 0 else Flag.abandoned.mask)
  state : v.sup.state = .battery
  dormant : v.sup.activity = .dormant ↔ s.sup.activity = .dormant
  locked : FallLocked u v
  grd : u.grd = s.grd
  cred : u.cred = s.cred

theorem State.fallOver_spec (s : State) : FallOver s s.fallTaken s.fallTaken.drained.lockLocally := by
  obtain ⟨hgate, hslot, hwipe, hflags, hgrd, hcred, hsup⟩ := s.fallTaken_spec
  refine ⟨⟨?_, ?_, ?_, ?_⟩, hslot.drained.lockLocally, ?_, ?_, ?_, ?_, State.fallLocked_spec hgate.outstanding,
    hgrd, hcred⟩
  · simpa using hgate.outstanding
  · simpa using hgate.ready
  · simpa using hgate.erase
  · simpa using hgate.yielded
  · simpa using hwipe
  · simpa using hflags
  · simp [hsup]
  · rw [State.fallLocked_dormant, hsup]

/-- A station that may doze ends the fall awake, its timer started (R161). -/
theorem State.fall_settle_awake {v : State} (hstate : v.sup.state = .battery) (hact : v.sup.activity ≠ .dormant)
    (hclosed : ¬(v.grd.state = .opened ∨ v.grd.state = .admin))
    (hrest : ((v.note .busFall).activityEvent).settle.grd.state.holding = false)
    (hstrap : ((v.note .busFall).activityEvent).settle.grd.state ≠ .strapFault) :
    ((v.note .busFall).activityEvent).settle.sup = { v.sup with inactivity := .running (v.now + 30000), activity := .awake } := by
  have hclosed' : ¬((v.note .busFall).activityEvent.grd.state = .opened
      ∨ (v.note .busFall).activityEvent.grd.state = .admin) := by simpa using hclosed
  have hkept := State.settle_resting hclosed' hrest hstrap
  have hsup : (v.note .busFall).activityEvent.sup
      = { v.sup with inactivity := .running (v.now + 30000), activity := .awake } := by
    rw [State.activityEvent_eq]
    refine if_pos ⟨hstate, ?_, ?_, hact⟩
    · simpa using hkept.1
    · simpa using hkept.2
  rw [State.settle_sup_of_awake hclosed' (by simp [hsup]), hsup]

/-- Settles O15: the fall takes everything from the gate and the erase, and an open station locks. -/
theorem busPowerFallLocksAndAbandons : Obligations.BusPowerFallLocksAndAbandons := by
  unfold Obligations.BusPowerFallLocksAndAbandons
  intro cause s hbus
  have hover := ({ s with notices := [], pins := fallPins cause s.pins } : State).fallOver_spec
  have hframe := ({ s with notices := [], pins := fallPins cause s.pins } : State).busFall_frame
  rw [exec_busPowerFall hbus]
  rw [State.busFall_eq] at hframe ⊢
  generalize ({ s with notices := [], pins := fallPins cause s.pins } : State).fallTaken = u at *
  generalize u.drained.lockLocally = v at *
  obtain ⟨hgate, hslot, hwipe, hflags, hstate, hdormant, hlocked, hgrd, hcred⟩ := hover
  obtain ⟨-, hnow, -, htoBank, hnv, hpins, -, -, -⟩ := hframe
  have hend : GateAbandoned (v.note .busFall).activityEvent :=
    ⟨by simp [hgate.outstanding], by simp [hgate.ready], by simp [hgate.erase], by simp [hgate.yielded]⟩
  have hempty := SlotEmpty.settle (s := (v.note .busFall).activityEvent)
    ⟨by simpa using hslot.presented, by simpa using hslot.told⟩
  obtain ⟨⟨houtstanding, hready, herase, hyielded⟩, hwipeEnd, hbank⟩ := hend.settle
  have hclosed : ¬((v.note .busFall).activityEvent.grd.state = .opened
      ∨ (v.note .busFall).activityEvent.grd.state = .admin) := by simpa using hlocked.closed
  have hstays := State.settle_closed hclosed
  have hmay := (v.note .busFall).activityEvent.settle_triggersMay
  have hplace : (v.note .busFall).activityEvent.grd = v.grd := by simp
  rw [hplace] at hmay
  refine ⟨_, rfl, by simpa using hstate, ?pins, hempty.presented, houtstanding, hready, herase, hyielded, ?_, ?_,
    by simpa using hnv, hbank.trans htoBank, hempty.told, by simpa using hflags, fun hopen => ?locks,
    fun hopen => ?stays, fun hrest hstrap hact => ?awake⟩
  case pins =>
    have hkept : (v.note .busFall).activityEvent.settle.pins = fallPins cause s.pins := by simpa using hpins
    rw [hkept]
    cases cause <;> rfl
  case locks =>
    obtain ⟨hstate, hplain, hmatched, hmust⟩ := hlocked.locks (by rwa [hgrd])
    refine ⟨?_, ?_, ?_, ?_⟩
    · rcases hstate with h | h
      · exact (h ▸ hmay).locked
      · exact .inr (h ▸ hmay).held
    · rw [hstays.cred]; simpa using hplain
    · rw [hstays.matched]; simpa using hmatched
    · rw [hstays.mustChange]; simpa using hmust
  case stays =>
    have hsame := hlocked.stays (by rwa [hgrd])
    refine ⟨?_, ?_⟩
    · have hsameGrd : v.grd = s.grd := (congrArg State.grd hsame).trans hgrd
      rwa [hsameGrd] at hmay
    · rw [hstays.cred]
      simp [hsame, hcred]
  case awake =>
    rw [State.fall_settle_awake hstate (fun h => hact (hdormant.1 h)) hlocked.closed hrest hstrap]
    have hnow' : v.now = s.now := by simpa using hnow
    exact ⟨by rw [hnow'], rfl⟩
  · rw [hwipeEnd]; simp [hwipe]
  · rw [hwipeEnd]; simp [hwipe]

/-! ## The rise of bus power -/

/-- A station on bus power whose batteries and inactivity are no longer timed (R13, R161). -/
structure OnBus (act : Activity) (s : State) : Prop where
  bus : s.sup.state = .bus
  battery : s.grd.batteryTimer = none
  stopped : s.sup.inactivity = .stopped
  activity : s.sup.activity = act

namespace OnBus

variable {act : Activity} {s : State}

theorem not_mayDoze (h : OnBus act s) : s.mayDoze = false := by simp [State.mayDoze, h.bus]

theorem congr {u : State} (h : OnBus act s) (hsup : u.sup = s.sup) (hgrd : u.grd.batteryTimer = s.grd.batteryTimer) :
    OnBus act u :=
  ⟨by rw [hsup, h.bus], by rw [hgrd, h.battery], by rw [hsup, h.stopped], by rw [hsup, h.activity]⟩

theorem stayAwake (h : OnBus act s) (hact : act ≠ .doze) : OnBus act s.stayAwake :=
  ⟨h.bus, h.battery, rfl, by simp [State.stayAwake, h.activity, hact]⟩

theorem activityEvent (h : OnBus act s) : OnBus act s.activityEvent := by
  have hsame : s.activityEvent = s := by simp [State.activityEvent, h.not_mayDoze]
  rwa [hsame]

theorem setGuard (h : OnBus act s) (hact : act ≠ .doze) (g : GuardState) : OnBus act (s.setGuard g) := by
  by_cases hg : s.grd.state = g
  · rwa [State.setGuard_self hg]
  · have hset : ∀ u : State, u.sup = s.sup → u.grd.batteryTimer = s.grd.batteryTimer → OnBus act u :=
      fun u => h.congr
    rw [State.setGuard_of_ne hg]
    dsimp only
    repeat' split
    · exact (OnBus.stayAwake (hset _ (by simp) (by simp)) hact).congr rfl rfl
    · exact (OnBus.activityEvent (hset _ (by simp) (by simp))).congr rfl rfl
    · exact hset _ (by simp) (by simp)

theorem lockLocally (h : OnBus act s) (hact : act ≠ .doze) : OnBus act s.lockLocally := by
  have hend : ∀ u, OnBus act u → OnBus act u.drained := by
    intro u hu
    unfold State.drained State.endClosing
    split
    · dsimp only
      refine OnBus.setGuard ?_ hact _
      exact hu.congr rfl rfl
    · exact hu
  unfold State.lockLocally
  dsimp only
  split
  · have hclosing := OnBus.setGuard (s := { s with grd := { s.grd with batteryTimer := none } })
      (h.congr rfl h.battery.symm) hact .closing
    split
    · exact hend _ hclosing
    · exact hclosing
  · exact h

theorem settle (h : OnBus act s) (hact : act ≠ .doze) : OnBus act s.settle := by
  have hdrain : OnBus act s.drain := by
    refine s.drain_keeps_all (OnBus act) ?_ ?_ ?_ ?_ ?_ ?_ h
    · exact fun u l h => h.congr rfl rfl
    · intro u n h
      rcases u.holdRequest_cases n with hr | ⟨tal, due, -, -, hr | ⟨-, hr⟩⟩ <;> rw [hr]
      · exact h
      · exact h.congr rfl rfl
      · refine OnBus.setGuard ?_ hact _
        exact h.congr rfl rfl
    · exact fun u h => h.lockLocally hact
    · exact fun u k a h => h.congr (by simp) (by simp)
    · exact fun u n h => h.congr rfl rfl
    · exact fun u p _ h => h.congr rfl rfl
  have hgranted : OnBus act s.drain.regate.grantPort := hdrain.congr (by simp) (by simp)
  have hawake : AwakeForCause s.drain.regate.grantPort := fun hq => hact (hgranted.activity.symm.trans hq.1)
  rwa [State.settle, State.dormantIfQuiet_awake _ hawake]

end OnBus

/-- What the rise does to the gate and the wipe engine: the presented request is decided, and the pass goes on (R13, R150,
R153). -/
def State.riseStepped (s : State) : State :=
  ({ s with
    sup := { s.sup with state := .bus }
    grd := { s.grd with batteryTimer := none } } : State).regate.engineStep

theorem State.busRise_eq (s : State) :
    s.busRise = (let u := s.riseStepped.stayAwake
      if u.sup.activity = .dormant ∧ u.sup.warmup = none then
        { u with sup := { u.sup with warmup := some (u.now + Config.warmup) } }
      else u).note .busRise := rfl

/-- The sense lines after the cause of a rise of bus power (R159). -/
def risePins (cause : RiseCause) (p : Pins) : Pins :=
  match cause with
  | .senseAppeared => { p with busSense := true }
  | .warningReleased => { p with pfw := false }

/-- The cause of a rise leaves bus power present (R159). -/
def RiseBrings (cause : RiseCause) (p : Pins) : Prop :=
  match cause with
  | .senseAppeared => p.pfw = false
  | .warningReleased => p.busSense = true

theorem risePins_eq {cause : RiseCause} {p : Pins} (h : RiseBrings cause p) :
    risePins cause p = { p with busSense := true, pfw := false } := by
  cases cause <;> simp only [RiseBrings] at h <;> simp [risePins, ← h]

theorem exec_busPowerRise {s : State} {cause : RiseCause} (h : s.sup.state = .battery) (hp : RiseBrings cause s.pins) :
    exec (.busPowerRise cause) s
      = .next ({ s with notices := [], pins := { s.pins with busSense := true, pfw := false } } : State).busRise.settle := by
  have hpresent : (risePins cause s.pins).busPresent = true := by simp [risePins_eq hp, Pins.busPresent]
  have hrise : (({ s with notices := [], pins := risePins cause s.pins } : State).takesSupply
      && s.sup.state == .battery && (risePins cause s.pins).busPresent) = true := by
    simp [State.takesSupply, h, hpresent]
  rw [← risePins_eq hp]
  exact congrArg (fun u : State => Host.Outcome.next u.settle) (if_pos hrise)

/-- What a rise of bus power leaves to the triggers: the station is on bus power, DOZE has ended, and a DORMANT one warms up
(R13, R161, R163). -/
structure RiseOver (s v : State) : Prop where
  onBus : OnBus (if s.sup.activity = .doze then .awake else s.sup.activity) v
  warmup : v.sup.warmup
    = if s.sup.activity = .dormant ∧ s.sup.warmup = none then some (s.now + 20) else s.sup.warmup
  state : v.grd.state = s.grd.state
  wipe : v.wipe = s.riseStepped.wipe
  erase : v.gate.eraseWaiting = s.riseStepped.gate.eraseWaiting

theorem State.riseOver_spec (s : State) : RiseOver s s.busRise := by
  have hsup : s.riseStepped.sup = { s.sup with state := .bus } := by simp [State.riseStepped]
  have hgrd : s.riseStepped.grd = { s.grd with batteryTimer := none } := by simp [State.riseStepped]
  have hnow : s.riseStepped.now = s.now := by simp [State.riseStepped]
  have hact : (if s.sup.activity = .doze then Activity.awake else s.sup.activity) = .dormant
      ↔ s.sup.activity = .dormant := by
    cases s.sup.activity <;> decide
  rw [State.busRise_eq]
  simp only [State.stayAwake, hsup, hact]
  split
  · next hcold =>
    exact ⟨⟨rfl, by simp [hgrd], rfl, rfl⟩, by rw [if_pos hcold, ← hnow]; rfl, by simp [hgrd], rfl, rfl⟩
  · next hwarm => exact ⟨⟨rfl, by simp [hgrd], rfl, rfl⟩, by rw [if_neg hwarm]; rfl, by simp [hgrd], rfl, rfl⟩

/-- KEY_GONE in force begins the store of PASSING when power returns (R150, R153). -/
theorem State.riseStepped_keyGone {s : State} (hwiping : s.grd.state = .wiping) (hbusy : s.wipe.busy = none)
    (hagain : s.wipe.again = none) (hphase : s.wipe.journal.phase = .keyGone) :
    s.riseStepped.wipe.busy = some { s.wipe.journal with phase := .passing } := by
  simp [State.riseStepped, State.engineStep, hwiping, hbusy, hagain, hphase, State.askJournal, State.mayStore]

/-- The wipe engine of a station in WIPING as bus power returns. -/
theorem EngineIdle.of_rise {s : State} (hwiping : s.grd.state = .wiping) (hbusy : s.wipe.busy = none)
    (hagain : s.wipe.again = none) (herase : s.wipe.erase = .absent) (hgate : s.gate.eraseWaiting = none) :
    EngineIdle (({ s with
      sup := { s.sup with state := .bus }
      grd := { s.grd with batteryTimer := none } } : State).regate) :=
  ⟨by simpa using hwiping, by simp, by simpa using hbusy, by simpa using hagain, by simpa using herase,
    by simpa using hgate⟩

/-- Settles O16: the rise ends DOZE and both timers, warms up a dormant station, and takes the pass's next step. -/
theorem busPowerRiseWakesAndResumes : Obligations.BusPowerRiseWakesAndResumes := by
  unfold Obligations.BusPowerRiseWakesAndResumes
  intro cause s hbattery hbrings
  rw [exec_busPowerRise hbattery hbrings]
  obtain ⟨honBus, hwarm, hstate, hwipe, herase⟩ :=
    ({ s with notices := [], pins := { s.pins with busSense := true, pfw := false } } : State).riseOver_spec
  have hact : (if s.sup.activity = .doze then Activity.awake else s.sup.activity) ≠ .doze := by
    cases s.sup.activity <;> decide
  obtain ⟨hbus, hbatteryEnd, hstopped, hactivity⟩ := honBus.settle hact
  have hmay := State.settle_triggersMay
    ({ s with notices := [], pins := { s.pins with busSense := true, pfw := false } } : State).busRise
  rw [hstate] at hmay
  refine ⟨_, rfl, hbus, by simp, hbatteryEnd, hmay, hstopped, hactivity, by simpa using hwarm, by simp, by simp, by simp,
    by simp, fun hwiping hbusy hagain => ⟨fun hphase => ?keyGone, fun hphase hnoErase hnoGate => ?passing⟩⟩
  case keyGone =>
    have hbegun := State.riseStepped_keyGone (s := { s with
      notices := [], pins := { s.pins with busSense := true, pfw := false } }) hwiping hbusy hagain hphase
    rw [← hwipe] at hbegun
    simpa using hbegun
  case passing =>
    have hidle := EngineIdle.of_rise (s := { s with
      notices := [], pins := { s.pins with busSense := true, pfw := false } }) hwiping hbusy hagain hnoErase hnoGate
    have hstep := hidle.step_passing (by simpa using hphase)
    obtain ⟨past, erases, skips⟩ := hidle.passStep (hwipe.trans (congrArg State.wipe hstep))
      (herase.trans (congrArg (·.gate.eraseWaiting) hstep)) (by simp)
    exact ⟨by simpa using past, by simpa [EraseAsked] using erases, by simpa using skips⟩

end Sys2Proof.Machine

end


section
/-! PROOF. The end of LOADING: the records that come into force and the store-backs it begins (R79, R80, R98, R110, R113,
R116, R129, R141, R142, R149, R166, R167; logs 60, 62, 63). -/

namespace Sys2Proof.Machine

/-! ## The credential table and its store-backs -/

theorem setSlots_get (l : List CodeSlotNo) (v : Vector CodeSlot 4) (i : CodeSlotNo) :
    (l.foldl (fun v i => setSlot v i {}) v).get i = if i ∈ l then {} else v.get i := by
  induction l generalizing v with
  | nil => simp
  | cons x l ih =>
    have hset : (setSlot v x {}).get i = if i = x then {} else v.get i := by
      simp [setSlot, Vector.get_eq_getElem, Vector.getElem_set, Fin.ext_iff, eq_comm]
    rw [List.foldl_cons, ih, hset]
    by_cases hx : i = x <;> by_cases hl : i ∈ l <;> simp [hx, hl]

/-- A credential table as LOADING makes it: what it holds, that the rest of the station stays, and the table stores asked for
in order where none was under way (R79, R80, R166). -/
structure CredLoaded (s u : State) (slots : Vector CodeSlot 4) (stamp : BitVec 16) (pending : Option PendingChange)
    (jobs : List CredJob) : Prop where
  rest : u = { s with cred := u.cred }
  slots : u.cred.slots = slots
  stamp : u.cred.liveStamp = stamp
  pending : u.cred.pendingSlot = pending
  stores : s.grd.state ≠ .strapFault → s.cred.busy = none → s.cred.waiting = [] →
    u.cred.busy = jobs.head? ∧ u.cred.waiting = jobs.tail

/-- A table store that is no staging, asked for, is in progress or waits; nothing else changes (R80). -/
theorem State.askCred_plain {j : CredJob} (hj : j.isStage = false) (s : State) :
    s.askCred j = { s with cred := { s.cred with
      busy := (s.askCred j).cred.busy, waiting := (s.askCred j).cred.waiting } } := by
  have hbegin : s.beginCred j = { s with cred := { s.cred with busy := some j } } := by
    cases j <;> simp [CredJob.isStage] at hj <;> rfl
  unfold State.askCred
  split
  · rfl
  · split
    · rw [hbegin]
    · rfl

theorem State.askCred_stores {j : CredJob} (hj : j.isStage = false) {s : State} (hstrap : s.grd.state ≠ .strapFault)
    {jobs : List CredJob} (hbusy : s.cred.busy = jobs.head?) (hwait : s.cred.waiting = jobs.tail) :
    (s.askCred j).cred.busy = (jobs ++ [j]).head? ∧ (s.askCred j).cred.waiting = (jobs ++ [j]).tail := by
  have hmay : s.mayStore = true := bne_iff_ne.2 hstrap
  have hbegin : s.beginCred j = { s with cred := { s.cred with busy := some j } } := by
    cases j <;> simp [CredJob.isStage] at hj <;> rfl
  cases jobs with
  | nil => simp [State.askCred, hmay, hbegin, hbusy, hwait]
  | cons x l => simp [State.askCred, hmay, hbusy, hwait]

namespace CredLoaded

variable {s u : State} {slots : Vector CodeSlot 4} {stamp : BitVec 16} {pending : Option PendingChange}
  {jobs : List CredJob}

theorem ask (h : CredLoaded s u slots stamp pending jobs) {j : CredJob} (hj : j.isStage = false) :
    CredLoaded s (u.askCred j) slots stamp pending (jobs ++ [j]) := by
  have hplain := State.askCred_plain hj u
  refine ⟨?_, by simpa using h.slots, by simpa using h.stamp, ?_, fun hstrap hbusy hwait => ?_⟩
  · rw [hplain, h.rest]
  · rw [hplain]
    exact h.pending
  · have hgrd : u.grd.state ≠ .strapFault := by rw [h.rest]; exact hstrap
    obtain ⟨hb, hw⟩ := h.stores hstrap hbusy hwait
    exact State.askCred_stores hj hgrd hb hw

theorem askSlots (l : List CodeSlotNo) {u : State} {jobs : List CredJob} (h : CredLoaded s u slots stamp pending jobs) :
    CredLoaded s (l.foldl (fun s i => s.askCred (.slotBack i)) u) slots stamp pending (jobs ++ l.map CredJob.slotBack) := by
  induction l generalizing u jobs with
  | nil => simpa using h
  | cons x l ih => simpa using ih (h.ask (j := .slotBack x) rfl)

theorem withStamp (h : CredLoaded s u slots stamp pending jobs) (v : BitVec 16) :
    CredLoaded s { u with cred := { u.cred with liveStamp := v } } slots v pending jobs :=
  ⟨by rw [h.rest], h.slots, rfl, h.pending, h.stores⟩

theorem withoutPending (h : CredLoaded s u slots stamp pending jobs) :
    CredLoaded s { u with cred := { u.cred with pendingSlot := none } } slots stamp none jobs :=
  ⟨by rw [h.rest], h.slots, h.stamp, rfl, h.stores⟩

end CredLoaded

/-- The slots as loaded, the failed ones empty (R166). -/
def loadedSlots (r : LoadReport) (slots : Vector CodeSlot 4) : Vector CodeSlot 4 :=
  (failedSlots r).foldl (fun v i => setSlot v i {}) slots

/-- The store-backs of the credential table in their order, the header's with its stamp (log 63). -/
def storeBacks (r : LoadReport) (stamp : BitVec 16) : List CredJob :=
  (failedSlots r).map CredJob.slotBack ++ (if r.header then [.headerBack stamp] else [])
    ++ (if r.pendingSlot then [.pendingBack] else [])

theorem State.loadCredentials_spec (s : State) (r : LoadReport) :
    CredLoaded s (s.loadCredentials r) (loadedSlots r s.cred.slots)
      (if r.header then greatestStamp (loadedSlots r s.cred.slots) else s.cred.liveStamp)
      (if r.pendingSlot then none else s.cred.pendingSlot)
      (storeBacks r (if r.header then greatestStamp (loadedSlots r s.cred.slots) else s.cred.liveStamp)) := by
  have hslots : CredLoaded s { s with cred := { s.cred with slots := loadedSlots r s.cred.slots } }
      (loadedSlots r s.cred.slots) s.cred.liveStamp s.cred.pendingSlot [] :=
    ⟨rfl, rfl, rfl, rfl, fun _ hbusy hwait => ⟨hbusy, hwait⟩⟩
  have hasked := CredLoaded.askSlots (failedSlots r) hslots
  rw [List.nil_append] at hasked
  unfold State.loadCredentials storeBacks
  change CredLoaded s (if r.pendingSlot then _ else _) _ _ _ _
  cases r.header <;> cases r.pendingSlot <;> simp only [if_true, if_false, Bool.false_eq_true, List.append_nil]
  · exact hasked
  · exact hasked.withoutPending.ask rfl
  · exact (hasked.withStamp _).ask rfl
  · exact (((hasked.withStamp _).ask rfl).withoutPending).ask rfl

/-! ## The destruction that a journal at ORDERED asks for -/

theorem State.askDestruction_plain (s : State) :
    s.askDestruction = { s with cred := { s.cred with
      busy := s.askDestruction.cred.busy
      waiting := s.askDestruction.cred.waiting
      stagingDropped := s.askDestruction.cred.stagingDropped } } := by
  unfold State.askDestruction
  split
  · rfl
  · rfl
  · have hplain := State.askCred_plain (j := .destroy) rfl s
    rw [hplain]

/-- A destruction begins at once or after the one store begun (R80, R98). -/
theorem State.askDestruction_stores {s : State} (hstrap : s.grd.state ≠ .strapFault) {jobs : List CredJob}
    (hbusy : s.cred.busy = jobs.head?) (hwait : s.cred.waiting = jobs.tail) (hnone : .destroy ∉ jobs) :
    s.askDestruction.cred.busy = some (jobs.head?.getD .destroy)
      ∧ s.askDestruction.cred.waiting = if jobs = [] then [] else [.destroy] := by
  cases jobs with
  | nil =>
    rw [State.askDestruction_begins hstrap hbusy]
    exact ⟨rfl, hwait⟩
  | cons x l =>
    have hx : x ≠ .destroy := fun h => hnone (by simp [h])
    rw [State.askDestruction_waits s (by simp [hbusy]) (by simp [hbusy, hx])]
    simp [hbusy]

theorem destroy_not_mem_storeBacks (r : LoadReport) (stamp : BitVec 16) : CredJob.destroy ∉ storeBacks r stamp := by
  unfold storeBacks
  cases r.header <;> cases r.pendingSlot <;> simp

/-! ## The journal -/

/-- The journal as loaded (R142, R166). -/
def loadedJournal (r : LoadReport) (j : Journal) : Journal :=
  if r.journal then { phase := .ordered, cause := .adopted } else j

/-- What LOADING makes of the wipe engine and the table when it comes to the journal (R142, R149). -/
structure JournalLoaded (s u : State) (r : LoadReport) : Prop where
  rest : u = { s with cred := u.cred, wipe := u.wipe }
  journal : u.wipe.journal = loadedJournal r s.wipe.journal
  busy : s.grd.state ≠ .strapFault → s.wipe.busy = none → s.wipe.again = none →
    u.wipe.busy = if r.journal then some { phase := .ordered, cause := .adopted } else none
  ordered : (loadedJournal r s.wipe.journal).phase = .ordered → u.cred = s.askDestruction.cred
  other : (loadedJournal r s.wipe.journal).phase ≠ .ordered → u.cred = s.cred

theorem State.askJournal_plain (s : State) (j : Journal) :
    s.askJournal j = { s with wipe := (s.askJournal j).wipe } := by
  unfold State.askJournal
  repeat' split
  all_goals rfl

/-- Asking for a destruction is nothing to the wipe engine. -/
theorem State.askDestruction_withWipe (s : State) (w : Wipe) :
    ({ s with wipe := w } : State).askDestruction = { s.askDestruction with wipe := w } := by
  have hmay : ({ s with wipe := w } : State).mayStore = s.mayStore := rfl
  unfold State.askDestruction State.askCred
  cases hbusy : s.cred.busy with
  | none =>
    simp only [hmay]
    split <;> rfl
  | some j => cases j <;> rfl

/-- The journal's record put in force and its store-back asked for (R142, R166). -/
def State.journalAdopted (s : State) (r : LoadReport) : State :=
  if r.journal then
    ({ s with wipe := { s.wipe with journal := orderedJournal .adopted } } : State).askJournal (orderedJournal .adopted)
  else s

theorem State.loadJournal_eq (s : State) (r : LoadReport) :
    s.loadJournal r = if (s.journalAdopted r).wipe.journal.phase = .ordered then (s.journalAdopted r).askDestruction
      else s.journalAdopted r := rfl

theorem State.journalAdopted_rest (s : State) (r : LoadReport) :
    s.journalAdopted r = { s with wipe := (s.journalAdopted r).wipe } := by
  unfold State.journalAdopted
  split
  · rw [State.askJournal_plain]
  · rfl

theorem State.journalAdopted_journal (s : State) (r : LoadReport) :
    (s.journalAdopted r).wipe.journal = loadedJournal r s.wipe.journal := by
  unfold State.journalAdopted loadedJournal
  cases r.journal <;> simp [orderedJournal]

theorem State.journalAdopted_busy {s : State} (hstrap : s.grd.state ≠ .strapFault) (hbusy : s.wipe.busy = none)
    (hagain : s.wipe.again = none) (r : LoadReport) :
    (s.journalAdopted r).wipe.busy = if r.journal then some { phase := .ordered, cause := .adopted } else none := by
  unfold State.journalAdopted
  split
  · rw [State.askJournal_begins (s := { s with wipe := { s.wipe with journal := orderedJournal .adopted } })
      hstrap hbusy hagain]
    rfl
  · exact hbusy

theorem State.loadJournal_spec (s : State) (r : LoadReport) : JournalLoaded s (s.loadJournal r) r := by
  have hrest := s.journalAdopted_rest r
  have hjournal := s.journalAdopted_journal r
  rw [State.loadJournal_eq, hjournal]
  split
  · next hordered =>
    have hdestroy : (s.journalAdopted r).askDestruction = { s.askDestruction with wipe := (s.journalAdopted r).wipe } := by
      rw [hrest]
      exact State.askDestruction_withWipe s _
    rw [hdestroy]
    refine ⟨?_, hjournal, fun h h' h'' => State.journalAdopted_busy h h' h'' r, fun _ => rfl,
      fun h => absurd hordered h⟩
    rw [State.askDestruction_plain]
  · next hother =>
    refine ⟨?_, hjournal, fun h h' h'' => State.journalAdopted_busy h h' h'' r, fun h => absurd h hother, fun _ => ?_⟩
    · rw [hrest]
    · rw [hrest]

/-! ## Marks -/

/-- What LOADING makes of the gate's marks: a stored pending mark is emptied (R129, R141, R166). -/
structure MarksLoaded (s u : State) (r : LoadReport) : Prop where
  nv : u.nv = s.nv
  marks : u.gate.fixedMarks = if r.fixedMarks then Vector.replicate 64 .normal else s.gate.fixedMarks
  store : s.grd.state ≠ .strapFault → s.gate.markStore = {} →
    u.gate.markStore = if r.fixedMarks then { busy := some ⟨Vector.replicate 64 .normal, false⟩ } else {}
  busy : s.grd.state ≠ .strapFault → s.gate.pmBusy = none →
    u.gate.pmBusy = if r.pendingMark = true ∨ s.nv.pendingMark ≠ none then some .empty else none

theorem State.loadMarks_spec (s : State) (r : LoadReport) : MarksLoaded s (s.loadMarks r) r := by
  have hempties : (r.pendingMark || s.nv.pendingMark.isSome) = true ↔ r.pendingMark = true ∨ s.nv.pendingMark ≠ none := by
    rw [Bool.or_eq_true, Option.isSome_iff_ne_none]
  unfold State.loadMarks
  cases hf : r.fixedMarks with
  | false =>
    simp only [Bool.false_eq_true, if_false, hempties]
    refine ⟨?_, ?_, fun hstrap hstore => ?_, fun hstrap hbusy => ?_⟩ <;> split
    · exact State.askPm_empty_nv s
    · rfl
    · simp [hf]
    · simp [hf]
    · simpa [hf] using hstore
    · simpa [hf] using hstore
    · simp [State.askPm, State.mayStore, hstrap, hbusy, State.beginPm]
    · exact hbusy
  | true =>
    have hnv : (s.putMarks (Vector.replicate 64 .normal) false).nv = s.nv := by simp
    simp only [if_true, hnv, hempties]
    refine ⟨?_, ?_, fun hstrap hstore => ?_, fun hstrap hbusy => ?_⟩ <;> split
    · rw [State.askPm_empty_nv, hnv]
    · exact hnv
    · simp [State.putMarks]
    · simp [State.putMarks]
    · simp [State.putMarks, State.mayStore, hstrap, hstore, Store.put]
    · simp [State.putMarks, State.mayStore, hstrap, hstore, Store.put]
    · simp [State.askPm, State.putMarks, State.mayStore, hstrap, hbusy, State.beginPm]
    · simpa using hbusy

/-! ## The end of LOADING -/

theorem exec_loadingEnd {s : State} (hoff : s.sup.state ≠ .off) (hstep : s.sup.step = .loading) (r : LoadReport) :
    exec (.loadingEnd r) s = .next (({ s with notices := [] } : State).loaded r).settle :=
  congrArg (fun u : State => Host.Outcome.next u.settle) (if_pos ⟨hoff, hstep⟩)

/-- The end of LOADING leaves nothing for the end of the event but the gate's part: the queue holds a ROLL. -/
theorem State.loaded_settle {s : State} (hn : s.notices = []) (hstrap : s.grd.state ≠ .strapFault) (r : LoadReport) :
    (s.loaded r).settle = (s.loaded r).regate.grantPort := by
  have hqueue : (s.loaded r).regate.grantPort.eng.queue ≠ [] := by
    simp only [State.grantPort_frame, State.regate_frame, State.loaded]
    simp [State.post, hstrap, queuePost_ne_nil]
  rw [State.settle_quiet _ (by simp [hn]), State.dormantIfQuiet_awake]
  exact fun hq => hqueue hq.2.2.1

section LoadedState

variable (s : State) (r : LoadReport)

theorem State.loaded_sup : (s.loaded r).sup = { s.sup with state := s.pins.supply, step := .done } := by
  simp [State.loaded]

theorem State.loaded_line : (s.loaded r).line = { view := .syncing, idleTimer := some (s.now + 2) } := by
  simp [State.loaded, LineIf.toSyncing, Config.idleGap]

theorem State.loaded_key : (s.loaded r).key = { s.key with states := s.pins.keyLines } := by
  simp [State.loaded]

theorem State.loaded_eng (hstrap : s.grd.state ≠ .strapFault) :
    (s.loaded r).eng = { s.eng with queue := queuePost .roll 0 s.eng.queue, serial := r.serial.getD s.eng.serial } := by
  cases hserial : r.serial <;> simp [State.loaded, State.post, hstrap, State.loadSerial, hserial]

theorem State.loaded_flags : (s.loaded r).stat.flags = loadedFlags s.nv.flags r := by
  simp [State.loaded, State.loadFlags]

theorem State.loaded_flagStore : (s.loaded r).stat.store
    = if LoadReport.anyFailed r then { busy := some (loadedFlags s.nv.flags r) } else {} := by
  simp [State.loaded, State.loadFlags]

theorem State.loaded_tal_eq : (s.loaded r).tal = (s.loadTally r).tal := by
  simp [State.loaded, State.loadTally]

theorem State.loaded_tally : (s.loaded r).tal.tally = if r.tally then 99 else s.tal.tally := by
  rw [s.loaded_tal_eq]
  cases ht : r.tally <;> cases ho : r.holdOwed <;> simp [State.loadTally, ht, ho, Config.tallyMax]

theorem State.loaded_holdOwed : (s.loaded r).tal.holdOwed = if r.holdOwed then 3600 else s.tal.holdOwed := by
  rw [s.loaded_tal_eq]
  cases ht : r.tally <;> cases ho : r.holdOwed <;> simp [State.loadTally, ht, ho, Config.holdMaxSeconds]

theorem State.loaded_pol_eq : (s.loaded r).pol = { s.pol with
    table := if r.policy then PolicyTable.idle else s.pol.table
    store := if r.policy then s.pol.store.put PolicyTable.idle else s.pol.store
    last := lastValues (if r.policy then PolicyTable.idle else s.pol.table) (s.loaded r).tal.tally false
    latch := latchOf (if r.policy then PolicyTable.idle else s.pol.table) (s.loaded r).stat.flags } := by
  cases hp : r.policy <;> simp [State.loaded, State.loadPolicy, State.loadFlags, hp]

/-- The station when LOADING comes to the marks. -/
def State.loadedSoFar (s : State) (r : LoadReport) : State :=
  (((s.loadFlags r).loadCredentials r).loadTally r).loadPolicy r

theorem State.loaded_marks : MarksLoaded (s.loadedSoFar r) ((s.loadedSoFar r).loadMarks r) r :=
  State.loadMarks_spec _ _

theorem State.loaded_gate : (s.loaded r).gate = ((s.loadedSoFar r).loadMarks r).gate := by
  simp [State.loaded, State.loadedSoFar]

theorem State.loaded_cred_wipe : (s.loaded r).cred = (((s.loadedSoFar r).loadMarks r).loadJournal r).cred
    ∧ (s.loaded r).wipe = (((s.loadedSoFar r).loadMarks r).loadJournal r).wipe
    ∧ (s.loaded r).nv = (((s.loadedSoFar r).loadMarks r).loadJournal r).nv := by
  simp [State.loaded, State.loadedSoFar]

theorem State.loadedSoFar_nv : (s.loadedSoFar r).nv = s.nv := by
  have hrest := ((s.loadFlags r).loadCredentials_spec r).rest
  have hnv : ((s.loadFlags r).loadCredentials r).nv = s.nv := by
    rw [hrest]
    simp
  simp [State.loadedSoFar, hnv]

theorem State.loadedSoFar_others : (s.loadedSoFar r).gate = s.gate ∧ (s.loadedSoFar r).wipe = s.wipe
    ∧ (s.loadedSoFar r).grd = s.grd ∧ (s.loadedSoFar r).cred = ((s.loadFlags r).loadCredentials r).cred := by
  simp [State.loadedSoFar]

theorem State.loaded_nv : (s.loaded r).nv = s.nv := by
  rw [(s.loaded_cred_wipe r).2.2, (State.loadJournal_spec _ r).rest]
  simp only [(s.loaded_marks r).nv, s.loadedSoFar_nv r]

theorem State.loaded_fixedMarks : (s.loaded r).gate.fixedMarks
    = if r.fixedMarks then Vector.replicate 64 .normal else s.gate.fixedMarks := by
  rw [s.loaded_gate, (s.loaded_marks r).marks, (s.loadedSoFar_others r).1]

theorem State.loaded_journal : (s.loaded r).wipe.journal = loadedJournal r s.wipe.journal := by
  rw [(s.loaded_cred_wipe r).2.1, (State.loadJournal_spec _ r).journal]
  simp [(s.loadedSoFar_others r).2.1]

/-- The table in force after LOADING: what its loading made of it, but for the stores, to which the destruction that a journal
at ORDERED asks for may be added (R98, R149). -/
theorem State.loaded_cred : (s.loaded r).cred = { ((s.loadFlags r).loadCredentials r).cred with
    busy := (s.loaded r).cred.busy
    waiting := (s.loaded r).cred.waiting
    stagingDropped := (s.loaded r).cred.stagingDropped } := by
  have hjournal := ((s.loadedSoFar r).loadMarks r).loadJournal_spec r
  have hcred : ((s.loadedSoFar r).loadMarks r).cred = ((s.loadFlags r).loadCredentials r).cred := by
    simp [(s.loadedSoFar_others r).2.2.2]
  rw [(s.loaded_cred_wipe r).1]
  by_cases hordered : (loadedJournal r ((s.loadedSoFar r).loadMarks r).wipe.journal).phase = .ordered
  · rw [hjournal.ordered hordered, ← hcred]
    exact congrArg State.cred (State.askDestruction_plain _)
  · rw [hjournal.other hordered, hcred]

theorem State.loaded_slots : (s.loaded r).cred.slots = loadedSlots r s.cred.slots := by
  rw [s.loaded_cred]
  exact (State.loadCredentials_spec _ r).slots.trans (by simp)

theorem State.loaded_liveStamp : (s.loaded r).cred.liveStamp
    = if r.header then greatestStamp (loadedSlots r s.cred.slots) else s.cred.liveStamp := by
  rw [s.loaded_cred]
  exact (State.loadCredentials_spec _ r).stamp.trans (by simp)

theorem State.loaded_pendingSlot : (s.loaded r).cred.pendingSlot
    = if r.pendingSlot then none else s.cred.pendingSlot := by
  rw [s.loaded_cred]
  exact (State.loadCredentials_spec _ r).pending.trans (by simp)

end LoadedState

section NoStoreYet

variable {s : State} (hstrap : s.grd.state ≠ .strapFault) (hidle : NoStoreUnderWay s) (r : LoadReport)
include hstrap hidle

omit hstrap in
theorem State.loaded_tallyStores :
    (s.loaded r).tal.tallyStore = (if r.tally then { busy := some 99 } else {})
      ∧ (s.loaded r).tal.owedStore = (if r.holdOwed then { busy := some 3600 } else {}) := by
  rw [s.loaded_tal_eq]
  cases ht : r.tally <;> cases ho : r.holdOwed <;>
    simp [State.loadTally, ht, ho, hidle.tally, hidle.owed, Store.put, Config.tallyMax, Config.holdMaxSeconds]

omit hstrap in
theorem State.loaded_policyStore :
    (s.loaded r).pol.store = if r.policy then { busy := some PolicyTable.idle } else {} := by
  rw [s.loaded_pol_eq]
  cases hp : r.policy <;> simp [hidle.policy, Store.put]

theorem State.loaded_markStores :
    (s.loaded r).gate.markStore = (if r.fixedMarks then { busy := some ⟨Vector.replicate 64 .normal, false⟩ } else {})
      ∧ (s.loaded r).gate.pmBusy = if r.pendingMark = true ∨ s.nv.pendingMark ≠ none then some .empty else none := by
  obtain ⟨hgate, -, hgrd, -⟩ := s.loadedSoFar_others r
  have hstrap' : (s.loadedSoFar r).grd.state ≠ .strapFault := by rwa [hgrd]
  rw [s.loaded_gate, (s.loaded_marks r).store hstrap' (by rw [hgate]; exact hidle.marks),
    (s.loaded_marks r).busy hstrap' (by rw [hgate]; exact hidle.pendingMark.1), s.loadedSoFar_nv]
  exact ⟨rfl, rfl⟩

theorem State.loaded_journalStore :
    (s.loaded r).wipe.busy = if r.journal then some { phase := .ordered, cause := .adopted } else none := by
  obtain ⟨-, hwipe, hgrd, -⟩ := s.loadedSoFar_others r
  rw [(s.loaded_cred_wipe r).2.1]
  refine (State.loadJournal_spec _ r).busy ?_ ?_ ?_
  · simpa [hgrd] using hstrap
  · simpa [hwipe] using hidle.journal.1
  · simpa [hwipe] using hidle.journal.2

/-- The credential table's stores after LOADING (R80, R98, R149; logs 60 and 63). -/
theorem State.loaded_credStores {jobs : List CredJob}
    (hjobs : jobs = storeBacks r (s.loaded r).cred.liveStamp) :
    ((s.loaded r).wipe.journal.phase ≠ .ordered →
      (s.loaded r).cred.busy = jobs.head? ∧ (s.loaded r).cred.waiting = jobs.tail)
    ∧ ((s.loaded r).wipe.journal.phase = .ordered →
      (s.loaded r).cred.busy = some (jobs.head?.getD .destroy)
        ∧ (s.loaded r).cred.waiting = (if jobs = [] then [] else [.destroy])) := by
  obtain ⟨-, hwipe, hgrd, hcred⟩ := s.loadedSoFar_others r
  have hstores := ((s.loadFlags r).loadCredentials_spec r).stores (by simpa using hstrap)
    (by simpa using hidle.credentials.1) (by simpa using hidle.credentials.2)
  have hbacks : jobs = storeBacks r (if r.header then greatestStamp (loadedSlots r (s.loadFlags r).cred.slots)
      else (s.loadFlags r).cred.liveStamp) := by
    rw [hjobs, s.loaded_liveStamp]
    simp
  rw [← hbacks] at hstores
  have hmarks : ((s.loadedSoFar r).loadMarks r).cred = ((s.loadFlags r).loadCredentials r).cred := by simp [hcred]
  have hjournal := ((s.loadedSoFar r).loadMarks r).loadJournal_spec r
  have hphase : (s.loaded r).wipe.journal
      = loadedJournal r ((s.loadedSoFar r).loadMarks r).wipe.journal := by
    rw [(s.loaded_cred_wipe r).2.1, hjournal.journal]
  rw [hphase, (s.loaded_cred_wipe r).1]
  refine ⟨fun hother => ?_, fun hordered => ?_⟩
  · rw [hjournal.other hother, hmarks]
    exact hstores
  · rw [hjournal.ordered hordered]
    refine State.askDestruction_stores (by simpa [hgrd] using hstrap) ?_ ?_ ?_
    · rw [hmarks]; exact hstores.1
    · rw [hmarks]; exact hstores.2
    · rw [hjobs]; exact destroy_not_mem_storeBacks r _

end NoStoreYet

/-- Settles O14: each record comes into force as loaded or as its substitute, whose store-back begins here. -/
theorem loadingEndBringsTheRecordsIntoForce : Obligations.LoadingEndBringsTheRecordsIntoForce := by
  unfold Obligations.LoadingEndBringsTheRecordsIntoForce
  intro r s hoff hstep hstate
  have hstrap : s.grd.state ≠ .strapFault := by simp [hstate]
  rw [exec_loadingEnd hoff hstep, State.loaded_settle (s := { s with notices := [] }) rfl hstrap]
  have hpol := ({ s with notices := [] } : State).loaded_pol_eq r
  have hflags := ({ s with notices := [] } : State).loaded_flags r
  refine ⟨_, rfl, ?_, ?_, ?_, ?_, ?_, ?_, ?_, ?_, ?_, ?_, ?_, ?_, fun i => ?_, ?_, ?_, ?_, ?_, ?_, ?_,
    fun hidle => ?idle⟩
  · simp [State.loaded_sup]
  · simp [State.loaded_sup]
  · simp
  · simp [State.loaded_line]
  · simp [State.loaded_key]
  · simp [State.loaded_eng { s with notices := [] } r hstrap]
  · simp [hflags, loadedFlags]
  · simp [State.loaded_tally]
  · simp [State.loaded_holdOwed]
  · simp [hpol]
  · simp [hpol]
  · simp [hpol, latchOf]
  · have hslots := setSlots_get (failedSlots r) s.cred.slots i
    rw [← loadedSlots] at hslots
    simpa [State.loaded_slots] using hslots
  · simp [State.loaded_slots, State.loaded_liveStamp]
  · simp [State.loaded_pendingSlot]
  · simp [State.loaded_fixedMarks]
  · simp [State.loaded_journal, loadedJournal]
  · simp [State.loaded_nv]
  · simp [State.loaded_flagStore, hflags]
  case idle =>
    have hidle' : NoStoreUnderWay ({ s with notices := [] } : State) :=
      ⟨hidle.tally, hidle.owed, hidle.policy, hidle.marks, hidle.pendingMark, hidle.journal, hidle.credentials⟩
    obtain ⟨htally, howed⟩ := State.loaded_tallyStores hidle' r
    obtain ⟨hmarks, hpm⟩ := State.loaded_markStores (s := { s with notices := [] }) hstrap hidle' r
    have hjournal := State.loaded_journalStore (s := { s with notices := [] }) hstrap hidle' r
    refine ⟨by simpa using htally, by simpa using howed, by simpa using State.loaded_policyStore hidle' r,
      by simpa using hmarks, by simpa using hpm, by simpa using hjournal, fun jobs hjobs => ?_⟩
    have hstores := State.loaded_credStores (s := { s with notices := [] }) hstrap hidle' r (jobs := jobs)
      (by simpa [storeBacks] using hjobs)
    simpa using hstores

end Sys2Proof.Machine

end


section
/-! PROOF. The end of a round at a station that tracks it (R25, R44 to R51, R54, R161): the round left, the owners' part, and
the rest of the event. -/

namespace Sys2Proof.Machine

/-! ## The event in three parts -/

/-- The record of a round with its ACCEPT map as taken (R27). -/
def RoundRec.takenBy (r : RoundRec) (s : State) (m : Slots) : RoundRec :=
  { r with accept := takenMap s.sup (s.line.offer == Offer.slot) m }

/-- The record of a round at its end: the ACCEPT map as taken, and its class (R27, R44). -/
def RoundRec.closedBy (r : RoundRec) (s : State) (m : Slots) : RoundRec :=
  { r.takenBy s m with cls := some (classifyRound s.sup (r.takenBy s m)) }

/-- The line as ACCEPT's end leaves it: GAP, its timers by the field's last bit (R25; log 50). -/
def State.gapLine (s : State) (m : Slots) : LineIf :=
  (s.line.sensed .accept (lineRead s.sup s.line.offer .accept (m.setWidth 256)) s.now).toGap

/-- The station without the round that has ended, its activity handed on (R25, R161). -/
def State.roundLeft (s : State) (m : Slots) : State :=
  { s with
    notices := []
    line := s.gapLine m
    eng := { s.eng with round := none }
    sup := s.supplyAfterActivity s.now }

/-- What follows the owners' part at a round's end: a deadline moved in the round is taken, then queue and roster view take
the round, and stores that waited for its end begin (R5, R49, R54, R61, R101, R145). -/
def State.roundOver (s : State) (x : RoundRec) : State :=
  ((s.takeDueDeadline.endQueue x).recordRound x).repeatTallyAndOwed.repeatJournal

theorem exec_roundEnd {s : State} {r : RoundRec} {b : Nat} (hin : InRound s r (.inField .accept b)) (m : Slots) :
    exec (.roundEnd m) s = .next (((s.roundLeft m).ownersEnd (r.closedBy s m)
      (classifyRound s.sup (r.takenBy s m))).roundOver (r.closedBy s m)).settle := by
  show execRoundEnd m s = _
  simp only [execRoundEnd, event_next, State.roundEnded, hin.record, hin.pos]
  rw [State.activityEvent_eq]
  rfl

@[simp] theorem State.roundOver_frame (s : State) (x : RoundRec) :
    (s.roundOver x).now = s.now ∧ (s.roundOver x).nv = s.nv ∧ (s.roundOver x).pins = s.pins
      ∧ (s.roundOver x).toBank = s.toBank ∧ (s.roundOver x).line = s.line ∧ (s.roundOver x).cred = s.cred
      ∧ (s.roundOver x).pol = s.pol := by
  simp [State.roundOver]

@[simp] theorem State.roundOver_inner (s : State) (x : RoundRec) :
    (s.roundOver x).tal.tally = s.tal.tally ∧ (s.roundOver x).tal.deadline = s.tal.deadline
      ∧ (s.roundOver x).tal.holdOwed = s.tal.holdOwed
      ∧ (s.roundOver x).gate.fixedMarks = s.gate.fixedMarks ∧ (s.roundOver x).gate.markStore = s.gate.markStore
      ∧ (s.roundOver x).gate.pendingMark = s.gate.pendingMark ∧ (s.roundOver x).gate.pmBusy = s.gate.pmBusy
      ∧ (s.roundOver x).gate.staging = s.gate.staging
      ∧ (s.roundOver x).gate.outstanding = s.gate.outstanding ∧ (s.roundOver x).gate.eraseWaiting = s.gate.eraseWaiting
      ∧ (s.roundOver x).wipe.journal = s.wipe.journal ∧ (s.roundOver x).wipe.erase = s.wipe.erase
      ∧ (s.roundOver x).wipe.orderPending = s.wipe.orderPending
      ∧ (s.roundOver x).wipe.progressTimer = s.wipe.progressTimer
      ∧ (s.roundOver x).eng.rollCount = s.eng.rollCount
      ∧ (s.roundOver x).sup.state = s.sup.state ∧ (s.roundOver x).sup.stn = s.sup.stn
      ∧ (s.roundOver x).sup.roster = s.sup.roster ∧ (s.roundOver x).stat.fit = s.stat.fit
      ∧ (s.roundOver x).grd.matched = s.grd.matched ∧ (s.roundOver x).grd.mustChange = s.grd.mustChange
      ∧ (s.roundOver x).grd.batteryTimer = s.grd.batteryTimer := by
  simp [State.roundOver]

theorem State.roundLeft_frame (s : State) (m : Slots) :
    (s.roundLeft m).now = s.now ∧ (s.roundLeft m).nv = s.nv ∧ (s.roundLeft m).grd = s.grd
      ∧ (s.roundLeft m).cred = s.cred ∧ (s.roundLeft m).tal = s.tal ∧ (s.roundLeft m).pol = s.pol
      ∧ (s.roundLeft m).gate = s.gate ∧ (s.roundLeft m).wipe = s.wipe ∧ (s.roundLeft m).stat = s.stat
      ∧ (s.roundLeft m).key = s.key ∧ (s.roundLeft m).eng = { s.eng with round := none }
      ∧ (s.roundLeft m).toBank = s.toBank ∧ (s.roundLeft m).notices = [] :=
  ⟨rfl, rfl, rfl, rfl, rfl, rfl, rfl, rfl, rfl, rfl, rfl, rfl, rfl⟩

theorem State.roundLeft_sup (s : State) (m : Slots) :
    (s.roundLeft m).sup.state = s.sup.state ∧ (s.roundLeft m).sup.stn = s.sup.stn
      ∧ (s.roundLeft m).sup.roster = s.sup.roster := by
  rcases s.supplyAfterActivity_cases s.now with h | h <;> simp [State.roundLeft, h]

/-! ## The rest of the event -/

/-- A deadline moved in the round takes LOCKED to HELD, and nothing else (R5, R6). -/
theorem State.takeDueDeadline_cases (s : State) :
    s.takeDueDeadline = { s with grd := { s.grd with holdDue := false } }
      ∨ (s.grd.state = .locked ∧ s.grd.holdDue = true ∧ s.tal.deadline.isSome = true
        ∧ s.takeDueDeadline = ({ s with grd := { s.grd with holdDue := false } } : State).setGuard .held) := by
  unfold State.takeDueDeadline
  split
  · next hdue =>
    dsimp only
    split
    · next hahead =>
      unfold State.takeDeadline
      split
      · next hlocked => exact .inr ⟨hlocked, hdue, hahead, rfl⟩
      · exact .inl rfl
    · exact .inl rfl
  · next hdue =>
    have hsame : ({ s.grd with holdDue := false } : Guard) = s.grd := by
      have hfalse : s.grd.holdDue = false := by simpa using hdue
      rw [← hfalse]
    exact .inl (by rw [hsame])

/-- After the deadline only queue, roster view, flags, held items and stores are touched. -/
theorem State.roundOver_rest (s : State) (x : RoundRec) :
    (s.roundOver x).gate = s.takeDueDeadline.gate ∧ (s.roundOver x).grd = s.takeDueDeadline.grd
      ∧ (s.roundOver x).toBridge = s.takeDueDeadline.toBridge ∧ (s.roundOver x).sup = s.takeDueDeadline.sup
      ∧ (s.roundOver x).key.mode = s.takeDueDeadline.key.mode
      ∧ (s.roundOver x).key.command = s.takeDueDeadline.key.command := by
  simp [State.roundOver]

theorem State.roundOver_state (s : State) (x : RoundRec) :
    (s.roundOver x).grd.state
      = if s.grd.state = .locked ∧ s.grd.holdDue = true ∧ s.tal.deadline.isSome = true then .held else s.grd.state := by
  rw [(s.roundOver_rest x).2.1]
  unfold State.takeDueDeadline State.takeDeadline State.deadlineAhead
  by_cases hdue : s.grd.holdDue = true
  · by_cases hahead : s.tal.deadline.isSome = true
    · by_cases hlocked : s.grd.state = .locked
      · simp [hdue, hahead, hlocked]
      · simp [hdue, hahead, hlocked]
    · simp [hdue, hahead]
  · simp [hdue]

theorem State.roundOver_state_of_ne_locked {s : State} (h : s.grd.state ≠ .locked) (x : RoundRec) :
    (s.roundOver x).grd.state = s.grd.state := by
  rw [s.roundOver_state, if_neg fun hc => h hc.1]

theorem State.roundOver_state_of_not_due {s : State} (h : s.grd.holdDue = false) (x : RoundRec) :
    (s.roundOver x).grd.state = s.grd.state := by
  rw [s.roundOver_state, if_neg fun hc => by simp [h] at hc]

theorem State.roundOver_triggersMay (s : State) (x : RoundRec) :
    s.grd.state.triggersMay (s.roundOver x).grd.state := by
  rw [s.roundOver_state]
  split
  · next h => exact .inr (.inr ⟨h.1, rfl⟩)
  · exact .inl rfl

/-- What the triggers and the deadline may do to the guard state between the owners' part and the event's end. -/
theorem State.roundOver_settle_triggersMay (s : State) (x : RoundRec) :
    s.grd.state.triggersMay (s.roundOver x).settle.grd.state :=
  (s.roundOver_triggersMay x).trans (s.roundOver x).settle_triggersMay

theorem GuardState.triggersMay.not_open {a b : GuardState} (h : a.triggersMay b) (ho : ¬(a = .opened ∨ a = .admin)) :
    ¬(b = .opened ∨ b = .admin) := by
  rcases h with rfl | ⟨h, -⟩ | ⟨-, rfl⟩
  · exact ho
  · exact absurd h ho
  · simp

/-- A station that is closed after the owners' part keeps table, key and matched slot to the event's end. -/
theorem State.roundOver_settle_closed {s : State} (h : ¬(s.grd.state = .opened ∨ s.grd.state = .admin)) (x : RoundRec) :
    ClosedStays s (s.roundOver x).settle := by
  obtain ⟨closed, cred, matched, mustChange, battery⟩ :=
    State.settle_closed ((s.roundOver_triggersMay x).not_open h)
  exact ⟨closed, by simpa using cred, by simpa using matched, by simpa using mustChange, by simpa using battery⟩

theorem State.setGuard_flags (s : State) (g : GuardState) : (s.setGuard g).stat = s.stat := by simp

/-! ## Flags -/

/-- A flag in force stays in force. -/
theorem FlagSet.has_or_left {fs : FlagSet} {f : Flag} (h : fs.has f = true) (v : FlagSet) :
    FlagSet.has (fs ||| v) f = true := by
  simp only [FlagSet.has, BitVec.getLsbD_or] at h ⊢
  simp [h]

theorem State.setFlag_has_of_has {s : State} {f : Flag} (h : s.stat.flags.has f = true) (g : Flag) :
    (s.setFlag g).stat.flags.has f = true := by
  rw [s.setFlag_flags]
  exact FlagSet.has_or_left h _

theorem State.setFlag_has_of_ne {f g : Flag} (h : f ≠ g) (s : State) :
    (s.setFlag g).stat.flags.has f = s.stat.flags.has f := by
  have hbit : g.mask.getLsbD f.bit = false := by
    revert h
    cases f <;> cases g <;> decide
  rw [s.setFlag_flags]
  simp only [FlagSet.has, BitVec.getLsbD_or, hbit, Bool.or_false]

theorem State.endQueue_has {s : State} {f : Flag} (h : s.stat.flags.has f = true) (x : RoundRec) :
    (s.endQueue x).stat.flags.has f = true := by
  unfold State.endQueue
  dsimp only
  split
  · exact h
  · refine State.setFlag_has_of_has ?_ _
    exact h

/-- A round that this station answered and records takes some peer's count to LOST_ROUNDS (R54, R55). -/
def State.losesPeer (s : State) (x : RoundRec) : Bool :=
  x.answered && x.cls.any RoundClass.applies
    && reachesLost s.eng.absence (countsAfter s.sup x.answer s.eng.absence)

theorem State.setFlag_stat (s : State) (f : Flag) :
    (s.setFlag f).stat = { s.stat with
      flags := s.stat.flags ||| f.mask
      reported := s.stat.reported &&& ~~~f.mask
      store := if s.mayStore then s.stat.store.put (s.stat.flags ||| f.mask) else s.stat.store } := by
  unfold State.setFlag
  dsimp only
  split <;> rfl

/-- What a flag does to the status block asks for the guard state and the block alone. -/
theorem State.setFlag_stat_congr {s u : State} (hgrd : u.grd = s.grd) (hstat : u.stat = s.stat) (f : Flag) :
    (u.setFlag f).stat = (s.setFlag f).stat := by
  rw [u.setFlag_stat, s.setFlag_stat, hstat, State.mayStore, State.mayStore, hgrd]

theorem State.recordRound_stat (s : State) (x : RoundRec) :
    (s.recordRound x).stat = if s.losesPeer x then (s.setFlag .peerLost).stat else s.stat := by
  have hnote : ∀ (c : Prop) [Decidable c] (u : State) (n : Notice), (if c then u else u.note n).stat = u.stat := by
    intro c _ u n
    split <;> rfl
  unfold State.recordRound State.losesPeer
  by_cases hrecords : (x.answered && x.cls.any RoundClass.applies) = true
  · rw [if_pos hrecords, hrecords, Bool.true_and]
    dsimp only
    rw [hnote]
    by_cases hlost : reachesLost s.eng.absence (countsAfter s.sup x.answer s.eng.absence) = true
    · rw [if_pos hlost, if_pos hlost, State.setFlag_stat_congr]
      · rfl
      · rfl
    · rw [if_neg hlost, if_neg hlost]
  · rw [if_neg hrecords]
    simp [hrecords]

theorem State.recordRound_has {s : State} {f : Flag} (h : s.stat.flags.has f = true) (x : RoundRec) :
    (s.recordRound x).stat.flags.has f = true := by
  rw [s.recordRound_stat]
  split
  · exact State.setFlag_has_of_has h _
  · exact h

theorem State.roundOver_has {s : State} {f : Flag} (h : s.stat.flags.has f = true) (x : RoundRec) :
    (s.roundOver x).stat.flags.has f = true := by
  have hdue : s.takeDueDeadline.stat.flags.has f = true := by simpa using h
  have hover : (s.roundOver x).stat = ((s.takeDueDeadline.endQueue x).recordRound x).stat := by simp [State.roundOver]
  rw [hover]
  exact State.recordRound_has (State.endQueue_has hdue x) x

/-! ## Locking -/

theorem LockedAway.takeDueDeadline {s u : State} (h : LockedAway s u) : LockedAway s u.takeDueDeadline := by
  have hcleared : LockedAway s { u with grd := { u.grd with holdDue := false } } := h.congr rfl h.rest ⟨_, _, rfl⟩ rfl
  rcases u.takeDueDeadline_cases with hd | ⟨hlocked, -, -, hd⟩ <;> rw [hd]
  · exact hcleared
  · exact hcleared.hold hlocked

theorem LockedAway.roundOver {s u : State} (h : LockedAway s u) (x : RoundRec) : LockedAway s (u.roundOver x) := by
  obtain ⟨gate, grd, -, -, mode, command⟩ := u.roundOver_rest x
  refine h.takeDueDeadline.congr gate ?_ ⟨_, _, grd⟩ (by simp)
  exact ⟨mode.trans h.takeDueDeadline.rest.1, command.trans h.takeDueDeadline.rest.2⟩

end Sys2Proof.Machine

end


section
/-! PROOF. What locks the station (R10, R11, R13, R15, R71). -/

namespace Sys2Proof.Machine

/-! ## The class of a round that was answered -/

theorem classifyRound_answered {r : RoundRec} (hpart : r.part ≠ .rejected) (hans : r.answered = true) (sup : Supply) :
    classifyRound sup r = if r.accept = rosterSet sup.roster then .complete else .partial_ := by
  simp [classifyRound, hpart, hans]

theorem classifyRound_applies {r : RoundRec} (hpart : r.part ≠ .rejected) (hans : r.answered = true) (sup : Supply) :
    (classifyRound sup r).applies = true := by
  rw [classifyRound_answered hpart hans]
  split <;> rfl

/-- The record at the end of ACCEPT is the round's but for map and class. -/
theorem RoundRec.closedBy_fields (r : RoundRec) (s : State) (m : Slots) :
    (r.closedBy s m).kind = r.kind ∧ (r.closedBy s m).arg = r.arg ∧ (r.closedBy s m).answered = r.answered
      ∧ (r.closedBy s m).cls = some (classifyRound s.sup (r.takenBy s m)) :=
  ⟨rfl, rfl, rfl, rfl⟩

theorem State.ownersEnd_lock {s : State} {r : RoundRec} {cls : RoundClass} (happlies : cls.applies = true)
    (hkind : r.kind = some .lock) : s.ownersEnd r cls = s.lockLocally := by
  simp [State.ownersEnd, happlies, hkind]

theorem exec_roundEnd_lock {s : State} {r : RoundRec} {b : Nat} (hin : InRound s r (.inField .accept b)) (m : Slots)
    (hpart : r.part ≠ .rejected) (hans : r.answered = true) (hkind : r.kind = some .lock) :
    exec (.roundEnd m) s = .next (((s.roundLeft m).lockLocally).roundOver (r.closedBy s m)).settle := by
  rw [exec_roundEnd hin, State.ownersEnd_lock (r := r.closedBy s m) (classifyRound_applies (r := r.takenBy s m) hpart hans s.sup) hkind]

theorem exec_batteryOpenExpiry {s : State} {t : Nat} (htimer : s.grd.batteryTimer = some t) :
    exec .batteryOpenExpiry s
      = .next ((State.lockLocally { s with
          notices := []
          now := max s.now t
          grd := { s.grd with batteryTimer := none } }).post .lock 3).settle := by
  show execBatteryOpenExpiry s = _
  simp only [execBatteryOpenExpiry, event_next, htimer]
  rfl

/-- Settles O26: each way to lock is the local lock and its request, or the local lock alone, followed to the event's
end by `LockedAway`. -/
theorem lockCausesLockTheStation : Obligations.LockCausesLockTheStation := by
  unfold Obligations.LockCausesLockTheStation
  refine ⟨fun s t hdue hfree hclass hopen hcollect hhold hfresh => ?keypad, fun s t htimer hopen => ?battery,
    fun s r b m hin hpart hans hkind => ?round⟩
  case keypad =>
    have hlocks := State.lockAndPost_settles (s := { s.withPress (.digit 0) t with notices := [] }) hopen lockKeypad
    refine ⟨_, exec_keypadLock hdue hfree hclass hopen hcollect hhold hfresh, hlocks.queued,
      fun harmed => hlocks.cause harmed (by simp), hlocks.away.battery, hlocks.away.outstanding, ?_,
      fun hempty => hlocks.away.shut hempty, fun hout => hlocks.away.waits hout⟩
    simp [State.keypadLock, State.withPress]
  case battery =>
    have hlocks := State.lockAndPost_settles (s := { s with
      notices := []
      now := max s.now t
      grd := { s.grd with batteryTimer := none } }) hopen 3
    refine ⟨_, exec_batteryOpenExpiry htimer, ?_, hlocks.away.battery, hlocks.queued,
      fun harmed => hlocks.cause harmed (by simp), fun hempty => hlocks.away.shut hempty,
      fun hout => hlocks.away.waits hout⟩
    simp
  case round =>
    refine ⟨_, exec_roundEnd_lock hin m hpart hans hkind, ?_, ?_, fun hopen => ?_, fun ho ha => ?_⟩
    · simp [State.roundLeft]
    · simp [State.roundLeft]
    · have haway := ((State.lockLocally_lockedAway (s := s.roundLeft m) hopen).roundOver (r.closedBy s m)).settle
      exact ⟨haway.battery, fun hempty => haway.shut hempty,
        fun hout => ⟨(haway.waits hout).1, (haway.waits hout).2.1⟩⟩
    · have hclosed : ¬((s.roundLeft m).grd.state = .opened ∨ (s.roundLeft m).grd.state = .admin) := fun h => h.elim ho ha
      rw [State.lockLocally_of_closed _ hclosed]
      exact ⟨State.roundOver_settle_triggersMay (s := s.roundLeft m) _,
        (State.roundOver_settle_closed hclosed _).cred ▸ rfl⟩

end Sys2Proof.Machine

end


section
/-! PROOF. The end of a round at this station: no round is left, the line is at GAP, the counts are taken, and every
request gets its due (R25, R44, R45, R49 to R51, R54). -/

namespace Sys2Proof.Machine

theorem State.stampEffects_round {s : State} (h : s.eng.round = none) (high low : Nat) :
    (s.stampEffects high low).eng.round = none := by
  simp [State.stampEffects, State.flagBehind, apply_ite State.eng, apply_ite Engine.round, h]

theorem State.ownersEnd_round {s : State} (h : s.eng.round = none) (r : RoundRec) (cls : RoundClass) :
    (s.ownersEnd r cls).eng.round = none := by
  unfold State.ownersEnd
  split
  · split
    · simp [h]
    · simp [State.endRoll, apply_ite State.eng, apply_ite Engine.round, h, State.stampEffects_round]
    · unfold State.endCheck
      dsimp only
      split
      · simp [h]
      · simp [h]
      · simp [h]
      · simp [h]
      · simp [h, State.matchEffects, apply_ite State.eng, apply_ite Engine.round]
    · simp [h]
    · simp [h]
    · simp [h, State.endProgress, State.returnToBlank, apply_ite State.eng, apply_ite Engine.round]
    · simp [h]
    · simp [h]
    · simp [h]
    · exact h
  · exact h

theorem State.endQueue_round {s : State} (h : s.eng.round = none) (x : RoundRec) : (s.endQueue x).eng.round = none := by
  unfold State.endQueue
  dsimp only
  split <;> simp [h]

theorem State.recordRound_round {s : State} (h : s.eng.round = none) (x : RoundRec) : (s.recordRound x).eng.round = none := by
  simp [State.recordRound, apply_ite State.eng, apply_ite Engine.round, h]

theorem State.roundOver_round {s : State} (h : s.eng.round = none) (x : RoundRec) : (s.roundOver x).eng.round = none := by
  have hdue : s.takeDueDeadline.eng.round = none := by simpa using h
  simpa [State.roundOver] using State.recordRound_round (State.endQueue_round hdue x) x

/-- Going dormant is the one way for the end of an event to touch the line (R22). -/
theorem State.settle_line_awake {s : State} (h : s.settle.sup.activity ≠ .dormant) : s.settle.line = s.line := by
  unfold State.settle at h ⊢
  rcases s.drain.regate.grantPort.dormantIfQuiet_cases with hd | ⟨-, -, hd⟩ <;> rw [hd] at h ⊢
  · simp
  · exact absurd rfl h

/-! ## Class and roster view -/

theorem RoundRec.reject_refused {r : RoundRec} (hpart : r.part = .refusing) (hans : r.answered = false) (sup : Supply) :
    r.reject sup = { r with cls := some .absent } := by
  simp [RoundRec.reject, classifyRound, hpart, hans]

theorem RoundRec.reject_void {r : RoundRec} (hpart : r.part ≠ .refusing) (sup : Supply) :
    r.reject sup = { r with part := .rejected, cls := some .void } := by
  simp [RoundRec.reject, classifyRound, hpart]

theorem rosterSet_getLsbD {size : Nat} (h : size ≤ 8) (n : Nat) : (rosterSet size).getLsbD n = true ↔ n < size := by
  rw [rosterSet, BitVec.getLsbD_ofNat, Nat.testBit_two_pow_sub_one]
  simp
  omega

theorem countsAfter_get (sup : Supply) (answer : Slots) (counts : Vector Nat 8) (i : Fin 8) :
    (countsAfter sup answer counts).get i
      = if sup.roster ≤ i.val ∨ i.val = sup.stn.toNat then counts.get i
        else if answer.getLsbD i.val then 0 else min 3 (counts.get i + 1) := by
  have hplace : stationNumbers.get i = i.val := by revert i; decide
  have hold : counts.toList.getD i.val 0 = counts.get i := by simp [Vector.get_eq_getElem]
  have hcount : (countsAfter sup answer counts).get i = countAfter sup answer counts (stationNumbers.get i) := by
    simp [countsAfter, mapEntries, Vector.get_eq_getElem]
  rw [hcount, hplace, countAfter, hold]
  rfl

theorem countsAfter_congr {a b : Supply} (hroster : a.roster = b.roster) (hstn : a.stn = b.stn) :
    countsAfter a = countsAfter b := by
  unfold countsAfter countAfter
  simp only [hroster, hstn]

theorem State.recordRound_absence (s : State) (x : RoundRec) :
    (s.recordRound x).eng.absence
      = if (x.answered && x.cls.any RoundClass.applies) = true then countsAfter s.sup x.answer s.eng.absence
        else s.eng.absence := by
  unfold State.recordRound
  dsimp only
  split
  · simp [apply_ite State.eng, apply_ite Engine.absence]
  · rfl

theorem State.roundOver_absence (s : State) (x : RoundRec) :
    (s.roundOver x).eng.absence
      = if (x.answered && x.cls.any RoundClass.applies) = true then countsAfter s.sup x.answer s.eng.absence
        else s.eng.absence := by
  have hover : (s.roundOver x).eng.absence = ((s.takeDueDeadline.endQueue x).recordRound x).eng.absence := by
    simp [State.roundOver]
  have hsup : countsAfter s.takeDueDeadline.sup = countsAfter s.sup := countsAfter_congr (by simp) (by simp)
  rw [hover, State.recordRound_absence]
  simp [hsup]

end Sys2Proof.Machine

end


section
/-! PROOF. What the owners' part in a round's end leaves of the opening queue, and that it ends STARTING alone where the
triggers are told so (R46, R61, R78). -/

namespace Sys2Proof.Machine

/-- The held item of a kind is there: its request goes with the keypad's state (R69, R77, R78). -/
def HoldsBack (s : State) (k : RoundKind) : Prop :=
  (k = .check ∧ s.key.heldEntry ≠ none) ∨ (k = .setcode ∧ s.key.heldChange ≠ none)

/-- An operation that leaves the request of a kind, arms nothing, and tells the triggers of the end of STARTING, if at all,
in leaving it. -/
structure OwnerStep (k : RoundKind) (s u : State) : Prop where
  request : ¬HoldsBack s k → queueFind k u.eng.queue = queueFind k s.eng.queue
  rises : QueueRises s.eng.queue → QueueRises u.eng.queue
  free : ¬HoldsBack s k → ¬HoldsBack u k
  armed : s.pol.armed = 0 → u.pol.armed = 0
  starting : s.grd.state ≠ .starting → u.grd.state ≠ .starting
  quiet : s.grd.state ≠ .starting → Notice.startingEnded ∉ s.notices → Notice.startingEnded ∉ u.notices

namespace OwnerStep

variable {k : RoundKind} {s u v : State}

theorem refl (k : RoundKind) (s : State) : OwnerStep k s s := ⟨fun _ => rfl, id, id, id, id, fun _ h => h⟩

theorem trans (h : OwnerStep k s u) (h' : OwnerStep k u v) : OwnerStep k s v where
  request hf := (h'.request (h.free hf)).trans (h.request hf)
  rises hq := h'.rises (h.rises hq)
  free hf := h'.free (h.free hf)
  armed ha := h'.armed (h.armed ha)
  starting hs := h'.starting (h.starting hs)
  quiet hs hn := h'.quiet (h.starting hs) (h.quiet hs hn)

theorem ite {c : Prop} [Decidable c] (hu : c → OwnerStep k s u) (hv : ¬c → OwnerStep k s v) :
    OwnerStep k s (if c then u else v) := by
  split
  · exact hu ‹_›
  · exact hv ‹_›

/-- An operation that adds no notice but others than the end of STARTING, and leaves queue, held items, armed entries and
guard state. -/
theorem of_same (hqueue : u.eng.queue = s.eng.queue) (hentry : u.key.heldEntry = s.key.heldEntry)
    (hchange : u.key.heldChange = s.key.heldChange) (harmed : u.pol.armed = s.pol.armed)
    (hstate : u.grd.state = s.grd.state) (hnotices : Notice.startingEnded ∈ u.notices → Notice.startingEnded ∈ s.notices) :
    OwnerStep k s u where
  request _ := by rw [hqueue]
  rises hq := by rwa [hqueue]
  free hf := by unfold HoldsBack at hf ⊢; rwa [hentry, hchange]
  armed ha := harmed.trans ha
  starting hs := by rwa [hstate]
  quiet _ hn := mt hnotices hn

/-- The credential store is not asked. -/
theorem cred (h : OwnerStep k s u) (c : Credentials) : OwnerStep k s { u with cred := c } :=
  h.trans (.of_same rfl rfl rfl rfl rfl id)

/-- Nor is the wipe engine. -/
theorem wipe (h : OwnerStep k s u) (w : Wipe) : OwnerStep k s { u with wipe := w } :=
  h.trans (.of_same rfl rfl rfl rfl rfl id)

/-- Nor is the PARTIAL ROLL count. -/
theorem rolls (h : OwnerStep k s u) (n : Nat) : OwnerStep k s { u with eng := { u.eng with rollCount := n } } :=
  h.trans (.of_same rfl rfl rfl rfl rfl id)

end OwnerStep

variable (k : RoundKind)

theorem State.setGuard_ownerStep (s : State) {g : GuardState} (hg : g ≠ .starting) : OwnerStep k s (s.setGuard g) := by
  by_cases hsame : s.grd.state = g
  · rw [State.setGuard_self hsame]
    exact .refl k s
  · exact {
      request := fun hf => by
        rw [State.setGuard_queue hsame, queueFind, List.find?_filter, queueFind]
        congr 1
        funext r
        by_cases hr : r.kind = k
        · subst hr
          unfold HoldsBack at hf
          by_cases hc : r.kind = .check
          · simp_all
          · by_cases hc' : r.kind = .setcode <;> simp_all
        · simp [hr]
      rises := fun hq => by
        rw [State.setGuard_queue hsame]
        exact hq.filter _
      free := fun _ => by
        have hkey := State.setGuard_key hsame
        simp [HoldsBack, hkey]
      armed := fun ha => by simpa using ha
      starting := fun _ => by simpa using hg
      quiet := fun _ hn => by simp [State.setGuard_notices hsame, hn] }

theorem State.setFlag_ownerStep (s : State) (f : Flag) : OwnerStep k s (s.setFlag f) := by
  refine .of_same (by simp) (by simp) (by simp) (by simp) (by simp) ?_
  unfold State.setFlag
  dsimp only
  split <;> simp

theorem State.setTally_ownerStep (s : State) (v : Nat) : OwnerStep k s (s.setTally v) := by
  refine .of_same (by simp) (by simp) (by simp) (by simp) (by simp) ?_
  unfold State.setTally
  split <;> simp

theorem State.clearHold_ownerStep (s : State) : OwnerStep k s s.clearHold :=
  .of_same (by simp) (by simp) (by simp) (by simp) (by simp) (by simp)

theorem State.lockLocally_ownerStep (s : State) : OwnerStep k s s.lockLocally := by
  have hclose : ∀ u : State, OwnerStep k u u.endClosing := by
    intro u
    have hto : ∀ v : State, (if v.deadlineAhead then GuardState.held else GuardState.locked) ≠ .starting := by
      intro v
      split <;> simp
    unfold State.endClosing
    dsimp only
    refine .trans ?_ (State.setGuard_ownerStep k _ (hto _))
    exact .of_same rfl rfl rfl rfl rfl id
  unfold State.lockLocally State.drained
  refine .ite (fun _ => ?_) fun _ => .refl k s
  refine .trans (u := { s with grd := { s.grd with batteryTimer := none } }) (.of_same rfl rfl rfl rfl rfl id) ?_
  refine .trans (State.setGuard_ownerStep k _ (g := .closing) (by simp)) ?_
  exact .ite (fun _ => .ite (fun _ => hclose _) fun _ => .refl k _) fun _ => .refl k _

theorem State.takeDeadline_ownerStep (s : State) : OwnerStep k s s.takeDeadline :=
  .ite (fun _ => State.setGuard_ownerStep k s (by simp)) fun _ => .refl k s

theorem State.moveDeadline_ownerStep (s : State) (deadline seconds : Nat) : OwnerStep k s (s.moveDeadline deadline seconds) := by
  unfold State.moveDeadline
  refine .trans (u := ({ s with tal := { s.tal with deadline := some deadline } } : State).setOwed seconds)
    (.of_same (by simp) (by simp) (by simp) (by simp) (by simp) (by simp)) ?_
  exact .ite (fun _ => .of_same rfl rfl rfl rfl rfl id) fun _ => State.takeDeadline_ownerStep k _

theorem State.holdRequest_ownerStep (s : State) (n : Nat) : OwnerStep k s (s.holdRequest n) := by
  unfold State.holdRequest
  dsimp only
  split
  · exact .ite (fun _ => .refl k s) fun _ => State.moveDeadline_ownerStep k s _ _
  · exact State.moveDeadline_ownerStep k s _ _

theorem State.takeGap_ownerStep (s : State) : OwnerStep k s s.takeGap :=
  (State.holdRequest_ownerStep k s _).trans (State.takeDeadline_ownerStep k _)

theorem State.takeDueDeadline_ownerStep (s : State) : OwnerStep k s s.takeDueDeadline := by
  unfold State.takeDueDeadline
  refine .ite (fun _ => ?_) fun _ => .refl k s
  dsimp only
  refine .trans (u := { s with grd := { s.grd with holdDue := false } }) (.of_same rfl rfl rfl rfl rfl id) ?_
  exact .ite (fun _ => State.takeDeadline_ownerStep k _) fun _ => .refl k _

theorem State.openStation_ownerStep (s : State) (slot : CodeSlotNo) (mustChange : Bool) (plain : Option BankKey) :
    OwnerStep k s (s.openStation slot mustChange plain) := by
  have hto : (if slot = 0 then GuardState.admin else GuardState.opened) ≠ .starting := by split <;> simp
  unfold State.openStation
  dsimp only
  refine .trans ?_ (State.setGuard_ownerStep k _ hto)
  exact .of_same rfl rfl rfl rfl rfl id

theorem State.post_ownerStep (s : State) {x : RoundKind} (hx : k ≠ x) (arg : Arg) : OwnerStep k s (s.post x arg) := by
  unfold State.post
  refine .ite (fun _ => .refl k s) fun _ => ?_
  exact ⟨fun _ => queueFind_queuePost_ne hx arg _, QueueRises.post, id, id, id, fun _ h => h⟩

theorem State.stampEffects_ownerStep (s : State) (high low : Nat) : OwnerStep k s (s.stampEffects high low) := by
  have hdiscard : OwnerStep k s (s.discardAbove high) :=
    .of_same (by simp) (by simp) (by simp) (by simp) (by simp) (by simp)
  have hpromote : ∀ u : State, OwnerStep k u (u.promoteAt high low) := by
    intro u
    unfold State.promoteAt
    split
    · next p _ =>
      refine .ite (fun _ => ?_) fun _ => .refl k u
      refine .trans (u := (u.promote p).clearMustChange p.target)
        (.of_same (by simp) (by simp) (by simp) (by simp) (by simp) (by simp)) ?_
      exact .ite (fun _ => State.setGuard_ownerStep k _ (by simp)) fun _ => .refl k _
    · exact .refl k u
  exact (hdiscard.trans (hpromote _)).trans (.ite (fun _ => State.setFlag_ownerStep k _ _) fun _ => .refl k _)

theorem State.enterWiping_ownerStep (s : State) : OwnerStep k s s.enterWiping := by
  unfold State.enterWiping
  refine .trans ?_ (State.setGuard_ownerStep k _ (by simp))
  exact .of_same (by simp) (by simp) (by simp) (by simp) (by simp) (by simp)

/-- STARTING ends: PROGRESS is the one request that may be posted (R3, R154). -/
theorem State.endStarting_ownerStep (s : State) (hk : k ≠ .progress) (adopted : Bool) (hstarting : s.grd.state = .starting) :
    OwnerStep k s (s.endStarting adopted) := by
  have hnote : OwnerStep k s (s.note .startingEnded) :=
    ⟨fun _ => rfl, id, id, id, id, fun h => absurd hstarting h⟩
  unfold State.endStarting
  refine .ite (fun _ => ?_) fun _ => ?_
  · refine .trans (u := (s.note .startingEnded).enterWiping.engineStep) ?_ (.ite (fun _ => ?_) fun _ => .refl k _)
    · refine (hnote.trans (State.enterWiping_ownerStep k _)).trans ?_
      exact .of_same (by simp) (by simp) (by simp) (by simp) (by simp) (by simp)
    · unfold State.reachDone
      dsimp only
      refine .wipe (.trans ?_ (State.post_ownerStep k _ hk 0)) _
      exact .ite (fun _ => .refl k _) fun _ => .of_same (by simp) (by simp) (by simp) (by simp) (by simp) (by simp)
  · have hto : ∀ u : State, (if tableEmpty u.cred.slots then GuardState.blank
        else if u.deadlineAhead then .held else .locked) ≠ .starting := by
      intro u
      repeat' split
      all_goals simp
    have howed : ∀ {c : Prop} [Decidable c] (tal : TallyHold),
        OwnerStep k s ((if c then { s with tal := tal } else s).note .startingEnded) := by
      intro c _ tal
      split
      · exact ⟨fun _ => rfl, id, id, id, id, fun h => absurd hstarting h⟩
      · exact hnote
    exact (howed _).trans (State.setGuard_ownerStep k _ (hto _))

theorem State.endRoll_ownerStep (s : State) (r : RoundRec) (cls : RoundClass) (hk : k = .progress → s.grd.state ≠ .starting) :
    OwnerStep k s (s.endRoll r cls) := by
  have horder : ∀ u : State, OwnerStep k u (u.takeOrder .adopted) := fun u =>
    .of_same (by simp) (by simp) (by simp) (by simp) (by simp) (by simp)
  have hend : ∀ (u : State) (adopted : Bool), (s.grd.state ≠ .starting → u.grd.state ≠ .starting) →
      u.grd.state = .starting → OwnerStep k u (u.endStarting adopted) := fun u adopted hfrom hu =>
    State.endStarting_ownerStep k u (fun hp => hfrom (hk hp) hu) adopted hu
  unfold State.endRoll
  dsimp only
  have htally : OwnerStep k s (s.setTally (adoptedTally s.tal.tally (r.numberOf .tallyHi))) := State.setTally_ownerStep k s _
  refine OwnerStep.trans ?steps (.ite (fun h => hend _ _ (OwnerStep.starting ?steps) h.1) fun _ => .refl k _)
  refine .trans ?_ (.ite (fun _ => State.setFlag_ownerStep k _ _) fun _ => .refl k _)
  refine .rolls ?_ _
  refine .trans ?_ (.ite (fun _ => State.setFlag_ownerStep k _ _) fun _ => .refl k _)
  refine .trans ?_ (.ite (fun _ => State.stampEffects_ownerStep k _ _ _) fun _ => .refl k _)
  exact htally.trans (.ite (fun _ => horder _) fun _ => .refl k _)

theorem State.endCheck_ownerStep (s : State) (r : RoundRec) (cls : RoundClass) (hk : k ≠ .wipe) :
    OwnerStep k s (s.endCheck r cls) := by
  have hmatch : ∀ slot, OwnerStep k s (s.matchEffects r slot) := by
    intro slot
    unfold State.matchEffects
    dsimp only
    refine .trans (.trans (State.setTally_ownerStep k s 0) ?_)
      (.ite (fun _ => State.post_ownerStep k _ hk _) fun _ =>
        .ite (fun _ => State.openStation_ownerStep k _ _ _ _) fun _ => .refl k _)
    exact .of_same rfl rfl rfl rfl rfl id
  unfold State.endCheck
  dsimp only
  refine .cred ?_ _
  split
  · exact State.setFlag_ownerStep k s _
  · exact State.takeGap_ownerStep k s
  · exact State.takeGap_ownerStep k s
  · exact (State.setFlag_ownerStep k s _).trans (State.takeGap_ownerStep k _)
  · exact hmatch _

theorem State.endSetcode_ownerStep (s : State) (r : RoundRec) (cls : RoundClass) : OwnerStep k s (s.endSetcode r cls) := by
  have hpromote : ∀ p, OwnerStep k s ((s.promote p).takePromotion p) := by
    intro p
    refine .trans (u := s.promote p) (.of_same (by simp) (by simp) (by simp) (by simp) (by simp) (by simp)) ?_
    unfold State.takePromotion
    refine .ite (fun _ => State.openStation_ownerStep k _ _ _ _) fun _ => ?_
    exact .of_same (by simp) (by simp) (by simp) (by simp) (by simp) (by simp)
  unfold State.endSetcode
  dsimp only
  refine .cred ?_ _
  split
  · exact hpromote _
  · exact .refl k s

theorem State.endProgress_ownerStep (s : State) (r : RoundRec) (cls : RoundClass) : OwnerStep k s (s.endProgress r cls) := by
  unfold State.endProgress State.returnToBlank
  refine .ite (fun _ => ?_) fun _ => .refl k s
  dsimp only
  refine .trans ?_ (.ite (fun _ => State.setGuard_ownerStep k _ (by simp)) fun _ => .refl k _)
  refine .trans (.trans ?_ (State.setTally_ownerStep k _ 0)) (State.clearHold_ownerStep k _)
  refine .trans ?_ (.ite (fun _ => State.setFlag_ownerStep k _ _) fun _ => .refl k _)
  exact .of_same (by simp) (by simp) (by simp) (by simp) (by simp) (by simp)

theorem State.endFit_ownerStep (s : State) (r : RoundRec) (cls : RoundClass) : OwnerStep k s (s.endFit r cls) := by
  have hwrite : ∀ (u : State) (t : PolicyTable), OwnerStep k u (u.writePolicy t) := fun u t => {
    request := fun _ => rfl
    rises := id
    free := id
    armed := fun ha => by simp [State.writePolicy, ha]
    starting := id
    quiet := fun _ h => h }
  have happly : ∀ (u : State) (item : FitItem), OwnerStep k u (u.applyItem item) := by
    intro u item
    unfold State.applyItem
    split
    · exact .of_same (by simp) (by simp) (by simp) (by simp) (by simp) (by simp)
    · exact hwrite _ _
  unfold State.endFit
  dsimp only
  refine .trans (u := { s with stat := { s.stat with fit := none } }) (.of_same rfl rfl rfl rfl rfl id)
    (.ite (fun _ => ?_) fun _ => .refl k _)
  split
  · exact happly _ _
  · exact .refl k _

/-- The owners' part in a round's end: a CHECK round may post WIPE, and the ROLL that ends STARTING may post PROGRESS. -/
theorem State.ownersEnd_ownerStep (s : State) (r : RoundRec) (cls : RoundClass)
    (hwipe : k = .wipe → r.kind ≠ some .check)
    (hprogress : k = .progress → r.kind = some .roll → s.grd.state ≠ .starting) : OwnerStep k s (s.ownersEnd r cls) := by
  unfold State.ownersEnd
  refine .ite (fun _ => ?_) fun _ => .refl k s
  split
  · exact State.lockLocally_ownerStep k s
  · next hkind => exact State.endRoll_ownerStep k s r cls fun hp => hprogress hp hkind
  · next hkind => exact State.endCheck_ownerStep k s r cls fun hw => hwipe hw hkind
  · exact State.endSetcode_ownerStep k s r cls
  · exact .of_same (by simp) (by simp) (by simp) (by simp) (by simp) (by simp)
  · exact State.endProgress_ownerStep k s r cls
  · exact .of_same (by simp) (by simp) (by simp) (by simp) (by simp) (by simp)
  · exact .of_same (by simp) (by simp) (by simp) (by simp) (by simp) (by simp)
  · exact State.endFit_ownerStep k s r cls
  · exact .refl k s

end Sys2Proof.Machine

end


section
/-! PROOF. The opening queue at the end of a round: what is served goes, what is not is tried again or dropped (R46, R49,
R50, R51). -/

namespace Sys2Proof.Machine

/-! ## One request -/

theorem served_iff (sup : Supply) (r : RoundRec) (x : Request) :
    served sup r x = true ↔ r.kind = some x.kind ∧ r.cls = some .complete
      ∧ (x.kind = .lock ∨ x.kind = .wipe ∨ x.kind = .roll
          ∨ (x.kind = .progress ∧ (r.mapOf .done).getLsbD sup.stn.toNat = true)
          ∨ ((x.kind = .setcode ∨ x.kind = .setmark) ∧ x.arg = r.arg)) := by
  unfold served
  cases hk : x.kind <;> simp [RoundRec.droveIn, and_assoc]

theorem served_congr {a b : Supply} (h : a.stn = b.stn) (r : RoundRec) (x : Request) : served a r x = served b r x := by
  rw [Bool.eq_iff_iff, served_iff, served_iff, h]

theorem endRequest_congr {a b : Supply} (h : a.stn = b.stn) (now : Nat) (r : RoundRec) (x : Request) :
    endRequest a now r x = endRequest b now r x := by
  unfold endRequest
  rw [served_congr h]

theorem endRequest_of_served {sup : Supply} {r : RoundRec} {x : Request} (h : served sup r x = true) (now : Nat) :
    endRequest sup now r x = none := by
  simp [endRequest, h]

theorem endRequest_resting {sup : Supply} {r : RoundRec} {x : Request} (h : served sup r x = false)
    (hf : x.inFlight = false) (now : Nat) : endRequest sup now r x = some x := by
  simp [endRequest, h, hf]

theorem endRequest_replaced {sup : Supply} {r : RoundRec} {x : Request} (h : served sup r x = false)
    (hf : x.inFlight = true) (hr : x.replaced = true) (now : Nat) :
    endRequest sup now r x = some { x with inFlight := false, replaced := false, retries := 0 } := by
  simp [endRequest, h, hf, hr]

theorem endRequest_once {sup : Supply} {r : RoundRec} {x : Request} (h : served sup r x = false)
    (hf : x.inFlight = true) (hr : x.replaced = false) (hk : x.kind.retryable = false) (now : Nat) :
    endRequest sup now r x = none := by
  simp [endRequest, h, hf, hr, hk]

theorem endRequest_retried {sup : Supply} {r : RoundRec} {x : Request} (h : served sup r x = false)
    (hf : x.inFlight = true) (hr : x.replaced = false) (hk : x.kind.retryable = true) (now : Nat) :
    endRequest sup now r x = if x.retries < 10 then
        some { x with inFlight := false, retries := x.retries + 1, notBefore := some (now + 100) }
      else none := by
  simp [endRequest, h, hf, hr, hk, Config.maxRetries, Config.roundRetry]

theorem endRequest_kind {sup : Supply} {now : Nat} {r : RoundRec} {x z : Request}
    (h : endRequest sup now r x = some z) : z.kind = x.kind := by
  unfold endRequest at h
  repeat' split at h
  all_goals cases h
  all_goals rfl

/-! ## The queue -/

/-- In a rising queue the request of a kind gets its due (R50). -/
theorem queueFind_filterMap_endRequest (sup : Supply) (now : Nat) (r : RoundRec) (k : RoundKind) {q : List Request}
    (h : QueueRises q) :
    queueFind k (q.filterMap (endRequest sup now r)) = (queueFind k q).bind (endRequest sup now r) := by
  induction q with
  | nil => rfl
  | cons y q ih =>
    obtain ⟨hfirst, hrest⟩ := List.pairwise_cons.1 h
    by_cases hy : y.kind = k
    · rw [queueFind_cons, if_pos hy, Option.bind_some]
      cases hz : endRequest sup now r y with
      | some z => rw [List.filterMap_cons_some hz, queueFind_cons, if_pos ((endRequest_kind hz).trans hy)]
      | none =>
        have hothers : queueFind k q = none :=
          queueFind_none_iff.2 fun z hz hk => absurd (hfirst z hz) (by rw [hk, hy]; omega)
        rw [List.filterMap_cons_none hz, ih hrest, hothers]
        rfl
    · rw [queueFind_cons, if_neg hy, ← ih hrest]
      cases hz : endRequest sup now r y with
      | some z =>
        rw [List.filterMap_cons_some hz, queueFind_cons, if_neg (by rw [endRequest_kind hz]; exact hy)]
      | none => rw [List.filterMap_cons_none hz]

/-- A ROLL request has had its retries, and STARTING needs a new one (R51). -/
def State.rollAgain (s : State) (x : RoundRec) : Bool :=
  (s.eng.queue.filter (exhausted s.sup x)).any (·.kind == .roll) && s.grd.state == .starting

theorem State.endQueue_queue (s : State) (x : RoundRec) :
    (s.endQueue x).eng.queue
      = if s.rollAgain x = true then
          queueInsert { kind := .roll, arg := 0, notBefore := some (s.now + Config.roundRetry) }
            (s.eng.queue.filterMap (endRequest s.sup s.now x))
        else s.eng.queue.filterMap (endRequest s.sup s.now x) := by
  unfold State.endQueue State.rollAgain
  dsimp only
  split <;> simp

theorem State.roundOver_queue (s : State) (x : RoundRec) :
    (s.roundOver x).eng.queue = (s.takeDueDeadline.endQueue x).eng.queue := by
  simp [State.roundOver]

theorem State.setFlag_startingEnded {s : State} {f : Flag} (h : Notice.startingEnded ∈ (s.setFlag f).notices) :
    Notice.startingEnded ∈ s.notices := by
  unfold State.setFlag at h
  dsimp only at h
  split at h <;> simpa using h

theorem State.endQueue_startingEnded {s : State} {x : RoundRec} (h : Notice.startingEnded ∈ (s.endQueue x).notices) :
    Notice.startingEnded ∈ s.notices := by
  unfold State.endQueue at h
  dsimp only at h
  split at h
  · exact h
  · have hflag := State.setFlag_startingEnded h
    exact hflag

theorem State.recordRound_startingEnded {s : State} {x : RoundRec} (h : Notice.startingEnded ∈ (s.recordRound x).notices) :
    Notice.startingEnded ∈ s.notices := by
  have hflag : ∀ (c : Prop) [Decidable c] (u : State), Notice.startingEnded ∈ (if c then u.setFlag .peerLost else u).notices →
      Notice.startingEnded ∈ u.notices := by
    intro c _ u hu
    split at hu
    · exact State.setFlag_startingEnded hu
    · exact hu
  have hnote : ∀ (c : Prop) [Decidable c] (u : State) (b : Bool),
      Notice.startingEnded ∈ (if c then u else u.note (.peerLost b)).notices → Notice.startingEnded ∈ u.notices := by
    intro c _ u b hu
    split at hu
    · exact hu
    · exact (List.mem_append.1 hu).resolve_right (by simp)
  unfold State.recordRound at h
  by_cases hrecords : (x.answered && x.cls.any RoundClass.applies) = true
  · rw [if_pos hrecords] at h
    have hbefore := hflag _ _ (hnote _ _ _ h)
    exact hbefore
  · rw [if_neg hrecords] at h
    exact h

theorem State.roundOver_startingEnded {s : State} {x : RoundRec} (h : Notice.startingEnded ∈ (s.roundOver x).notices) :
    Notice.startingEnded ∈ s.takeDueDeadline.notices := by
  have hover : (s.roundOver x).notices = ((s.takeDueDeadline.endQueue x).recordRound x).notices := by simp [State.roundOver]
  exact State.endQueue_startingEnded (State.recordRound_startingEnded (hover ▸ h))

/-- With no entry armed and STARTING not ending, the event leaves what the round's end made of the queue. -/
theorem State.roundOver_settle_request {k : RoundKind} {s u : State} (hstep : OwnerStep k s u)
    (harmed : s.pol.armed = 0) (hstarting : s.grd.state ≠ .starting) (hn : Notice.startingEnded ∉ s.notices)
    (hrises : QueueRises s.eng.queue) (hfree : ¬HoldsBack s k) (hnow : u.now = s.now) (hstn : u.sup.stn = s.sup.stn)
    (x : RoundRec) :
    queueFind k (u.roundOver x).settle.eng.queue = (queueFind k s.eng.queue).bind (endRequest s.sup s.now x) := by
  have hdue := hstep.trans (State.takeDueDeadline_ownerStep k u)
  have hquiet : Notice.startingEnded ∉ (u.roundOver x).notices :=
    mt State.roundOver_startingEnded (hdue.quiet hstarting hn)
  have hlater : u.takeDueDeadline.rollAgain x = false := by
    simp [State.rollAgain, hdue.starting hstarting]
  have hsame : endRequest u.takeDueDeadline.sup u.takeDueDeadline.now x = endRequest s.sup s.now x := by
    funext y
    rw [endRequest_congr (b := s.sup) (by simpa using hstn)]
    simp [hnow]
  rw [State.settle_queue_unarmed (by simpa using hstep.armed harmed) hquiet, State.roundOver_queue, State.endQueue_queue,
    hlater, if_neg (by simp), queueFind_filterMap_endRequest _ _ _ _ (hdue.rises hrises), hdue.request hfree, hsame]

/-! ## A request that had its retries -/

/-- A request of a kind that trigger actions do not post and a change of guard state does not withdraw (R78, R121). -/
theorem State.settle_queueFind_same {k : RoundKind} (hcheck : k ≠ .check) (hsetcode : k ≠ .setcode) (hlock : k ≠ .lock)
    (hwipe : k ≠ .wipe) (s : State) : queueFind k s.settle.eng.queue = queueFind k s.eng.queue := by
  rw [s.settle_queue]
  refine s.drain_keeps (fun u => queueFind k u.eng.queue = queueFind k s.eng.queue) (fun _ _ h => h)
    (fun u n h =>
      u.takeNotice_keeps (fun u => queueFind k u.eng.queue = queueFind k s.eng.queue) ?_ (fun _ _ _ h => h) n h) rfl
  have hpost : ∀ (u : State) {x : RoundKind} (a : Arg), k ≠ x →
      queueFind k (u.post x a).eng.queue = queueFind k u.eng.queue := by
    intro u x a hx
    unfold State.post
    split
    · rfl
    · exact queueFind_queuePost_ne hx a _
  intro u e hu
  rcases u.runAction_cases e with hr | ⟨n, hr⟩ | hr | hr | ⟨n, hr⟩ | ⟨p, -, -, hr⟩ <;> rw [hr]
  · exact hu
  · rw [State.holdRequest_queueFind hcheck hsetcode, hu]
  · rw [hpost _ _ hlock, State.lockLocally_queueFind hcheck hsetcode, hu]
  · rw [hpost _ _ hwipe, hu]
  · exact hu
  · exact hu

theorem exhausted_iff (sup : Supply) (r : RoundRec) (x : Request) :
    exhausted sup r x = true ↔ served sup r x = false ∧ x.inFlight = true ∧ x.replaced = false ∧ x.kind.retryable = true
      ∧ 10 ≤ x.retries := by
  simp [exhausted, Config.maxRetries, and_assoc]

/-- In the ACCEPT field the request in flight is the round's (R49). -/
theorem FlightIsTheRounds.kind_of_accept {s : State} {r : RoundRec} {b : Nat} (h : FlightIsTheRounds s)
    (hin : InRound s r (.inField .accept b)) {x : Request} (hx : x ∈ s.eng.queue) (hf : x.inFlight = true) :
    r.kind = some x.kind := by
  have hview := hin.view
  have hpos := hin.pos
  rcases h.flight x hx hf with ⟨a, ha⟩ | ⟨r', hr', hk⟩
  · rcases h.header _ _ ha with ⟨hidle, -⟩ | ⟨-, -, _, -, ⟨⟨_, hp⟩, -⟩ | ⟨hp | ⟨_, hp⟩, -⟩⟩
    · exact absurd (hview.symm.trans hidle) nofun
    · exact absurd (hpos.symm.trans hp) nofun
    · exact absurd (hpos.symm.trans hp) nofun
    · exact absurd (hpos.symm.trans hp) nofun
  · rw [← hk, Option.some.inj (hin.record.symm.trans hr')]

/-- A request of the round's kind that had its retries and is not served sets ROLL_SHORT, and a ROLL request is queued anew
in STARTING (R51). -/
theorem State.roundOver_settle_exhausted {s u : State} {x : RoundRec} {y : Request} (hstep : OwnerStep y.kind s u)
    (hrises : QueueRises s.eng.queue) (hstn : u.sup.stn = s.sup.stn) (hnow : u.now = s.now) (hy : y ∈ s.eng.queue)
    (hspent : exhausted s.sup x y = true) :
    (u.roundOver x).settle.stat.flags.has .rollShort = true
      ∧ (y.kind = .roll → (u.roundOver x).settle.grd.state = .starting →
          queueFind .roll (u.roundOver x).settle.eng.queue
            = some { kind := .roll, arg := 0, retries := 0, notBefore := some (s.now + 100) }) := by
  obtain ⟨hserved, hflight, hreplaced, hretry, hten⟩ := (exhausted_iff _ _ _).1 hspent
  have hheld : ¬HoldsBack s y.kind := by
    intro hc
    rcases hc with ⟨hk, -⟩ | ⟨hk, -⟩ <;> simp [hk, RoundKind.retryable] at hretry
  have hdue := hstep.trans (State.takeDueDeadline_ownerStep y.kind u)
  generalize hv : u.takeDueDeadline = v at hdue
  have hvstn : v.sup.stn = s.sup.stn := by rw [← hv]; simpa using hstn
  have hvnow : v.now = s.now := by rw [← hv]; simpa using hnow
  have hfind : queueFind y.kind v.eng.queue = some y := (hdue.request hheld).trans (hrises.find hy)
  have hspent' : exhausted v.sup x y = true :=
    (exhausted_iff _ _ _).2 ⟨(served_congr hvstn _ _).trans hserved, hflight, hreplaced, hretry, hten⟩
  have hmem : y ∈ v.eng.queue.filter (exhausted v.sup x) := List.mem_filter.2 ⟨(queueFind_kind hfind).1, hspent'⟩
  refine ⟨?_, fun hroll hend => ?_⟩
  · have hshort : (v.endQueue x).stat.flags.has .rollShort = true := by
      unfold State.endQueue
      dsimp only
      rw [if_neg (by simpa using List.ne_nil_of_mem hmem)]
      exact State.setFlag_has _ _
    have hstat : (u.roundOver x).settle.stat = ((v.endQueue x).recordRound x).stat := by simp [State.roundOver, hv]
    rw [hstat]
    exact State.recordRound_has hshort x
  · have hstart : v.grd.state = .starting := by
      have hgrd : (u.roundOver x).grd = v.grd := by rw [(u.roundOver_rest x).2.1, hv]
      have hmay := (u.roundOver x).settle_triggersMay
      rw [hend, hgrd] at hmay
      rcases hmay with h | ⟨-, h | h | h⟩ | ⟨-, h⟩
      · exact h.symm
      all_goals exact absurd h nofun
    have hagain : v.rollAgain x = true := by
      simp only [State.rollAgain, Bool.and_eq_true, List.any_eq_true, beq_iff_eq]
      exact ⟨⟨y, hmem, hroll⟩, hstart⟩
    have hgone : queueFind .roll (v.eng.queue.filterMap (endRequest v.sup v.now x)) = none := by
      rw [queueFind_filterMap_endRequest _ _ _ _ (hdue.rises hrises), ← hroll, hfind, Option.bind_some,
        endRequest_retried ((served_congr hvstn _ _).trans hserved) hflight hreplaced hretry, if_neg (by omega)]
    rw [State.settle_queueFind_same (by simp) (by simp) (by simp) (by simp), State.roundOver_queue, hv, State.endQueue_queue,
      if_pos hagain, queueFind_queueInsert _ _ _ hgone, if_pos rfl, hvnow]
    rfl

end Sys2Proof.Machine

end


section
/-! PROOF. What the actions of an event and the set-aside presses leave of session marks, deadline and guard state (R66,
R106, R118, R130), and what a rejected round's owners and the queue do (R45, R85, R97, R141, R174). -/

namespace Sys2Proof.Machine

/-! ## Session marks -/

theorem State.setGuard_session {g : GuardState} (hg : ¬(g = .opened ∨ g = .admin)) (s : State) :
    (s.setGuard g).gate.session = s.gate.session := by
  by_cases h : s.grd.state = g
  · rw [State.setGuard_self h]
  · rw [(State.setGuard_marks h).1, if_neg hg]

theorem State.endClosing_session (s : State) : s.endClosing.gate.session = s.gate.session := by
  unfold State.endClosing
  exact State.setGuard_session (by split <;> simp) _

theorem State.lockLocally_session (s : State) : s.lockLocally.gate.session = s.gate.session := by
  have hclosing : ∀ u : State, (u.setGuard .closing).gate.session = u.gate.session := State.setGuard_session (by simp)
  unfold State.lockLocally State.drained
  dsimp only
  split
  · split
    · split
      · rw [State.endClosing_session, hclosing]
      · rw [hclosing]
    · rw [hclosing]
  · rfl

theorem State.takeDeadline_session (s : State) : s.takeDeadline.gate.session = s.gate.session := by
  unfold State.takeDeadline
  split
  · exact State.setGuard_session (by simp) s
  · rfl

theorem State.holdRequest_session (s : State) (n : Nat) : (s.holdRequest n).gate.session = s.gate.session := by
  rcases s.holdRequest_cases n with hr | ⟨tal, due, -, -, hr | ⟨-, hr⟩⟩ <;> rw [hr]
  rw [State.setGuard_session (by simp)]

theorem State.takeDueDeadline_session (s : State) : s.takeDueDeadline.gate.session = s.gate.session := by
  rcases s.takeDueDeadline_cases with hd | ⟨-, -, -, hd⟩ <;> rw [hd]
  rw [State.setGuard_session (by simp)]

theorem State.drain_session (s : State) : s.drain.gate.session = s.gate.session :=
  s.drain_keeps_all (fun u => u.gate.session = s.gate.session) (fun _ _ h => h)
    (fun u n h => (u.holdRequest_session n).trans h) (fun u h => u.lockLocally_session.trans h)
    (fun u k a h => by simpa using h) (fun u n h => h) (fun _ _ _ h => h) rfl

theorem State.settle_session (s : State) : s.settle.gate.session = s.gate.session := by
  have hdecided : s.drain.regate.gate.session = s.drain.gate.session := by simp
  unfold State.settle
  rcases s.drain.regate.grantPort_cases with hg | ⟨-, e, -, hg⟩ | ⟨r, -, -, -, hg⟩ <;>
    simp [hg, s.drain_session, State.issueErase, State.issueAccess]

theorem State.keypadLock_session (s : State) : s.keypadLock.gate.session = s.gate.session := by
  simpa [State.keypadLock] using s.lockLocally_session

theorem State.chordInIdle_session (s : State) (d : Digit) : (s.chordInIdle d).gate.session = s.gate.session := by
  unfold State.chordInIdle
  repeat' split
  all_goals simp [State.keypadLock_session, State.sessionToggle, State.toggleMarkLock, apply_ite State.gate, apply_ite Gate.session]

theorem State.takeChord_session (s : State) (d : Digit) : (s.takeChord d).gate.session = s.gate.session := by
  unfold State.takeChord
  repeat' split
  all_goals simp [State.keypadLock_session, State.chordInIdle_session]

/-- No press opens the station, and no press sets a session mark itself (R73, R74). -/
theorem State.takePress_session (s : State) (k : Key) : (s.takePress k).gate.session = s.gate.session := by
  unfold State.takePress
  repeat' split
  all_goals simp [State.takeChord_session]

theorem State.takeSetAside_session (s : State) : s.takeSetAside.gate.session = s.gate.session := by
  have hall : ∀ (l : List Key) (u : State), (l.foldl State.takePress u).gate.session = u.gate.session := by
    intro l
    induction l with
    | nil => exact fun _ => rfl
    | cons k l ih => exact fun u => (ih _).trans (u.takePress_session k)
  exact hall _ _

/-! ## Guard state -/

/-- A press locks an open station at most (R71). -/
theorem State.takePress_state {s : State} (h : ¬(s.grd.state = .opened ∨ s.grd.state = .admin)) (k : Key) :
    (s.takePress k).grd.state = s.grd.state := by
  have hchord : ∀ d, s.takeChord d = s := fun d => if_neg h
  unfold State.takePress
  split
  · split
    · rfl
    · rfl
    · simp
    · split
      · simp
      · rw [hchord]
    · simp
    · simp
  · rfl

theorem State.takeSetAside_state {s : State} (h : ¬(s.grd.state = .opened ∨ s.grd.state = .admin)) :
    s.takeSetAside.grd.state = s.grd.state := by
  have hall : ∀ (l : List Key) (u : State), u.grd.state = s.grd.state → (l.foldl State.takePress u).grd.state = s.grd.state := by
    intro l
    induction l with
    | nil => exact fun _ hu => hu
    | cons k l ih => exact fun u hu => ih _ ((State.takePress_state (by rwa [hu]) k).trans hu)
  exact hall _ _ rfl

/-! ## Deadline -/

/-- A deadline stands, at a moment or later. -/
def State.heldUntil (s : State) (m : Nat) : Prop := ∃ d, s.tal.deadline = some d ∧ m ≤ d

theorem State.moveDeadline_deadline (s : State) (d n : Nat) : (s.moveDeadline d n).tal.deadline = some d := by
  unfold State.moveDeadline
  simp [apply_ite State.tal]

theorem State.holdRequest_heldUntil_request (s : State) (n : Nat) : (s.holdRequest n).heldUntil (s.now + 1000 * n) := by
  by_cases hle : ∃ d, s.tal.deadline = some d ∧ s.now + 1000 * n ≤ d
  · obtain ⟨d, hd, hn⟩ := hle
    rw [State.holdRequest_of_le hd hn]
    exact ⟨d, hd, hn⟩
  · rw [State.holdRequest_of_lt fun d hd => Nat.lt_of_not_le fun hn => hle ⟨d, hd, hn⟩]
    exact ⟨_, s.moveDeadline_deadline _ _, le_rfl⟩

theorem State.heldUntil.holdRequest {s : State} {m : Nat} (h : s.heldUntil m) (n : Nat) : (s.holdRequest n).heldUntil m := by
  obtain ⟨d, hd, hm⟩ := h
  by_cases hle : s.now + 1000 * n ≤ d
  · rw [State.holdRequest_of_le hd hle]
    exact ⟨d, hd, hm⟩
  · have hlt : ∀ d', s.tal.deadline = some d' → d' < s.now + 1000 * n := by
      intro d' hd'
      cases hd.symm.trans hd'
      exact Nat.lt_of_not_le hle
    rw [State.holdRequest_of_lt hlt]
    exact ⟨_, s.moveDeadline_deadline _ _, by omega⟩

theorem State.heldUntil.congr {s u : State} {m : Nat} (h : s.heldUntil m) (hu : u.tal.deadline = s.tal.deadline) :
    u.heldUntil m := by
  obtain ⟨d, hd, hm⟩ := h
  exact ⟨d, hu.trans hd, hm⟩

/-- The actions of an event move a deadline later only (R106, R119). -/
theorem State.heldUntil.settle {s : State} {m : Nat} (h : s.heldUntil m) : s.settle.heldUntil m := by
  have hdrain : s.drain.heldUntil m :=
    s.drain_keeps_all (State.heldUntil · m) (fun _ _ h => h) (fun _ n h => h.holdRequest n)
      (fun _ h => h.congr (by simp)) (fun _ _ _ h => h.congr (by simp)) (fun _ _ h => h) (fun _ _ _ h => h) h
  refine hdrain.congr ?_
  simp [State.settle]

theorem State.takeGap_heldUntil (s : State) : s.takeGap.heldUntil (s.now + 1000) :=
  State.heldUntil.congr (s := s.holdRequest 1) (s.holdRequest_heldUntil_request 1) (by simp [State.takeGap, Config.minGapSeconds])

theorem State.takeGap_state {s : State} (h : s.grd.state = .locked ∨ s.grd.state = .held) : s.takeGap.grd.state = .held := by
  have hhold : (s.holdRequest 1).grd.state = .locked ∨ (s.holdRequest 1).grd.state = .held := by
    rcases s.holdRequest_state 1 with hs | ⟨-, hs⟩
    · rwa [hs]
    · exact .inr hs
  show (s.holdRequest 1).takeDeadline.grd.state = .held
  rw [State.takeDeadline_grd]
  rcases hhold with hs | hs <;> simp [hs]

end Sys2Proof.Machine

end


section
/-! PROOF. A round rejected at a missing mark (R25, R34, R36, R45, R85, R97, R141, R174; log 23). -/

namespace Sys2Proof.Machine

/-! ## The owners' part -/

theorem RoundRec.reject_fields (r : RoundRec) (sup : Supply) :
    (r.reject sup).kind = r.kind ∧ (r.reject sup).arg = r.arg ∧ (r.reject sup).answered = r.answered
      ∧ (r.reject sup).staged = r.staged ∧ (r.reject sup).made = r.made ∧ (r.reject sup).holdEnded = r.holdEnded
      ∧ (r.reject sup).disagreed = r.disagreed :=
  ⟨rfl, rfl, rfl, rfl, rfl, rfl, rfl⟩

theorem RoundRec.uncarry_fields (r : RoundRec) (f : Flag) :
    (r.uncarry f).kind = r.kind ∧ (r.uncarry f).arg = r.arg ∧ (r.uncarry f).answered = r.answered
      ∧ (r.uncarry f).staged = r.staged ∧ (r.uncarry f).made = r.made ∧ (r.uncarry f).holdEnded = r.holdEnded
      ∧ (r.uncarry f).disagreed = r.disagreed ∧ (r.uncarry f).part = r.part :=
  ⟨rfl, rfl, rfl, rfl, rfl, rfl, rfl, rfl⟩

/-- What a rejected round's owners do at a station that had not refused the observer (R45, R85, R97, R141, R174). -/
structure VoidEnds (r : RoundRec) (s u : State) : Prop where
  check : r.kind = some .check → u.cred.roundEntry = none
    ∧ (r.answered = true → r.disagreed = true → u.stat.flags.has .splitEntry = true)
    ∧ (r.disagreed = false → r.made = true → r.holdEnded = true →
        u.heldUntil (s.now + 1000) ∧ (s.grd.state = .locked ∨ s.grd.state = .held → u.grd.state = .held))
  setcode : r.kind = some .setcode → u.cred.genKey = none ∧ u.cred.roundChange = none
  session : r.kind = some .setmark → r.staged = true → r.arg.getLsbD 15 = false → u.gate.staging = none
  staged : r.kind = some .setmark → r.staged = true → r.arg.getLsbD 15 = true →
    (∀ p d, s.gate.pmBusy = some (.stage p d) → u.gate.pmBusy = some (.stage p true))
      ∧ ∀ p, s.gate.pmBusy = none → s.gate.pmWaiting = [] → s.gate.pendingMark = some p → s.grd.state ≠ .strapFault →
        u.gate.pendingMark = none ∧ u.gate.pmBusy = some .empty
  fit : r.kind = some .fit → u.stat.fit = none

theorem State.discardMark_staging {s : State} {p : PendingMark} {d : Bool} (h : s.gate.pmBusy = some (.stage p d)) :
    s.discardMark.gate.pmBusy = some (.stage p true) := by
  simp [State.discardMark, h]

theorem State.discardMark_stored {s : State} {p : PendingMark} (hbusy : s.gate.pmBusy = none) (hwait : s.gate.pmWaiting = [])
    (hmark : s.gate.pendingMark = some p) (hstrap : s.grd.state ≠ .strapFault) :
    s.discardMark.gate.pendingMark = none ∧ s.discardMark.gate.pmBusy = some .empty := by
  simp [State.discardMark, hbusy, hwait, hmark, State.askPm, State.mayStore, hstrap, State.beginPm]

theorem State.ownersVoid_setmark {s : State} {r : RoundRec} (hkind : r.kind = some .setmark) (hstaged : r.staged = true) :
    s.ownersVoid r = if r.arg.getLsbD 15 then s.discardMark else { s with gate := { s.gate with staging := none } } := by
  unfold State.ownersVoid
  rw [hkind]
  exact if_pos hstaged

theorem State.ownersVoid_check {s u : State} {r : RoundRec} (hkind : r.kind = some .check)
    (hu : (if r.disagreed && r.answered then s.setFlag .splitEntry else if r.made && r.holdEnded then s.takeGap else s) = u) :
    s.ownersVoid r = { u with cred := { u.cred with roundEntry := none } } := by
  unfold State.ownersVoid
  rw [hkind, ← hu]

theorem State.ownersVoid_ends (s : State) (r : RoundRec) : VoidEnds r s (s.ownersVoid r) where
  check hkind := by
    refine ⟨by rw [State.ownersVoid_check hkind rfl], fun hans hdis => ?_, fun hdis hmade hhold => ?_⟩
    · rw [State.ownersVoid_check hkind (if_pos (by simp [hans, hdis]))]
      exact s.setFlag_has _
    · rw [State.ownersVoid_check hkind ((if_neg (by simp [hdis])).trans (if_pos (by simp [hmade, hhold])))]
      exact ⟨s.takeGap_heldUntil, State.takeGap_state⟩
  setcode hkind := by simp [State.ownersVoid, hkind]
  session hkind hstaged hfixed := by
    rw [State.ownersVoid_setmark hkind hstaged, if_neg (Bool.eq_false_iff.1 hfixed)]
  staged hkind hstaged hfixed := by
    rw [State.ownersVoid_setmark hkind hstaged, if_pos hfixed]
    exact ⟨fun p d => State.discardMark_staging, fun p => State.discardMark_stored⟩
  fit hkind := by simp [State.ownersVoid, hkind]

/-! ## The rest of the event -/

/-- What follows the owners' part in a rejection (R5, R14, R50, R66). -/
def State.rejectionOver (s : State) (x : RoundRec) : State :=
  (s.takeDueDeadline.endQueue x).repeatTallyAndOwed.repeatJournal.lockForLine.takeSetAside

theorem State.rejectTo_eq {s : State} {r : RoundRec} (h : s.eng.round = some r) (line : LineIf)
    (hvoid : (r.reject s.sup).cls = some .void) :
    s.rejectTo line
      = (({ s with line := line, eng := { s.eng with round := none } } : State).ownersVoid
          (r.reject s.sup)).rejectionOver (r.reject s.sup) := by
  unfold State.rejectTo
  rw [h]
  dsimp only
  unfold State.ownersReject State.rejectionOver
  rw [if_pos hvoid]

theorem State.rejectionOver_state {s : State} (h : s.grd.state = .held) (x : RoundRec) :
    (s.rejectionOver x).grd.state = .held := by
  have hdue : s.takeDueDeadline.grd.state = .held := by
    rcases s.takeDueDeadline_cases with hd | ⟨hlocked, -⟩
    · rw [hd]
      exact h
    · exact absurd (h.symm.trans hlocked) nofun
  have hqueue : (s.takeDueDeadline.endQueue x).repeatTallyAndOwed.repeatJournal.grd.state = .held := by simpa using hdue
  have hlock : (s.takeDueDeadline.endQueue x).repeatTallyAndOwed.repeatJournal.lockForLine
      = (s.takeDueDeadline.endQueue x).repeatTallyAndOwed.repeatJournal := if_neg (by rw [hqueue]; simp)
  unfold State.rejectionOver
  rw [hlock, State.takeSetAside_state (by rw [hqueue]; simp), hqueue]

theorem State.rejectionOver_has {s : State} {f : Flag} (h : s.stat.flags.has f = true) (x : RoundRec) :
    (s.rejectionOver x).stat.flags.has f = true := by
  have hdue : s.takeDueDeadline.stat.flags.has f = true := by simpa using h
  have hover : (s.rejectionOver x).stat = (s.takeDueDeadline.endQueue x).stat := by
    simp [State.rejectionOver]
  rw [hover]
  exact State.endQueue_has hdue x

/-- What a rejected round's owners did stands at the event's end. -/
theorem VoidEnds.settle {r : RoundRec} {s u : State} (h : VoidEnds r s u) (x : RoundRec) :
    VoidEnds r s (u.rejectionOver x).settle where
  check hkind := by
    obtain ⟨entry, split, gap⟩ := h.check hkind
    refine ⟨?_, fun hans hdis => ?_, fun hdis hmade hhold => ⟨?_, fun hstate => ?_⟩⟩
    · simpa [State.rejectionOver] using entry
    · simpa using State.rejectionOver_has (split hans hdis) x
    · refine State.heldUntil.settle ((gap hdis hmade hhold).1.congr ?_)
      simp [State.rejectionOver]
    · have hmay := (u.rejectionOver x).settle_triggersMay
      rw [State.rejectionOver_state ((gap hdis hmade hhold).2 hstate) x] at hmay
      exact hmay.held
  setcode hkind := by
    obtain ⟨gen, change⟩ := h.setcode hkind
    exact ⟨by simpa [State.rejectionOver] using gen,
      by simpa [State.rejectionOver] using change⟩
  session hkind hstaged hfixed := by
    simpa [State.rejectionOver] using h.session hkind hstaged hfixed
  staged hkind hstaged hfixed := by
    simpa [State.rejectionOver] using h.staged hkind hstaged hfixed
  fit hkind := by
    simpa [State.rejectionOver] using h.fit hkind

/-! ## The missing mark -/

/-- The station just before a round is rejected at a mark that stays out (R25, R34). -/
def State.markOut (s : State) : State :=
  State.setFlag { s with notices := [], line := s.line.turnRecessive s.now } .badRound

theorem exec_fieldMark_recessive {s : State} {r : RoundRec} {f : Field} (hin : InRound s r (.atMark f))
    (hopener : s.line.role ≠ .opener) (hcontender : s.line.role ≠ .contender) :
    exec (.fieldMark .recessive) s = .next (s.markOut.rejectTo s.markOut.line.toRejecting).settle := by
  have hout : ({ s with notices := [] } : State).markStands .recessive = false := by
    simp [State.markStands, hopener, hcontender]
  show execFieldMark .recessive s = _
  simp only [execFieldMark, event_next, State.fieldMarked, hin.record, hin.pos]
  rw [hout]
  rfl

theorem State.rejectionOver_session (s : State) (x : RoundRec) : (s.rejectionOver x).gate.session = s.gate.session := by
  have hlock : ∀ u : State, u.lockForLine.gate.session = u.gate.session := by
    intro u
    unfold State.lockForLine
    split
    · simpa using u.lockLocally_session
    · rfl
  unfold State.rejectionOver
  rw [State.takeSetAside_session, hlock]
  simpa using s.takeDueDeadline_session

theorem State.ownersVoid_session (s : State) (r : RoundRec) : (s.ownersVoid r).gate.session = s.gate.session := by
  have hgap : s.takeGap.gate.session = s.gate.session := (State.takeDeadline_session _).trans (s.holdRequest_session _)
  unfold State.ownersVoid
  dsimp only
  repeat' split
  all_goals simp [hgap]

/-- The station without its round, silent, as the owners take a rejection (R36; log 23). -/
def State.markRejects (s : State) : State :=
  { s.markOut with line := s.markOut.line.toRejecting, eng := { s.markOut.eng with round := none } }

/-- The station after a round was rejected at a mark that stays out. -/
def State.markRejected (s : State) (r : RoundRec) : State :=
  (s.markRejects.ownersVoid ((r.uncarry .badRound).reject s.markOut.sup)).rejectionOver
    ((r.uncarry .badRound).reject s.markOut.sup)

/-- A mark that stays out rejects the round: the owners void it, and the rest follows. -/
theorem exec_fieldMark_rejects {s : State} {r : RoundRec} {f : Field} (hin : InRound s r (.atMark f))
    (hopener : s.line.role ≠ .opener) (hcontender : s.line.role ≠ .contender) (hpart : r.part ≠ .refusing) :
    exec (.fieldMark .recessive) s = .next (s.markRejected r).settle := by
  have hround : s.markOut.eng.round = some (r.uncarry .badRound) := by simp [State.markOut, hin.record]
  have hvoid : ((r.uncarry .badRound).reject s.markOut.sup).cls = some .void := by
    rw [RoundRec.reject_void (r := r.uncarry .badRound) hpart]
  rw [exec_fieldMark_recessive hin hopener hcontender, State.rejectTo_eq hround _ hvoid]
  rfl

theorem State.markRejects_frame (s : State) :
    s.markRejects.now = s.now ∧ s.markRejects.grd = s.grd ∧ s.markRejects.gate = s.gate ∧ s.markRejects.cred = s.cred
      ∧ s.markRejects.tal = s.tal ∧ s.markRejects.pol = s.pol ∧ s.markRejects.eng.round = none := by
  simp [State.markRejects, State.markOut]

/-- The owners' part is said of the record that was rejected. -/
theorem VoidEnds.of_reject {r : RoundRec} {f : Flag} {sup : Supply} {s u : State}
    (h : VoidEnds ((r.uncarry f).reject sup) s u) : VoidEnds r s u :=
  ⟨h.check, h.setcode, h.session, h.staged, h.fit⟩

theorem State.markRejected_ends (s : State) (r : RoundRec) : VoidEnds r s.markRejects (s.markRejected r).settle :=
  VoidEnds.of_reject ((s.markRejects.ownersVoid_ends _).settle _)

theorem State.rejectionOver_round {s : State} (h : s.eng.round = none) (x : RoundRec) :
    (s.rejectionOver x).eng.round = none := by
  have hqueue := State.endQueue_round (s := s.takeDueDeadline) (by simpa using h) x
  simpa [State.rejectionOver] using hqueue

theorem State.ownersVoid_round {s : State} (h : s.eng.round = none) (r : RoundRec) : (s.ownersVoid r).eng.round = none := by
  unfold State.ownersVoid
  dsimp only
  repeat' split
  all_goals simp [h]

theorem State.markRejected_rest (s : State) (r : RoundRec) :
    (s.markRejected r).settle.eng.round = none ∧ (s.markRejected r).settle.tal.tally = s.tal.tally
      ∧ (s.markRejected r).settle.cred.slots = s.cred.slots ∧ (s.markRejected r).settle.cred.liveStamp = s.cred.liveStamp
      ∧ (s.markRejected r).settle.cred.pendingSlot = s.cred.pendingSlot
      ∧ (s.markRejected r).settle.gate.session = s.gate.session
      ∧ (s.markRejected r).settle.gate.fixedMarks = s.gate.fixedMarks
      ∧ (s.markRejected r).settle.pol.table = s.pol.table := by
  obtain ⟨-, -, gate, cred, tal, pol, round⟩ := s.markRejects_frame
  have hround : (s.markRejected r).eng.round = none := State.rejectionOver_round (State.ownersVoid_round round _) _
  have hsession : (s.markRejected r).gate.session = s.gate.session := by
    unfold State.markRejected
    rw [State.rejectionOver_session, State.ownersVoid_session, gate]
  refine ⟨by simpa using hround, ?_, ?_, ?_, ?_, (State.settle_session _).trans hsession, ?_, ?_⟩
  all_goals simp [State.markRejected, State.rejectionOver, gate, cred, tal, pol]

end Sys2Proof.Machine

end


section
/-! PROOF. The end of a round: class, record, requests and rejection (R36, R44, R45, R49 to R51, R54). -/

namespace Sys2Proof.Machine

/-- The round left, the line at GAP, the absence counts taken (R25, R54). -/
theorem roundEnd_records {s : State} {r : RoundRec} {b : Nat} {m : Slots} (hin : InRound s r (.inField .accept b))
    (hpart : r.part ≠ .rejected) :
    ∃ t, exec (.roundEnd m) s = .next t ∧ t.eng.round = none
      ∧ (t.sup.activity ≠ .dormant → ∀ l : LineIf,
          l = s.line.sensed .accept (lineRead s.sup s.line.offer .accept (m.setWidth 256)) s.now →
          t.line = { view := .gap, idleTimer := l.idleTimer, stuckTimer := l.stuckTimer })
      ∧ (r.answered = false → t.eng.absence = s.eng.absence)
      ∧ ∀ i : Fin 8, r.answered = true →
        t.eng.absence.get i =
          if s.sup.roster ≤ i.val ∨ i.val = s.sup.stn.toNat then s.eng.absence.get i
          else if r.answer.getLsbD i.val then 0 else min 3 (s.eng.absence.get i + 1) := by
  have hsup := s.roundLeft_sup m
  refine ⟨_, exec_roundEnd hin m, ?_, fun hawake l hl => ?_, ?_, ?_⟩
  · have hround := State.roundOver_round (State.ownersEnd_round (s := s.roundLeft m) rfl (r.closedBy s m)
      (classifyRound s.sup (r.takenBy s m))) (r.closedBy s m)
    simpa using hround
  · subst hl
    rw [State.settle_line_awake hawake]
    simp only [State.roundOver_frame, State.ownersEnd_frame]
    rfl
  · intro hans
    simp [State.roundOver_absence, (r.closedBy_fields s m).2.2.1, hans, (s.roundLeft_frame m).2.2.2.2.2.2.2.2.2.2.1]
  · intro i hans
    have happlies := classifyRound_applies (r := r.takenBy s m) hpart hans s.sup
    simp [State.roundOver_absence, (r.closedBy_fields s m).2.2.1, (r.closedBy_fields s m).2.2.2, hans, happlies,
      countsAfter_get, hsup.2.1, hsup.2.2]
    rfl

/-- Settles O43: the class and the records of a round's end, what each request gets, and the owners' part in a rejection. -/
theorem roundEndsClassRecordAndRequests : Obligations.RoundEndsClassRecordAndRequests := by
  unfold Obligations.RoundEndsClassRecordAndRequests
  refine ⟨⟨fun sup r hpart => ?classes, fun sup r => ⟨fun hp ha => RoundRec.reject_refused hp ha sup,
      fun hp => RoundRec.reject_void hp sup⟩, fun size n h => rosterSet_getLsbD h n,
      fun s r b m hin hpart => roundEnd_records hin hpart⟩,
    fun sup now r x => ⟨fun h => endRequest_of_served h now, fun h hf => endRequest_resting h hf now,
      fun h hf hr => endRequest_replaced h hf hr now, fun h hf hr => ⟨fun hk => ?once, fun hk => ?retried⟩, served_iff sup r x⟩,
    fun s r x b m hin hpart horder hx => ?queue,
    fun s r f hin hopener hcontender hpart => ?void⟩
  case classes =>
    cases hans : r.answered with
    | true => rw [classifyRound_answered hpart hans]; rfl
    | false => simp [classifyRound, hpart, hans]
  case once => exact endRequest_once h hf hr (by rcases hk with hk | hk | hk <;> rw [hk] <;> rfl) now
  case retried => exact endRequest_retried h hf hr (by rcases hk with hk | hk | hk | hk <;> rw [hk] <;> rfl) now
  case queue =>
    obtain rfl : x = r.closedBy s m := hx
    have hsup := s.roundLeft_sup m
    refine ⟨_, exec_roundEnd hin m, fun k harmed hstarting hwipe hentry hchange => ?_,
      fun hflight y hy hf hreplaced hten hserved hkind => ?_⟩
    · have hstep := State.ownersEnd_ownerStep k (s.roundLeft m) (r.closedBy s m) (classifyRound s.sup (r.takenBy s m))
        hwipe fun _ _ => hstarting
      have hfree : ¬HoldsBack (s.roundLeft m) k := by
        rintro (⟨hk, hh⟩ | ⟨hk, hh⟩)
        · exact hh (hentry hk)
        · exact hh (hchange hk)
      rw [State.roundOver_settle_request hstep harmed hstarting (by simp [State.roundLeft]) horder.rising hfree (by simp)
        (by simp)]
      have hsame : endRequest (s.roundLeft m).sup (s.roundLeft m).now (r.closedBy s m) = endRequest s.sup s.now (r.closedBy s m) :=
        funext fun y => endRequest_congr hsup.2.1 _ _ _
      rw [hsame]
      rfl
    · have hround := hflight.kind_of_accept hin hy hf
      have hretry : y.kind.retryable = true := by rcases hkind with hk | hk | hk | hk <;> rw [hk] <;> rfl
      have hstep := State.ownersEnd_ownerStep y.kind (s.roundLeft m) (r.closedBy s m)
        (classifyRound s.sup (r.takenBy s m)) (fun hk hc => ?_) (fun hk hc => ?_)
      · exact State.roundOver_settle_exhausted (s := s.roundLeft m) hstep horder.rising (by simp) (by simp) hy
          ((exhausted_iff _ _ _).2 ⟨(served_congr hsup.2.1 _ _).trans hserved, hf, hreplaced, hretry, hten⟩)
      · exact absurd (hround.symm.trans hc) (by simp [hk])
      · exact absurd (hround.symm.trans hc) (by simp [hk])
  case void =>
    obtain ⟨now, grd, gate, -⟩ := s.markRejects_frame
    obtain ⟨round, tally, slots, stamp, pending, session, marks, table⟩ := s.markRejected_rest r
    have hends := s.markRejected_ends r
    refine ⟨_, exec_fieldMark_rejects hin hopener hcontender hpart, round, tally, slots, stamp, pending, session, marks, table,
      fun hkind => ?_, hends.setcode, fun hkind hstaged => ?_, hends.fit⟩
    · have hcheck := hends.check hkind
      rwa [now, grd] at hcheck
    · have hstaged' := hends.staged hkind hstaged
      rw [gate, grd] at hstaged'
      exact ⟨hends.session hkind hstaged, fun p d hfixed => (hstaged' hfixed).1 p d, fun p hfixed => (hstaged' hfixed).2 p⟩

end Sys2Proof.Machine

end


section
/-! PROOF. The end of a ROLL round: tally, order, stamps, policy checks and count (R57 to R62, R148). -/

namespace Sys2Proof.Machine

/-! ## The stamp effects -/

/-- The code table in force: slots, live stamp, pending slot. -/
def State.tableIs (s : State) (slots : Vector CodeSlot 4) (stamp : BitVec 16) (pending : Option PendingChange) : Prop :=
  s.cred.slots = slots ∧ s.cred.liveStamp = stamp ∧ s.cred.pendingSlot = pending

theorem State.tableIs.congr {s u : State} {slots : Vector CodeSlot 4} {stamp : BitVec 16} {pending : Option PendingChange}
    (h : s.tableIs slots stamp pending) (hslots : u.cred.slots = s.cred.slots) (hstamp : u.cred.liveStamp = s.cred.liveStamp)
    (hpending : u.cred.pendingSlot = s.cred.pendingSlot) : u.tableIs slots stamp pending :=
  ⟨hslots.trans h.1, hstamp.trans h.2.1, hpending.trans h.2.2⟩

theorem State.promote_spec (s : State) (p : PendingChange) :
    (s.promote p).tableIs (s.cred.slots.set p.target.val ⟨p.contents, p.stamp⟩) p.stamp none
      ∧ (s.promote p).grd = s.grd ∧ (s.promote p).cred.genKey = s.cred.genKey := by
  unfold State.promote
  rw [State.askCred_plain rfl]
  exact ⟨⟨rfl, rfl, rfl⟩, rfl, rfl⟩

theorem State.discardPending_spec (s : State) :
    s.discardPending.tableIs s.cred.slots s.cred.liveStamp none ∧ s.discardPending.grd = s.grd := by
  unfold State.discardPending
  rw [State.askCred_plain rfl]
  exact ⟨⟨rfl, rfl, rfl⟩, rfl⟩

/-- A pending change comes into force at ROLL (R59). -/
def promotesAt (s : State) (p : PendingChange) (high low : Nat) : Prop :=
  low < high ∧ s.cred.liveStamp.toNat = low ∧ p.stored = true ∧ p.stamp.toNat = high

/-- What ROLL does with the pending slot before the station is found behind or not (R59). -/
structure StampsTaken (s : State) (high low : Nat) (u : State) : Prop where
  empty : s.cred.pendingSlot = none → u.tableIs s.cred.slots s.cred.liveStamp none ∧ u.grd = s.grd
  above : ∀ p, s.cred.pendingSlot = some p → p.stored = true → high < p.stamp.toNat →
    u.tableIs s.cred.slots s.cred.liveStamp none ∧ u.grd = s.grd
  promoted : ∀ p, s.cred.pendingSlot = some p → promotesAt s p high low →
    u.tableIs (s.cred.slots.set p.target.val ⟨p.contents, p.stamp⟩) p.stamp none
      ∧ (s.grd.matched = some p.target → u.grd.mustChange = false) ∧ u.grd.holdDue = s.grd.holdDue
      ∧ u.grd.state = if s.grd.state = .blank then .locked else s.grd.state
  kept : ∀ p, s.cred.pendingSlot = some p → p.stamp.toNat ≤ high → ¬promotesAt s p high low →
    u.tableIs s.cred.slots s.cred.liveStamp s.cred.pendingSlot ∧ u.grd = s.grd
  state : s.grd.state ≠ .blank → u.grd.state = s.grd.state

theorem State.promoteAt_promotes {s : State} {p : PendingChange} {high low : Nat} (hp : s.cred.pendingSlot = some p)
    (h : promotesAt s p high low) :
    s.promoteAt high low = if s.grd.state = .blank then ((s.promote p).clearMustChange p.target).setGuard .locked
      else (s.promote p).clearMustChange p.target := by
  have hgrd : ((s.promote p).clearMustChange p.target).grd.state = s.grd.state := by simp
  unfold State.promoteAt
  rw [hp]
  dsimp only
  refine (if_pos h).trans ?_
  rw [hgrd]

theorem State.promoteAt_keeps_pending {s : State} {p : PendingChange} {high low : Nat} (hp : s.cred.pendingSlot = some p)
    (h : ¬promotesAt s p high low) : s.promoteAt high low = s := by
  unfold State.promoteAt
  rw [hp]
  exact if_neg h

theorem State.promoteAt_no_pending {s : State} (hp : s.cred.pendingSlot = none) (high low : Nat) : s.promoteAt high low = s := by
  unfold State.promoteAt
  rw [hp]

theorem State.discardAbove_eq {s : State} {p : PendingChange} {high : Nat} (hp : s.cred.pendingSlot = some p) :
    s.discardAbove high = if p.stored = true ∧ p.stamp.toNat > high then s.discardPending else s := by
  unfold State.discardAbove
  rw [hp]

theorem State.clearMustChange_spec (s : State) (target : CodeSlotNo) :
    (s.clearMustChange target).cred = s.cred ∧ (s.clearMustChange target).grd.state = s.grd.state
      ∧ (s.clearMustChange target).grd.holdDue = s.grd.holdDue
      ∧ (s.clearMustChange target).grd.matched = s.grd.matched
      ∧ (s.grd.matched = some target → (s.clearMustChange target).grd.mustChange = false) := by
  unfold State.clearMustChange
  split
  · exact ⟨rfl, rfl, rfl, rfl, fun _ => rfl⟩
  · next h => exact ⟨rfl, rfl, rfl, rfl, fun h' => absurd h' h⟩

theorem State.promoteAt_state {s : State} (h : s.grd.state ≠ .blank) (high low : Nat) :
    (s.promoteAt high low).grd.state = s.grd.state := by
  unfold State.promoteAt
  split
  · split
    · rw [if_neg (by simpa using h)]
      simp
    · rfl
  · rfl

theorem State.stamps_taken (s : State) (high low : Nat) : StampsTaken s high low ((s.discardAbove high).promoteAt high low) where
  empty hp := by
    have hd : s.discardAbove high = s := by simp [State.discardAbove, hp]
    rw [hd, State.promoteAt_no_pending hp]
    exact ⟨⟨rfl, rfl, hp⟩, rfl⟩
  above p hp hstored habove := by
    obtain ⟨htable, hgrd⟩ := s.discardPending_spec
    rw [State.discardAbove_eq hp, if_pos ⟨hstored, habove⟩, State.promoteAt_no_pending htable.2.2]
    exact ⟨htable, hgrd⟩
  promoted p hp hat := by
    obtain ⟨htable, hgrd, -⟩ := s.promote_spec p
    obtain ⟨hcred, hstate, hdue, -, hmust⟩ := (s.promote p).clearMustChange_spec p.target
    have hnot : ¬(p.stored = true ∧ p.stamp.toNat > high) := fun h => absurd hat.2.2.2 (Nat.ne_of_gt h.2)
    rw [State.discardAbove_eq hp, if_neg hnot, State.promoteAt_promotes hp hat]
    rw [hgrd] at hstate hdue hmust
    by_cases hblank : s.grd.state = .blank
    · rw [if_pos hblank]
      refine ⟨htable.congr (by simp) (by simp) (by simp), fun hm => ?_, ?_, ?_⟩
      · simpa using hmust hm
      · simpa using hdue
      · simp [hblank]
    · rw [if_neg hblank]
      refine ⟨htable.congr (by rw [hcred]) (by rw [hcred]) (by rw [hcred]), hmust, hdue, ?_⟩
      rw [hstate, if_neg hblank]
  kept p hp hle hnot := by
    have hbelow : ¬(p.stored = true ∧ p.stamp.toNat > high) := fun h => absurd h.2 (Nat.not_lt.2 hle)
    rw [State.discardAbove_eq hp, if_neg hbelow, State.promoteAt_keeps_pending hp hnot]
    exact ⟨⟨rfl, rfl, rfl⟩, rfl⟩
  state hblank := by
    rw [State.promoteAt_state (by simpa using hblank)]
    simp

/-! ## The parts of a ROLL's end -/

/-- The greatest tally is adopted (R57). -/
def State.rollTallied (s : State) (r : RoundRec) : State := s.setTally (adoptedTally s.tal.tally (r.numberOf .tallyHi))

/-- Then an order shown is taken (R58, R148). -/
def State.rollOrdered (s : State) (r : RoundRec) : State :=
  if adoptsOrder s r then (s.rollTallied r).takeOrder .adopted else s.rollTallied r

/-- The stamp effects are taken: no order is shown or held (R59). -/
def takesStamps (s : State) (r : RoundRec) : Bool := r.mapOf .wipeAny == 0 && s.wipe.journal.phase == .none

/-- Then the stamp effects (R59). -/
def State.rollStamped (s : State) (r : RoundRec) : State :=
  if takesStamps s r then (s.rollOrdered r).stampEffects (r.numberOf .stampHi) (r.numberOf .stampLo) else s.rollOrdered r

/-- Then policy checks and count (R60, R62). -/
def State.rollTaken (s : State) (r : RoundRec) (cls : RoundClass) : State :=
  let u := if r.numberOf .policyLo ≠ r.numberOf .policyHi then (s.rollStamped r).setFlag .policySplit else s.rollStamped r
  let u := { u with eng := { u.eng with rollCount := rollCountAfter cls s.eng.rollCount } }
  if reachesRollLimit cls s.eng.rollCount then u.setFlag .rollShort else u

/-- STARTING ends with a COMPLETE ROLL and with the PARTIAL ROLL that reaches ROLL_LIMIT (R61, R62). -/
theorem State.endRoll_eq (s : State) (r : RoundRec) (cls : RoundClass) :
    s.endRoll r cls
      = if (s.rollTaken r cls).grd.state = .starting ∧ (cls = .complete ∨ reachesRollLimit cls s.eng.rollCount = true) then
          (s.rollTaken r cls).endStarting (adoptsOrder s r)
        else s.rollTaken r cls := by
  have hadopts : adoptsOrder (s.setTally (adoptedTally s.tal.tally (r.numberOf .tallyHi))) r = adoptsOrder s r := by
    simp [adoptsOrder]
  have hwipe : (s.setTally (adoptedTally s.tal.tally (r.numberOf .tallyHi))).wipe = s.wipe := by simp
  have hcount : ∀ (c : Prop) [Decidable c], (if c then (s.rollStamped r).setFlag .policySplit else s.rollStamped r).eng.rollCount
      = s.eng.rollCount := by
    intro c _
    simp [State.rollStamped, State.rollOrdered, State.rollTallied, apply_ite State.eng, apply_ite Engine.rollCount]
  unfold State.rollTaken
  rw [← hcount (r.numberOf .policyLo ≠ r.numberOf .policyHi)]
  unfold State.endRoll
  dsimp only
  rw [hadopts, hwipe]
  rfl

end Sys2Proof.Machine

end


section
/-! PROOF. What a ROLL round leaves at the event's end (R57 to R60, R62, R148). -/

namespace Sys2Proof.Machine

theorem StampsTaken.congr {s s' u u' : State} {high low : Nat} (h : StampsTaken s high low u) (hcred : s'.cred = s.cred)
    (hgrd : s'.grd = s.grd) (hslots : u'.cred.slots = u.cred.slots) (hstamp : u'.cred.liveStamp = u.cred.liveStamp)
    (hpending : u'.cred.pendingSlot = u.cred.pendingSlot) (hgrd' : u'.grd = u.grd) : StampsTaken s' high low u' := by
  have hat : ∀ p, promotesAt s' p high low ↔ promotesAt s p high low := fun p => by unfold promotesAt; rw [hcred]
  obtain ⟨empty, above, promoted, kept, state⟩ := h
  refine ⟨?_, ?_, ?_, ?_, ?_⟩ <;> rw [hgrd] <;> try rw [hcred]
  · exact fun hp => ⟨(empty hp).1.congr hslots hstamp hpending, hgrd'.trans (empty hp).2⟩
  · exact fun p hp hs ha => ⟨(above p hp hs ha).1.congr hslots hstamp hpending, hgrd'.trans (above p hp hs ha).2⟩
  · intro p hp ha
    obtain ⟨htable, hgrd⟩ := promoted p hp ((hat p).1 ha)
    rw [hgrd']
    exact ⟨htable.congr hslots hstamp hpending, hgrd⟩
  · exact fun p hp hle hn => ⟨(kept p hp hle (mt (hat p).2 hn)).1.congr hslots hstamp hpending,
      hgrd'.trans (kept p hp hle (mt (hat p).2 hn)).2⟩
  · rw [hgrd']
    exact state

theorem State.rollOrdered_frame (s : State) (r : RoundRec) :
    (s.rollOrdered r).cred = s.cred ∧ (s.rollOrdered r).grd = s.grd ∧ (s.rollOrdered r).stat = s.stat
      ∧ (s.rollOrdered r).gate = s.gate ∧ (s.rollOrdered r).eng = s.eng ∧ (s.rollOrdered r).now = s.now
      ∧ (s.rollOrdered r).tal.tally = max s.tal.tally (min (r.numberOf .tallyHi) 99)
      ∧ (s.rollOrdered r).tal.deadline = s.tal.deadline ∧ (s.rollOrdered r).tal.holdOwed = s.tal.holdOwed
      ∧ (s.rollOrdered r).wipe.journal = s.wipe.journal := by
  have htally : (s.rollTallied r).tal.tally = max s.tal.tally (min (r.numberOf .tallyHi) 99) := by
    unfold State.rollTallied State.setTally
    split
    · next h => exact h
    · rfl
  unfold State.rollOrdered
  split <;> simp [htally] <;> simp [State.rollTallied]

/-- No order is taken where none is to be adopted (R58, R148). -/
theorem State.rollOrdered_wipe {s : State} {r : RoundRec} (h : adoptsOrder s r = false) : (s.rollOrdered r).wipe = s.wipe := by
  simp [State.rollOrdered, h, State.rollTallied]

/-- An order adopted is pending, and with no store in progress its ORDERED store begins (R144, R148). -/
theorem State.rollOrdered_adopts {s : State} {r : RoundRec} (h : adoptsOrder s r = true) (hstrap : s.grd.state ≠ .strapFault)
    (hbusy : s.wipe.busy = none) :
    (s.rollOrdered r).wipe = { s.wipe with
      orderPending := some .adopted
      again := none
      busy := some (orderedJournal .adopted) } := by
  simp [State.rollOrdered, h, State.takeOrder, State.askJournal, State.mayStore, hstrap, hbusy, State.rollTallied]

theorem takesStamps_not_adopts {s : State} {r : RoundRec} (h : takesStamps s r = true) : adoptsOrder s r = false := by
  simp only [takesStamps, Bool.and_eq_true, beq_iff_eq] at h
  simp [adoptsOrder, h.1]

/-- What policy checks and count add (R60, R62). -/
theorem State.rollTaken_frame (s : State) (r : RoundRec) (cls : RoundClass) :
    (s.rollTaken r cls).cred = (s.rollStamped r).cred ∧ (s.rollTaken r cls).grd = (s.rollStamped r).grd
      ∧ (s.rollTaken r cls).wipe = (s.rollOrdered r).wipe ∧ (s.rollTaken r cls).tal = (s.rollOrdered r).tal
      ∧ (s.rollTaken r cls).now = s.now
      ∧ (s.rollTaken r cls).gate.fixedMarks = s.gate.fixedMarks
      ∧ (s.rollTaken r cls).gate.eraseWaiting = s.gate.eraseWaiting
      ∧ (s.rollTaken r cls).sup.state = s.sup.state
      ∧ (s.rollTaken r cls).eng.rollCount = rollCountAfter cls s.eng.rollCount := by
  obtain ⟨-, -, -, gate, eng, now, -⟩ := s.rollOrdered_frame r
  have hsup : (s.rollOrdered r).sup.state = s.sup.state := by
    unfold State.rollOrdered
    split <;> simp [State.rollTallied]
  unfold State.rollTaken State.rollStamped
  dsimp only
  repeat' split
  all_goals simp [gate, now, hsup]

theorem State.rollStamped_off {s : State} {r : RoundRec} (h : takesStamps s r = false) : s.rollStamped r = s.rollOrdered r := by
  simp [State.rollStamped, h]

theorem State.rollTaken_stamps {s : State} {r : RoundRec} (h : takesStamps s r = true) (cls : RoundClass) :
    StampsTaken s (r.numberOf .stampHi) (r.numberOf .stampLo) (s.rollTaken r cls) := by
  obtain ⟨cred, grd, -⟩ := s.rollOrdered_frame r
  obtain ⟨cred', grd', -⟩ := s.rollTaken_frame r cls
  have hstamped : s.rollStamped r = (s.rollOrdered r).stampEffects (r.numberOf .stampHi) (r.numberOf .stampLo) := if_pos h
  refine ((s.rollOrdered r).stamps_taken (r.numberOf .stampHi) (r.numberOf .stampLo)).congr cred.symm grd.symm ?_ ?_ ?_ ?_
  · rw [cred', hstamped]
    simp [State.stampEffects]
  · rw [cred', hstamped]
    simp [State.stampEffects]
  · rw [cred', hstamped]
    simp [State.stampEffects]
  · rw [grd', hstamped]
    simp [State.stampEffects]

theorem State.rollTaken_unstamped {s : State} {r : RoundRec} (h : takesStamps s r = false) (cls : RoundClass) :
    (s.rollTaken r cls).cred = s.cred ∧ (s.rollTaken r cls).grd = s.grd := by
  obtain ⟨cred, grd, -⟩ := s.rollOrdered_frame r
  obtain ⟨cred', grd', -⟩ := s.rollTaken_frame r cls
  rw [cred', grd', State.rollStamped_off h, cred, grd]
  exact ⟨rfl, rfl⟩

/-! ## Flags -/

theorem State.setFlag_has_iff (s : State) (f g : Flag) :
    (s.setFlag g).stat.flags.has f = (s.stat.flags.has f || f == g) := by
  by_cases h : f = g
  · subst h
    rw [State.setFlag_has]
    simp
  · rw [State.setFlag_has_of_ne h, beq_eq_false_iff_ne.2 h, Bool.or_false]

theorem State.ite_setFlag_has (c : Prop) [Decidable c] (s : State) (f g : Flag) :
    (if c then s.setFlag g else s).stat.flags.has f = (s.stat.flags.has f || (f == g && decide c)) := by
  by_cases h : c
  · rw [if_pos h, State.setFlag_has_iff]
    simp [h]
  · rw [if_neg h]
    simp [h]

theorem State.rollStamped_has (s : State) (r : RoundRec) (f : Flag) :
    (s.rollStamped r).stat.flags.has f
      = (s.stat.flags.has f
        || (f == .tableSplit && decide (takesStamps s r = true ∧ (s.rollStamped r).cred.liveStamp.toNat < r.numberOf .stampHi))) := by
  have hstat := (s.rollOrdered_frame r).2.2.1
  cases h : takesStamps s r with
  | false => simp [State.rollStamped_off h, hstat]
  | true =>
    have hstamped : s.rollStamped r
        = (((s.rollOrdered r).discardAbove (r.numberOf .stampHi)).promoteAt (r.numberOf .stampHi) (r.numberOf .stampLo)).flagBehind
          (r.numberOf .stampHi) := if_pos h
    rw [hstamped]
    generalize hu : ((s.rollOrdered r).discardAbove (r.numberOf .stampHi)).promoteAt (r.numberOf .stampHi) (r.numberOf .stampLo)
      = u
    have hcred : (u.flagBehind (r.numberOf .stampHi)).cred = u.cred := by simp
    have hu' : u.stat = s.stat := by rw [← hu, ← hstat]; simp
    rw [hcred, State.flagBehind, State.ite_setFlag_has, hu']
    simp

/-- The flags after a ROLL: TABLE_SPLIT at a station behind, POLICY_SPLIT by unequal policy checks, ROLL_SHORT by the count
(R59, R60, R62). -/
theorem State.rollTaken_has (s : State) (r : RoundRec) (cls : RoundClass) (f : Flag) :
    (s.rollTaken r cls).stat.flags.has f
      = (((s.stat.flags.has f
        || (f == .tableSplit && decide (takesStamps s r = true ∧ (s.rollTaken r cls).cred.liveStamp.toNat < r.numberOf .stampHi)))
        || (f == .policySplit && decide (r.numberOf .policyLo ≠ r.numberOf .policyHi)))
        || (f == .rollShort && decide (reachesRollLimit cls s.eng.rollCount = true))) := by
  have hstat : ∀ (u : State) (e : Engine), ({ u with eng := e } : State).stat = u.stat := fun _ _ => rfl
  rw [(s.rollTaken_frame r cls).1, ← State.rollStamped_has]
  unfold State.rollTaken
  dsimp only
  rw [State.ite_setFlag_has, hstat, State.ite_setFlag_has]

/-- Queue and roster view set ROLL_SHORT and PEER_LOST alone (R51, R55). -/
theorem State.roundOver_has_of_ne {f : Flag} (hroll : f ≠ .rollShort) (hpeer : f ≠ .peerLost) (s : State) (x : RoundRec) :
    (s.roundOver x).stat.flags.has f = s.stat.flags.has f := by
  have hqueue : (s.takeDueDeadline.endQueue x).stat.flags.has f = s.stat.flags.has f := by
    unfold State.endQueue
    dsimp only
    split
    · simp
    · rw [State.setFlag_has_of_ne hroll]
      simp
  have hover : (s.roundOver x).stat = ((s.takeDueDeadline.endQueue x).recordRound x).stat := by simp [State.roundOver]
  rw [hover, State.recordRound_stat]
  split
  · rw [State.setFlag_has_of_ne hpeer, hqueue]
  · exact hqueue

/-- No action of an event sets must-change (R9). -/
theorem State.settle_mustChange {s : State} (h : s.grd.mustChange = false) : s.settle.grd.mustChange = false := by
  have hlock : ∀ u : State, u.grd.mustChange = false → u.lockLocally.grd.mustChange = false := by
    intro u hu
    unfold State.lockLocally State.drained State.endClosing
    dsimp only
    repeat' split
    all_goals simp [hu]
  rw [s.settle_grd]
  exact s.drain_keeps_all (fun u => u.grd.mustChange = false) (fun _ _ h => h) (fun u n h => by simpa using h) hlock
    (fun u k a h => by simpa using h) (fun u n h => h) (fun _ _ _ h => h) h

end Sys2Proof.Machine

end


section
/-! PROOF. A ROLL round brings stations together (R57 to R60, R62, R148). -/

namespace Sys2Proof.Machine

/-- The end of STARTING leaves what a ROLL has brought. -/
theorem State.endRoll_leaves (s : State) (r : RoundRec) (cls : RoundClass) :
    (s.endRoll r cls).tal.tally = max s.tal.tally (min (r.numberOf .tallyHi) 99)
      ∧ (s.endRoll r cls).stat = (s.rollTaken r cls).stat
      ∧ (s.endRoll r cls).cred.slots = (s.rollTaken r cls).cred.slots
      ∧ (s.endRoll r cls).cred.liveStamp = (s.rollTaken r cls).cred.liveStamp
      ∧ (s.endRoll r cls).cred.pendingSlot = (s.rollTaken r cls).cred.pendingSlot
      ∧ (s.endRoll r cls).wipe.journal = s.wipe.journal
      ∧ (s.endRoll r cls).wipe.orderPending = (s.rollOrdered r).wipe.orderPending
      ∧ (s.endRoll r cls).eng.rollCount = rollCountAfter cls s.eng.rollCount := by
  obtain ⟨-, -, -, -, -, -, tally, -, -, journal⟩ := s.rollOrdered_frame r
  obtain ⟨-, -, wipe, tal, -, -, -, -, count⟩ := s.rollTaken_frame r cls
  rw [s.endRoll_eq]
  split <;> simp [wipe, tal, count, tally, journal]

theorem State.endStarting_busy {s : State} {j : Journal} (h : s.wipe.busy = some j) (adopted : Bool) :
    (s.endStarting adopted).wipe.busy = some j ∧ (s.endStarting adopted).wipe.again = s.wipe.again := by
  have hstep : ∀ u : State, u.wipe = s.wipe → u.engineStep = u := fun u hu => by simp [State.engineStep, hu, h]
  unfold State.endStarting
  dsimp only
  split
  · rw [hstep _ (by simp)]
    split <;> simp [h]
  · split <;> simp [h]

theorem State.repeatJournal_none {s : State} (h : s.wipe.again = none) : s.repeatJournal = s := by
  unfold State.repeatJournal
  rw [h]

theorem State.roundOver_wipe_of_none {s : State} (h : s.wipe.again = none) (x : RoundRec) : (s.roundOver x).wipe = s.wipe := by
  unfold State.roundOver
  rw [State.repeatJournal_none (by simpa using h)]
  simp

/-- An order adopted at a ROLL is pending and its store has begun (R144, R148). -/
theorem State.endRoll_adopts {s : State} {r : RoundRec} (h : adoptsOrder s r = true) (hstrap : s.grd.state ≠ .strapFault)
    (hbusy : s.wipe.busy = none) (cls : RoundClass) :
    (s.endRoll r cls).wipe.busy = some (orderedJournal .adopted) ∧ (s.endRoll r cls).wipe.again = none := by
  have hwipe := (s.rollTaken_frame r cls).2.2.1
  rw [State.rollOrdered_adopts h hstrap hbusy] at hwipe
  rw [s.endRoll_eq]
  split
  · have hend := State.endStarting_busy (s := s.rollTaken r cls) (j := orderedJournal .adopted) (by rw [hwipe]) (adoptsOrder s r)
    rwa [hwipe] at hend
  · rw [hwipe]
    exact ⟨rfl, rfl⟩

theorem exec_roundEnd_roll {s : State} {r : RoundRec} {b : Nat} (hin : InRound s r (.inField .accept b)) (m : Slots)
    (hpart : r.part ≠ .rejected) (hans : r.answered = true) (hkind : r.kind = some .roll) :
    exec (.roundEnd m) s = .next (((s.roundLeft m).endRoll (r.closedBy s m)
      (classifyRound s.sup (r.takenBy s m))).roundOver (r.closedBy s m)).settle := by
  have happlies := classifyRound_applies (r := r.takenBy s m) hpart hans s.sup
  have howners : (s.roundLeft m).ownersEnd (r.closedBy s m) (classifyRound s.sup (r.takenBy s m))
      = (s.roundLeft m).endRoll (r.closedBy s m) (classifyRound s.sup (r.takenBy s m)) := by
    unfold State.ownersEnd
    rw [if_pos happlies, (r.closedBy_fields s m).1, hkind]
  rw [exec_roundEnd hin, howners]

theorem adoptsOrder_iff (s : State) (r : RoundRec) :
    adoptsOrder s r = true ↔ r.mapOf .wipeAny ≠ 0 ∧ s.wipe.journal.phase = .none ∧ s.wipe.orderPending = none := by
  simp [adoptsOrder, and_assoc]

theorem takesStamps_iff (s : State) (r : RoundRec) :
    takesStamps s r = true ↔ r.mapOf .wipeAny = 0 ∧ s.wipe.journal.phase = .none := by
  simp [takesStamps]

/-- What a ROLL brings shows at the event's end. -/
theorem State.endRoll_settle (s : State) (r x : RoundRec) (cls : RoundClass) :
    ((s.endRoll r cls).roundOver x).settle.tal.tally = max s.tal.tally (min (r.numberOf .tallyHi) 99)
      ∧ ((s.endRoll r cls).roundOver x).settle.cred.slots = (s.rollTaken r cls).cred.slots
      ∧ ((s.endRoll r cls).roundOver x).settle.cred.liveStamp = (s.rollTaken r cls).cred.liveStamp
      ∧ ((s.endRoll r cls).roundOver x).settle.cred.pendingSlot = (s.rollTaken r cls).cred.pendingSlot
      ∧ ((s.endRoll r cls).roundOver x).settle.wipe.journal = s.wipe.journal
      ∧ ((s.endRoll r cls).roundOver x).settle.wipe.orderPending = (s.rollOrdered r).wipe.orderPending
      ∧ ((s.endRoll r cls).roundOver x).settle.eng.rollCount = rollCountAfter cls s.eng.rollCount := by
  obtain ⟨tally, -, slots, stamp, pending, -, order, count⟩ := s.endRoll_leaves r cls
  simp [tally, slots, stamp, pending, order, count]

theorem State.endRoll_settle_tableSplit (s : State) (r x : RoundRec) (cls : RoundClass) :
    ((s.endRoll r cls).roundOver x).settle.stat.flags.has .tableSplit
      = (s.stat.flags.has .tableSplit || decide (takesStamps s r = true
          ∧ ((s.endRoll r cls).roundOver x).settle.cred.liveStamp.toNat < r.numberOf .stampHi)) := by
  have hstat := (s.endRoll_leaves r cls).2.1
  rw [(s.endRoll_settle r x cls).2.2.1]
  have hsettle : ((s.endRoll r cls).roundOver x).settle.stat = ((s.endRoll r cls).roundOver x).stat := by simp
  rw [hsettle, State.roundOver_has_of_ne (by simp) (by simp), hstat, State.rollTaken_has]
  have hpolicy : (Flag.tableSplit == Flag.policySplit) = false := rfl
  have hshort : (Flag.tableSplit == Flag.rollShort) = false := rfl
  simp [hpolicy, hshort]

/-- The stamps a ROLL has taken show at the event's end (R59, R95). -/
theorem State.endRoll_settle_stamps {s : State} {r : RoundRec} (h : takesStamps s r = true) (cls : RoundClass) (x : RoundRec) :
    (s.cred.pendingSlot = none →
        ((s.endRoll r cls).roundOver x).settle.tableIs s.cred.slots s.cred.liveStamp none)
      ∧ ∀ p, s.cred.pendingSlot = some p →
        (p.stored = true → r.numberOf .stampHi < p.stamp.toNat →
            ((s.endRoll r cls).roundOver x).settle.tableIs s.cred.slots s.cred.liveStamp none)
          ∧ (promotesAt s p (r.numberOf .stampHi) (r.numberOf .stampLo) →
            ((s.endRoll r cls).roundOver x).settle.tableIs
              (s.cred.slots.set p.target.val ⟨p.contents, p.stamp⟩) p.stamp none)
          ∧ (p.stamp.toNat ≤ r.numberOf .stampHi → ¬promotesAt s p (r.numberOf .stampHi) (r.numberOf .stampLo) →
            ((s.endRoll r cls).roundOver x).settle.tableIs s.cred.slots s.cred.liveStamp s.cred.pendingSlot) := by
  obtain ⟨-, slots, stamp, pending, -⟩ := s.endRoll_settle r x cls
  obtain ⟨empty, above, promoted, kept, -⟩ := State.rollTaken_stamps h cls
  exact ⟨fun hp => (empty hp).1.congr slots stamp pending, fun p hp =>
    ⟨fun hs ha => (above p hp hs ha).1.congr slots stamp pending, fun ha => (promoted p hp ha).1.congr slots stamp pending,
      fun hle hn => (kept p hp hle hn).1.congr slots stamp pending⟩⟩

/-- A change of the matched slot that came into force clears must-change (R95). -/
theorem State.endRoll_settle_mustChange {s : State} {r : RoundRec} {p : PendingChange} (h : takesStamps s r = true)
    (hp : s.cred.pendingSlot = some p) (ha : promotesAt s p (r.numberOf .stampHi) (r.numberOf .stampLo))
    (hmatched : s.grd.matched = some p.target) (cls : RoundClass) (x : RoundRec) :
    ((s.endRoll r cls).roundOver x).settle.grd.mustChange = false := by
  have hmust := ((State.rollTaken_stamps h cls).promoted p hp ha).2.1 hmatched
  have hend : ∀ (u : State) (adopted : Bool), u.grd.mustChange = false → (u.endStarting adopted).grd.mustChange = false := by
    intro u adopted hu
    unfold State.endStarting State.enterWiping
    dsimp only
    repeat' split
    all_goals simp [hu]
  refine State.settle_mustChange ?_
  rw [s.endRoll_eq]
  split
  · simpa using hend _ _ hmust
  · simpa using hmust

/-- A BLANK station that takes the change goes to LOCKED, or on to HELD (R4, R5, R95). -/
theorem State.endRoll_settle_blank {s : State} {r : RoundRec} {p : PendingChange} (h : takesStamps s r = true)
    (hp : s.cred.pendingSlot = some p) (ha : promotesAt s p (r.numberOf .stampHi) (r.numberOf .stampLo))
    (hblank : s.grd.state = .blank) (hn : Notice.startingEnded ∉ s.notices) (cls : RoundClass) (x : RoundRec) :
    (((s.endRoll r cls).roundOver x).settle.grd.state = .locked ∨ ((s.endRoll r cls).roundOver x).settle.grd.state = .held)
      ∧ (s.pol.armed = 0 → s.grd.holdDue = false → ((s.endRoll r cls).roundOver x).settle.grd.state = .locked) := by
  obtain ⟨-, -, hdue, hstate⟩ := (State.rollTaken_stamps h cls).promoted p hp ha
  rw [if_pos hblank] at hstate
  have hne : s.grd.state ≠ .starting := by simp [hblank]
  have hroll : s.endRoll r cls = s.rollTaken r cls := by
    rw [s.endRoll_eq, if_neg (by simp [hstate])]
  have hstep := State.endRoll_ownerStep .roll s r cls fun _ => hne
  rw [hroll] at hstep ⊢
  generalize s.rollTaken r cls = u at hdue hstate hstep
  refine ⟨?_, fun harmed hnone => ?_⟩
  · have hmay := u.roundOver_settle_triggersMay x
    rw [hstate] at hmay
    exact hmay.locked
  · have hquiet : Notice.startingEnded ∉ (u.roundOver x).notices :=
      mt State.roundOver_startingEnded ((State.takeDueDeadline_ownerStep .roll u).quiet (by simp [hstate]) (hstep.quiet hne hn))
    have hend := State.settle_unarmed (s := u.roundOver x) (by simpa using hstep.armed harmed) hquiet
    rw [hend.grd, State.roundOver_state_of_not_due (hdue.trans hnone), hstate]

theorem State.settle_busy (s : State) : s.settle.wipe.busy = s.wipe.busy := by simp

/-- Settles O44: the parts of a ROLL's end, carried to the end of the event. -/
theorem aRollBringsStationsTogether : Obligations.ARollBringsStationsTogether := by
  unfold Obligations.ARollBringsStationsTogether
  refine ⟨fun s r b m hin hpart hans hkind => ?brings, fun s r b m hin hpart hans hkind hstrap => ?stamps⟩
  case brings =>
    obtain ⟨tally, -, -, -, journal, order, count⟩ := (s.roundLeft m).endRoll_settle (r.closedBy s m) (r.closedBy s m)
      (classifyRound s.sup (r.takenBy s m))
    have hstat := ((s.roundLeft m).endRoll_leaves (r.closedBy s m) (classifyRound s.sup (r.takenBy s m))).2.1
    refine ⟨_, exec_roundEnd_roll hin m hpart hans hkind, tally, fun hpolicy => ?_, fun hany hphase hpending hbusy hstrap => ?_,
      fun hnone => ?_, journal, ?_⟩
    · have hhas : ((s.roundLeft m).endRoll (r.closedBy s m) (classifyRound s.sup (r.takenBy s m))).stat.flags.has .policySplit
          = true := by
        rw [hstat, State.rollTaken_has]
        simp [show (r.closedBy s m).numberOf .policyLo ≠ (r.closedBy s m).numberOf .policyHi from hpolicy]
      simpa using State.roundOver_has hhas (r.closedBy s m)
    · have hadopts : adoptsOrder (s.roundLeft m) (r.closedBy s m) = true := (adoptsOrder_iff _ _).2 ⟨hany, hphase, hpending⟩
      obtain ⟨hstore, hagain⟩ := State.endRoll_adopts hadopts hstrap hbusy (classifyRound s.sup (r.takenBy s m))
      refine ⟨?_, ?_⟩
      · rw [order, State.rollOrdered_adopts hadopts hstrap hbusy]
      · rw [State.settle_busy, State.roundOver_wipe_of_none hagain, hstore]
        rfl
    · have hadopts : adoptsOrder (s.roundLeft m) (r.closedBy s m) = false := by
        refine Bool.eq_false_iff.2 fun hc => ?_
        obtain ⟨hany, hphase, hpending⟩ := (adoptsOrder_iff _ _).1 hc
        exact hnone.elim (fun h => hany h) fun h => h.elim (fun h => h hphase) fun h => h hpending
      rw [order, State.rollOrdered_wipe hadopts]
      rfl
    · rw [count, classifyRound_answered (r := r.takenBy s m) hpart hans]
      show _ = if (r.takenBy s m).accept = _ then _ else _
      split <;> rfl
  case stamps =>
    refine ⟨_, exec_roundEnd_roll hin m hpart hans hkind, fun hoff => ?_, fun hany hphase => ?_⟩
    · have hnot : takesStamps (s.roundLeft m) (r.closedBy s m) = false := by
        refine Bool.eq_false_iff.2 fun hc => ?_
        obtain ⟨hany, hphase⟩ := (takesStamps_iff _ _).1 hc
        exact hoff.elim (fun h => h hany) fun h => h hphase
      obtain ⟨-, slots, stamp, pending, -⟩ := (s.roundLeft m).endRoll_settle (r.closedBy s m) (r.closedBy s m)
        (classifyRound s.sup (r.takenBy s m))
      rw [(State.rollTaken_unstamped hnot _).1] at slots stamp pending
      refine ⟨slots, stamp, pending, ?_⟩
      rw [State.endRoll_settle_tableSplit, hnot]
      simp [State.roundLeft]
    · have htakes : takesStamps (s.roundLeft m) (r.closedBy s m) = true := (takesStamps_iff _ _).2 ⟨hany, hphase⟩
      obtain ⟨empty, pending⟩ := State.endRoll_settle_stamps htakes (classifyRound s.sup (r.takenBy s m)) (r.closedBy s m)
      refine ⟨?_, empty, fun p hp hstored => ?_⟩
      · rw [State.endRoll_settle_tableSplit, htakes]
        simp [State.roundLeft]
        rfl
      obtain ⟨above, promoted, kept⟩ := pending p hp
      refine ⟨above hstored, fun hlow hlive hhigh => ?_, fun hle hnot => kept hle fun ha => hnot ⟨ha.1, ha.2.1, ha.2.2.2⟩⟩
      have ha : promotesAt (s.roundLeft m) p ((r.closedBy s m).numberOf .stampHi) ((r.closedBy s m).numberOf .stampLo) :=
        ⟨hlow, hlive, hstored, hhigh⟩
      obtain ⟨slots, stamp, none⟩ := promoted ha
      exact ⟨slots, stamp, none, fun hm => State.endRoll_settle_mustChange htakes hp ha hm _ _,
        fun hblank => State.endRoll_settle_blank htakes hp ha hblank (by simp [State.roundLeft]) _ _⟩

end Sys2Proof.Machine

end


section
/-! PROOF. The end of STARTING (R3, R61, R62, R110, R148, R150, R151, R153, R154). -/

namespace Sys2Proof.Machine

/-! ## The two ends -/

theorem tableEmpty_iff (slots : Vector CodeSlot 4) :
    tableEmpty slots = true ↔ ∀ i : CodeSlotNo, (slots.get i).contents = .empty := by
  simp [tableEmpty, mem_slotNumbers]

/-- A station with an order held or adopted: WIPING, before the engine's step (R3, R16). -/
def State.wipingStart (s : State) : State := (s.note .startingEnded).enterWiping

theorem State.wipingStart_frame (s : State) :
    s.wipingStart.wipe = s.wipe ∧ s.wipingStart.gate.fixedMarks = s.gate.fixedMarks
      ∧ s.wipingStart.gate.eraseWaiting = s.gate.eraseWaiting ∧ s.wipingStart.grd.state = .wiping
      ∧ s.wipingStart.sup.state = s.sup.state ∧ s.wipingStart.toBank = s.toBank ∧ s.wipingStart.now = s.now := by
  simp [State.wipingStart]

theorem State.endStarting_wipes {s : State} {adopted : Bool} (h : s.wipe.journal.phase ≠ .none ∨ adopted = true) :
    s.endStarting adopted = if s.wipe.journal.phase = .done then s.wipingStart.engineStep.reachDone
      else s.wipingStart.engineStep := by
  have hjournal : s.wipingStart.engineStep.wipe.journal = s.wipe.journal := by simp [s.wipingStart_frame.1]
  unfold State.endStarting
  rw [if_pos h]
  dsimp only
  rw [← State.wipingStart, hjournal]

theorem State.endStarting_wiping {s : State} {adopted : Bool} (h : s.wipe.journal.phase ≠ .none ∨ adopted = true) :
    (s.endStarting adopted).grd.state = .wiping := by
  rw [State.endStarting_wipes h]
  split <;> simp [s.wipingStart_frame.2.2.2.1]

theorem State.endStarting_rests {s : State} {adopted : Bool} (h : ¬(s.wipe.journal.phase ≠ .none ∨ adopted = true)) :
    (s.endStarting adopted).grd.state
      = if tableEmpty s.cred.slots = true then .blank
        else if s.tal.holdOwed ≠ 0 ∨ s.tal.deadline ≠ none then .held else .locked := by
  have hslots : ∀ (c : Prop) [Decidable c] (tal : TallyHold), ((if c then { s with tal := tal } else s).note .startingEnded).cred = s.cred := by
    intro c _ tal
    split <;> rfl
  have hahead : ((if s.tal.holdOwed ≠ 0 then
        { s with tal := { s.tal with deadline := some (s.now + 1000 * s.tal.holdOwed) } } else s).note .startingEnded).deadlineAhead
      = decide (s.tal.holdOwed ≠ 0 ∨ s.tal.deadline ≠ none) := by
    by_cases ho : s.tal.holdOwed = 0
    · cases hd : s.tal.deadline <;> simp [ho, hd, State.deadlineAhead]
    · simp [ho, State.deadlineAhead]
  unfold State.endStarting
  rw [if_neg h]
  dsimp only
  rw [State.setGuard_state, hslots, hahead]
  simp

/-- A state that is not LOCKED and not open stays to the event's end. -/
theorem State.roundOver_settle_stays {s : State} (ho : ¬(s.grd.state = .opened ∨ s.grd.state = .admin))
    (hl : s.grd.state ≠ .locked) (x : RoundRec) : (s.roundOver x).settle.grd.state = s.grd.state :=
  (s.roundOver_settle_triggersMay x).stays ho hl

/-! ## The engine at the end of STARTING -/

theorem EngineIdle.wipingStart {s : State} (hbus : s.sup.state = .bus) (hbusy : s.wipe.busy = none)
    (hagain : s.wipe.again = none) (herase : s.wipe.erase = .absent) (hgate : s.gate.eraseWaiting = none) :
    EngineIdle s.wipingStart := by
  obtain ⟨wipe, -, waiting, state, sup, -⟩ := s.wipingStart_frame
  exact ⟨state, sup.trans hbus, by rw [wipe, hbusy], by rw [wipe, hagain], by rw [wipe, herase], waiting.trans hgate⟩

theorem State.engineStep_rests {s : State} (h : s.sup.state ≠ .bus ∨ s.wipe.journal.phase = .done) : s.engineStep = s := by
  unfold State.engineStep
  split
  · next hc =>
    rcases h with hs | hp
    · exact absurd hc.2.1 hs
    · rw [hp]
  · rfl

theorem PassStepTaken.congr {j : Journal} {s s' t : State} (h : PassStepTaken j s t)
    (hmarks : s'.gate.fixedMarks = s.gate.fixedMarks) (hbank : s'.toBank = s.toBank) : PassStepTaken j s' t := by
  obtain ⟨past, erases, skips⟩ := h
  unfold EraseAsked at erases
  refine ⟨past, ?_, ?_⟩
  · unfold EraseAsked
    rwa [hmarks, hbank]
  · rwa [hmarks]

theorem queuePost_resting {k : RoundKind} {q : List Request} (h : ∀ x, queueFind k q = some x → x.inFlight = false) (a : Arg) :
    ∃ y, queueFind k (queuePost k a q) = some y ∧ y.inFlight = false := by
  cases hq : queueFind k q with
  | none => exact ⟨_, queueFind_queuePost_none hq a, rfl⟩
  | some r =>
    by_cases ha : r.arg = a
    · subst ha
      exact ⟨r, by rw [queuePost_same hq, hq], h r hq⟩
    · exact ⟨_, queueFind_queuePost_other hq ha, by simp [Request.repost, h r hq]⟩

/-- A request that does not fly and is not of the round's kind stands at the event's end. -/
theorem State.roundOver_settle_resting {s : State} {x : RoundRec} {k : RoundKind} (hcheck : k ≠ .check)
    (hsetcode : k ≠ .setcode) (hkind : x.kind ≠ some k)
    (h : ∃ y, queueFind k s.eng.queue = some y ∧ y.inFlight = false) :
    (queueFind k (s.roundOver x).settle.eng.queue).isSome = true := by
  obtain ⟨y, hy, hrest⟩ := h
  have hdue : queueFind k s.takeDueDeadline.eng.queue = some y := by
    rcases s.takeDueDeadline_cases with hd | ⟨-, -, -, hd⟩ <;> rw [hd]
    · exact hy
    · rw [State.setGuard_queueFind hcheck hsetcode]
      exact hy
  generalize hv : s.takeDueDeadline = v at hdue
  obtain ⟨hmem, hyk⟩ := queueFind_kind hdue
  have hserved : served v.sup x y = false := by
    refine Bool.eq_false_iff.2 fun hs => hkind ?_
    rw [((served_iff _ _ _).1 hs).1, hyk]
  have hkept : y ∈ v.eng.queue.filterMap (endRequest v.sup v.now x) :=
    List.mem_filterMap.2 ⟨y, hmem, endRequest_resting hserved hrest _⟩
  refine State.settle_queueFind_isSome hcheck hsetcode ?_
  rw [State.roundOver_queue, hv, State.endQueue_queue, queueFind_isSome]
  refine ⟨y, ?_, hyk⟩
  split
  · exact (mem_queueInsert _ _ _).2 (.inr hkept)
  · exact hkept

/-! ## What the end into WIPING does with the journal -/

/-- No journal store is under way and no erase is asked for. -/
structure EngineFree (s : State) : Prop where
  busy : s.wipe.busy = none
  again : s.wipe.again = none
  erase : s.wipe.erase = .absent
  gate : s.gate.eraseWaiting = none

section

variable {s : State} {x : RoundRec} {adopted : Bool} (hfree : EngineFree s)

include hfree

theorem EngineFree.settle_keyGone (hbus : s.sup.state = .bus) (hphase : s.wipe.journal.phase = .keyGone) :
    ((s.endStarting adopted).roundOver x).settle.wipe.busy = some { s.wipe.journal with phase := .passing } := by
  have hidle := EngineIdle.wipingStart hbus hfree.busy hfree.again hfree.erase hfree.gate
  have hwipe := s.wipingStart_frame.1
  rw [State.endStarting_wipes (.inl (by simp [hphase])), if_neg (by simp [hphase]), hidle.step_keyGone (by rw [hwipe, hphase]),
    State.settle_busy, State.roundOver_wipe_of_none (by rw [hidle.again]), hwipe]

theorem EngineFree.settle_passing (hbus : s.sup.state = .bus) (hphase : s.wipe.journal.phase = .passing) :
    PassStepTaken s.wipe.journal s ((s.endStarting adopted).roundOver x).settle := by
  have hidle := EngineIdle.wipingStart hbus hfree.busy hfree.again hfree.erase hfree.gate
  obtain ⟨hwipe, hmarks, -, -, -, hbank, -⟩ := s.wipingStart_frame
  rw [State.endStarting_wipes (.inl (by simp [hphase])), if_neg (by simp [hphase]), hidle.step_passing (by rw [hwipe, hphase])]
  have hstep := hidle.passStep (u := s.wipingStart.passStep.roundOver x)
    (State.roundOver_wipe_of_none (by simpa using hidle.again) x) (by simp) (by simp)
  rw [hwipe] at hstep
  exact hstep.congr hmarks.symm hbank.symm

/-- On battery, and with DONE in force, the engine takes no step (R153, R154). -/
theorem EngineFree.settle_rests (hwipes : s.wipe.journal.phase ≠ .none)
    (hrests : s.sup.state ≠ .bus ∨ s.wipe.journal.phase = .done) :
    ((s.endStarting adopted).roundOver x).settle.wipe.busy = none
      ∧ ((s.endStarting adopted).roundOver x).settle.wipe.erase = .absent := by
  obtain ⟨hwipe, -, hgate, -, hsup, -⟩ := s.wipingStart_frame
  have hstep : s.wipingStart.engineStep = s.wipingStart := State.engineStep_rests (by rwa [hsup, hwipe])
  have hend : (s.endStarting adopted).wipe.busy = none ∧ (s.endStarting adopted).wipe.again = none
      ∧ (s.endStarting adopted).wipe.erase = .absent ∧ (s.endStarting adopted).gate.eraseWaiting = none := by
    rw [State.endStarting_wipes (.inl hwipes), hstep]
    split <;> simp [hwipe, hgate, hfree.busy, hfree.again, hfree.erase, hfree.gate]
  obtain ⟨hbusy, hagain, herase, hwaiting⟩ := hend
  rw [State.settle_wipe_of_no_erase (by simpa using hwaiting), State.roundOver_wipe_of_none hagain]
  exact ⟨hbusy, herase⟩

omit hfree in
theorem State.endStarting_done (hphase : s.wipe.journal.phase = .done) :
    (s.endStarting adopted) = s.wipingStart.reachDone := by
  rw [State.endStarting_wipes (.inl (by simp [hphase])), if_pos hphase,
    State.engineStep_rests (.inr (by rw [s.wipingStart_frame.1, hphase]))]

omit hfree in
theorem State.endStarting_settle_done (hphase : s.wipe.journal.phase = .done) :
    (∀ e : Extent, ((s.endStarting adopted).roundOver x).settle.gate.fixedMarks.get e =
        if s.gate.fixedMarks.get e = .frozen then .normal else s.gate.fixedMarks.get e)
      ∧ ((s.endStarting adopted).roundOver x).settle.wipe.progressTimer = some (s.now + 1000) := by
  obtain ⟨-, hmarks, -, hstate, -, -, hnow⟩ := s.wipingStart_frame
  obtain ⟨marks, -, timer, -⟩ := State.reachDone_done (s := s.wipingStart) (by simp [hstate])
  rw [State.endStarting_done hphase]
  refine ⟨fun e => ?_, ?_⟩
  · rw [← hmarks, ← marks e]
    simp
  · rw [← hnow, ← timer]
    simp

omit hfree in
theorem State.endStarting_settle_progress (hphase : s.wipe.journal.phase = .done) (hkind : x.kind = some .roll)
    (hrest : ∀ y, queueFind .progress s.eng.queue = some y → y.inFlight = false) :
    (queueFind .progress ((s.endStarting adopted).roundOver x).settle.eng.queue).isSome = true := by
  have hstate := s.wipingStart_frame.2.2.2.1
  have hqueue := (State.reachDone_done (s := s.wipingStart) (by simp [hstate])).queue
  refine State.roundOver_settle_resting (by simp) (by simp) (by simp [hkind]) ?_
  rw [State.endStarting_done hphase, hqueue]
  refine queuePost_resting (fun y hy => hrest y ?_) 0
  rw [← hy]
  simp [State.wipingStart, State.enterWiping, State.setGuard_queueFind]

end

/-! ## The ROLL that ends STARTING -/

theorem State.rollTaken_ownerStep (k : RoundKind) (s : State) (r : RoundRec) (cls : RoundClass) :
    OwnerStep k s (s.rollTaken r cls) := by
  have horder : ∀ u : State, OwnerStep k u (u.takeOrder .adopted) := fun u =>
    .of_same (by simp) (by simp) (by simp) (by simp) (by simp) (by simp)
  have htally : OwnerStep k s (s.rollTallied r) := State.setTally_ownerStep k s _
  have hordered : OwnerStep k s (s.rollOrdered r) := .ite (fun _ => htally.trans (horder _)) fun _ => htally
  have hstamped : OwnerStep k s (s.rollStamped r) :=
    .ite (fun _ => hordered.trans (State.stampEffects_ownerStep k _ _ _)) fun _ => hordered
  unfold State.rollTaken
  dsimp only
  refine .trans ?_ (.ite (fun _ => State.setFlag_ownerStep k _ _) fun _ => .refl k _)
  refine .rolls ?_ _
  exact .ite (fun _ => hstamped.trans (State.setFlag_ownerStep k _ _)) fun _ => hstamped

/-- The station as a ROLL has been taken leaves what the end of STARTING reads as it was (R57 to R62). -/
structure RollReads (s u : State) : Prop where
  state : u.grd.state = .starting
  phase : u.wipe.journal = s.wipe.journal
  owed : u.tal.holdOwed = s.tal.holdOwed
  deadline : u.tal.deadline = s.tal.deadline
  marks : u.gate.fixedMarks = s.gate.fixedMarks
  waiting : u.gate.eraseWaiting = s.gate.eraseWaiting
  supply : u.sup.state = s.sup.state
  now : u.now = s.now
  bank : u.toBank = s.toBank
  progress : u.wipe.progressTimer = s.wipe.progressTimer
  erase : u.wipe.erase = s.wipe.erase
  held : s.wipe.journal.phase ≠ .none → u.wipe = s.wipe
  queue : queueFind .progress u.eng.queue = queueFind .progress s.eng.queue

theorem State.rollTaken_reads {s : State} (h : s.grd.state = .starting) (r : RoundRec) (cls : RoundClass) :
    RollReads s (s.rollTaken r cls) := by
  obtain ⟨-, -, -, -, -, -, -, deadline, owed, journal⟩ := s.rollOrdered_frame r
  obtain ⟨-, -, wipe, tal, now, marks, waiting, supply, -⟩ := s.rollTaken_frame r cls
  have hordered : (s.rollOrdered r).wipe.progressTimer = s.wipe.progressTimer ∧ (s.rollOrdered r).wipe.erase = s.wipe.erase := by
    unfold State.rollOrdered
    split <;> simp [State.rollTallied]
  refine ⟨?_, by rw [wipe, journal], by rw [tal, owed], by rw [tal, deadline], marks, waiting, supply, now, ?_,
    by rw [wipe, hordered.1], by rw [wipe, hordered.2], fun hphase => ?_, ?_⟩
  · cases htakes : takesStamps s r with
    | false => rw [(State.rollTaken_unstamped htakes cls).2, h]
    | true => rw [(State.rollTaken_stamps htakes cls).state (by simp [h]), h]
  · unfold State.rollTaken State.rollStamped State.rollOrdered State.rollTallied
    dsimp only
    repeat' split
    all_goals simp
  · have hnot : adoptsOrder s r = false := Bool.eq_false_iff.2 fun hc => hphase ((adoptsOrder_iff s r).1 hc).2.1
    rw [wipe, State.rollOrdered_wipe hnot]
  · exact (State.rollTaken_ownerStep .progress s r cls).request fun hc => by rcases hc with ⟨h, -⟩ | ⟨h, -⟩ <;> cases h

theorem roll_ends_iff {s : State} {r : RoundRec} (hpart : r.part ≠ .rejected) (hans : r.answered = true) (count : Nat) :
    (classifyRound s.sup r = .complete ∨ reachesRollLimit (classifyRound s.sup r) count = true)
      ↔ r.accept = rosterSet s.sup.roster ∨ count + 1 = 20 := by
  rw [classifyRound_answered hpart hans]
  by_cases h : r.accept = rosterSet s.sup.roster <;> simp [h, reachesRollLimit, Config.rollLimit]

/-- Settles O45: STARTING ends by the order held or adopted, the table, and the hold, in that order. -/
theorem startingEndsByTheFirstConditionThatHolds : Obligations.StartingEndsByTheFirstConditionThatHolds := by
  unfold Obligations.StartingEndsByTheFirstConditionThatHolds
  intro s r b m hin hpart hans hkind hstarting
  have hreads := State.rollTaken_reads (s := s.roundLeft m) hstarting (r.closedBy s m) (classifyRound s.sup (r.takenBy s m))
  have hsup := (s.roundLeft_sup m).1
  have hroll := (s.roundLeft m).endRoll_eq (r.closedBy s m) (classifyRound s.sup (r.takenBy s m))
  have hwhen := roll_ends_iff (s := s) (r := r.takenBy s m) hpart hans s.eng.rollCount
  have htable := (s.roundLeft m).endRoll_settle (r.closedBy s m) (r.closedBy s m) (classifyRound s.sup (r.takenBy s m))
  have hshort := State.rollTaken_has (s.roundLeft m) (r.closedBy s m) (classifyRound s.sup (r.takenBy s m)) .rollShort
  refine ⟨_, exec_roundEnd_roll hin m hpart hans hkind, ?_⟩
  have horder := adoptsOrder_iff (s.roundLeft m) (r.closedBy s m)
  generalize (s.roundLeft m).rollTaken (r.closedBy s m) (classifyRound s.sup (r.takenBy s m)) = u at *
  generalize adoptsOrder (s.roundLeft m) (r.closedBy s m) = adopted at *
  by_cases hends : takenMap s.sup (s.line.offer == Offer.slot) m = rosterSet s.sup.roster ∨ s.eng.rollCount + 1 = 20
  · have hend : (s.roundLeft m).endRoll (r.closedBy s m) (classifyRound s.sup (r.takenBy s m)) = u.endStarting adopted :=
      hroll.trans (if_pos ⟨hreads.state, hwhen.2 hends⟩)
    rw [hend] at htable ⊢
    have hwipes : (u.wipe.journal.phase ≠ .none ∨ adopted = true)
        ↔ s.wipe.journal.phase ≠ .none ∨ (r.mapOf .wipeAny ≠ 0 ∧ s.wipe.orderPending = none) := by
      rw [hreads.phase, horder]
      by_cases hp : s.wipe.journal.phase = .none
      · exact or_congr Iff.rfl ⟨fun h => ⟨h.1, h.2.2⟩, fun h => ⟨h.1, hp, h.2⟩⟩
      · exact ⟨fun _ => .inl hp, fun _ => .inl hp⟩
    rw [if_pos hends]
    refine ⟨?state, fun hpartial => ?short, fun hbusy hagain herase hgate => ?engine⟩
    case state =>
      have hstays : ∀ g : GuardState, (u.endStarting adopted).grd.state = g → ¬(g = .opened ∨ g = .admin) → g ≠ .locked →
          ((u.endStarting adopted).roundOver (r.closedBy s m)).settle.grd.state = g := by
        intro g hg ho hl
        rw [State.roundOver_settle_stays (by rwa [hg]) (by rwa [hg]), hg]
      split
      · next h => exact hstays _ (State.endStarting_wiping (hwipes.2 h)) (by simp) (by simp)
      · next h =>
        have hrests := State.endStarting_rests (mt hwipes.1 h)
        rw [hreads.owed, hreads.deadline] at hrests
        rw [htable.2.1]
        split
        · next hempty =>
          rw [if_pos ((tableEmpty_iff _).2 hempty)] at hrests
          exact hstays _ hrests (by simp) (by simp)
        · next hfull =>
          rw [if_neg (mt (tableEmpty_iff _).1 hfull)] at hrests
          split
          · next hheld => exact hstays _ (hrests.trans (if_pos hheld)) (by simp) (by simp)
          · next hfree =>
            have hmay := (u.endStarting adopted).roundOver_settle_triggersMay (r.closedBy s m)
            rw [hrests.trans (if_neg hfree)] at hmay
            exact hmay.locked
    case short =>
      have hhas : (u.endStarting adopted).stat.flags.has .rollShort = true := by
        have hlimit : reachesRollLimit (classifyRound s.sup (r.takenBy s m)) s.eng.rollCount = true := by
          rcases hwhen.2 hends with hc | hl
          · have haccept : (r.takenBy s m).accept ≠ rosterSet s.sup.roster := hpartial
            rw [classifyRound_answered (r := r.takenBy s m) hpart hans, if_neg haccept] at hc
            cases hc
          · exact hl
        have hstat : (u.endStarting adopted).stat = u.stat := by simp
        rw [hstat, hshort]
        simp [State.roundLeft, hlimit]
      simpa using State.roundOver_has hhas (r.closedBy s m)
    case engine =>
      have hfree : s.wipe.journal.phase ≠ .none → EngineFree u := fun hp =>
        ⟨by rw [hreads.held hp]; exact hbusy, by rw [hreads.held hp]; exact hagain, by rw [hreads.held hp]; exact herase,
          hreads.waiting.trans hgate⟩
      have hphase : ∀ {p : Phase}, s.wipe.journal.phase = p → u.wipe.journal.phase = p := fun hp => by rw [hreads.phase]; exact hp
      refine ⟨fun _ => htable.2.2.2.2.1, fun hbus hp => ?_, fun hbus hp => ?_, fun hbat hp => ?_, fun hp => ⟨?_, ?_, ?_, fun hrest => ?_⟩⟩
      · have hgone := (hfree (by simp [hp])).settle_keyGone (x := r.closedBy s m) (adopted := adopted)
          (hreads.supply.trans (hsup.trans hbus)) (hphase hp)
        rwa [hreads.phase] at hgone
      · have hpass := (hfree (by simp [hp])).settle_passing (x := r.closedBy s m) (adopted := adopted)
          (hreads.supply.trans (hsup.trans hbus)) (hphase hp)
        rw [hreads.phase] at hpass
        exact hpass.congr hreads.marks.symm hreads.bank.symm
      · exact (hfree hp).settle_rests (by rwa [hreads.phase]) (.inl (by rw [hreads.supply, hsup]; exact hbat))
      · exact ((hfree (by simp [hp])).settle_rests (by rw [hphase hp]; simp) (.inr (hphase hp))).1
      · have hmarks := (State.endStarting_settle_done (x := r.closedBy s m) (adopted := adopted) (hphase hp)).1
        rwa [hreads.marks] at hmarks
      · have htimer := (State.endStarting_settle_done (x := r.closedBy s m) (adopted := adopted) (hphase hp)).2
        rwa [hreads.now] at htimer
      · refine State.endStarting_settle_progress (hphase hp) hkind ?_
        rw [hreads.queue]
        exact hrest
  · have hend : (s.roundLeft m).endRoll (r.closedBy s m) (classifyRound s.sup (r.takenBy s m)) = u :=
      hroll.trans (if_neg fun h => hends (hwhen.1 h.2))
    rw [hend, if_neg hends]
    refine ⟨?_, ?_, fun herase hgate => ?_⟩
    · rw [State.roundOver_settle_stays (by simp [hreads.state]) (by simp [hreads.state]), hreads.state]
    · have hover : (u.roundOver (r.closedBy s m)).wipe.progressTimer = u.wipe.progressTimer := by simp
      rw [State.settle_progressTimer, hover]
      exact hreads.progress
    · rw [State.settle_wipe_of_no_erase (by simpa using hreads.waiting.trans hgate)]
      simpa using hreads.erase.trans herase

end Sys2Proof.Machine

end


section
/-! PROOF. The end of a CHECK round (R5 to R9, R85, R88 to R90, R105, R107). -/

namespace Sys2Proof.Machine

/-! ## The outcome -/

theorem disagreed_iff {r : RoundRec} {x : FieldResult} (h : r.result .agree = some x) :
    r.disagreed = true ↔ r.mapOf .agree ≠ r.answer := by
  simp [RoundRec.disagreed, h]

theorem checkOutcome_split {r : RoundRec} (h : r.disagreed = true) (cls : RoundClass) : checkOutcome r cls = .splitEntry := by
  simp [checkOutcome, h]

theorem checkOutcome_untaken {r : RoundRec} (h : r.disagreed = false) (hv : r.tookVerdict = false) (cls : RoundClass) :
    checkOutcome r cls = .incomplete := by
  simp [checkOutcome, h, hv]

theorem checkOutcome_verdictSplit {r : RoundRec} (h : r.disagreed = false) (hv : r.tookVerdict = true)
    (hs : r.mapOf .verdictAgree ≠ r.answer) (cls : RoundClass) : checkOutcome r cls = .verdictSplit := by
  simp [checkOutcome, h, hv, hs]

theorem checkOutcome_agreed {r : RoundRec} (h : r.disagreed = false) (hv : r.tookVerdict = true)
    (hs : r.mapOf .verdictAgree = r.answer) (cls : RoundClass) :
    checkOutcome r cls = if cls = .partial_ then .incomplete else verdictOutcome (r.numberOf .verdict) := by
  simp [checkOutcome, h, hv, hs]

theorem verdictOutcome_slot (i : CodeSlotNo) : verdictOutcome i.val = .matched i := by
  simp [verdictOutcome, i.isLt]

/-! ## No CHECK round tells the triggers that STARTING ends -/

theorem State.takeDeadline_no_startingEnded {s : State} (h : Notice.startingEnded ∉ s.notices) :
    Notice.startingEnded ∉ s.takeDeadline.notices := by
  unfold State.takeDeadline
  split
  · exact State.setGuard_no_startingEnded h _
  · exact h

theorem State.holdRequest_no_startingEnded {s : State} (h : Notice.startingEnded ∉ s.notices) (n : Nat) :
    Notice.startingEnded ∉ (s.holdRequest n).notices := by
  rcases s.holdRequest_cases n with hr | ⟨tal, due, -, -, hr | ⟨-, hr⟩⟩ <;> rw [hr]
  · exact h
  · exact h
  · exact State.setGuard_no_startingEnded (by exact h) _

theorem State.takeDueDeadline_no_startingEnded {s : State} (h : Notice.startingEnded ∉ s.notices) :
    Notice.startingEnded ∉ s.takeDueDeadline.notices := by
  rcases s.takeDueDeadline_cases with hd | ⟨-, -, -, hd⟩ <;> rw [hd]
  · exact h
  · exact State.setGuard_no_startingEnded (by exact h) _

theorem State.roundOver_no_startingEnded {s : State} (h : Notice.startingEnded ∉ s.notices) (x : RoundRec) :
    Notice.startingEnded ∉ (s.roundOver x).notices :=
  mt State.roundOver_startingEnded (State.takeDueDeadline_no_startingEnded h)

/-- What a station with no entry armed holds when the round's end is over, the event's end leaves. -/
theorem State.roundOver_settle_unarmed {s : State} (harmed : s.pol.armed = 0) (hn : Notice.startingEnded ∉ s.notices)
    (x : RoundRec) : UnarmedEnd (s.roundOver x) (s.roundOver x).settle :=
  State.settle_unarmed (by simpa using harmed) (State.roundOver_no_startingEnded hn x)

theorem State.takeGap_no_startingEnded {s : State} (h : Notice.startingEnded ∉ s.notices) :
    Notice.startingEnded ∉ s.takeGap.notices :=
  State.takeDeadline_no_startingEnded (State.holdRequest_no_startingEnded h _)

/-! ## A CHECK round's end -/

theorem exec_roundEnd_check {s : State} {r : RoundRec} {b : Nat} (hin : InRound s r (.inField .accept b)) (m : Slots)
    (hpart : r.part ≠ .rejected) (hans : r.answered = true) (hkind : r.kind = some .check) :
    exec (.roundEnd m) s = .next (((s.roundLeft m).endCheck (r.closedBy s m)
      (classifyRound s.sup (r.takenBy s m))).roundOver (r.closedBy s m)).settle := by
  have happlies := classifyRound_applies (r := r.takenBy s m) hpart hans s.sup
  have howners : (s.roundLeft m).ownersEnd (r.closedBy s m) (classifyRound s.sup (r.takenBy s m))
      = (s.roundLeft m).endCheck (r.closedBy s m) (classifyRound s.sup (r.takenBy s m)) := by
    unfold State.ownersEnd
    rw [if_pos happlies, (r.closedBy_fields s m).1, hkind]
  rw [exec_roundEnd hin, howners]

/-- The station without the round's entry (R85). -/
def State.entryLeft (s : State) : State := { s with cred := { s.cred with roundEntry := none } }

theorem State.endCheck_split {s : State} {r : RoundRec} {cls : RoundClass} (h : checkOutcome r cls = .splitEntry) :
    s.endCheck r cls = (s.setFlag .splitEntry).entryLeft := by
  simp [State.endCheck, h, State.entryLeft]

theorem State.endCheck_gap {s : State} {r : RoundRec} {cls : RoundClass}
    (h : checkOutcome r cls = .noMatch ∨ checkOutcome r cls = .incomplete) : s.endCheck r cls = s.takeGap.entryLeft := by
  rcases h with h | h <;> simp [State.endCheck, h, State.entryLeft]

theorem State.endCheck_verdictSplit {s : State} {r : RoundRec} {cls : RoundClass} (h : checkOutcome r cls = .verdictSplit) :
    s.endCheck r cls = (s.setFlag .tableSplit).takeGap.entryLeft := by
  simp [State.endCheck, h, State.entryLeft]

theorem State.endCheck_matched {s : State} {r : RoundRec} {cls : RoundClass} {i : CodeSlotNo}
    (h : checkOutcome r cls = .matched i) : s.endCheck r cls = (s.matchEffects r i).entryLeft := by
  simp [State.endCheck, h, State.entryLeft]

theorem State.endCheck_entry (s : State) (r : RoundRec) (cls : RoundClass) : (s.endCheck r cls).cred.roundEntry = none := rfl

/-- A station held to the shortest hold, at the event's end (R5, R90). -/
structure GapTaken (s t : State) : Prop where
  tally : t.tal.tally = s.tal.tally
  key : s.pol.armed = 0 → t.cred.plainKey = s.cred.plainKey
  held : t.heldUntil (s.now + 1000)
  state : s.grd.state = .locked ∨ s.grd.state = .held → t.grd.state = .held

theorem State.takeGap_settle {s : State} (hn : Notice.startingEnded ∉ s.notices) (x : RoundRec) :
    GapTaken s (s.takeGap.entryLeft.roundOver x).settle where
  tally := by simp [State.entryLeft]
  key harmed := by
    have hend := State.roundOver_settle_unarmed (s := s.takeGap.entryLeft) (by simpa [State.entryLeft] using harmed)
      (State.takeGap_no_startingEnded hn) x
    rw [hend.cred]
    simp [State.entryLeft]
  held := State.heldUntil.settle (s.takeGap_heldUntil.congr (by simp [State.entryLeft]))
  state h := by
    have hgap : s.takeGap.entryLeft.grd.state = .held := State.takeGap_state h
    rw [State.roundOver_settle_stays (by rw [hgap]; simp) (by rw [hgap]; simp), hgap]

/-- Settles O46: a CHECK round's outcome, and what one without a match costs. -/
theorem checksWithoutAMatchAreHeld : Obligations.ChecksWithoutAMatchAreHeld := by
  unfold Obligations.ChecksWithoutAMatchAreHeld
  refine ⟨fun r cls x hx => ?outcome, fun s r b m x o hin hpart hans hkind hxr ho => ?costs⟩
  case outcome =>
    have hsame : r.mapOf .agree = r.answer → r.disagreed = false := fun h =>
      Bool.eq_false_iff.2 fun hd => (disagreed_iff hx).1 hd h
    refine ⟨fun h => checkOutcome_split ((disagreed_iff hx).2 h) cls, fun h hv => checkOutcome_untaken (hsame h) hv cls,
      fun h hv hs => checkOutcome_verdictSplit (hsame h) hv hs cls, fun h hv hs => ?_⟩
    rw [checkOutcome_agreed (hsame h) hv hs]
    refine ⟨fun hc => if_pos hc, fun hc hnum => ?_, fun hc i hnum => ?_⟩
    · rw [if_neg (by simp [hc]), hnum]
      rfl
    · rw [if_neg (by simp [hc]), hnum, verdictOutcome_slot]
  case costs =>
    have ho' : o = checkOutcome (r.closedBy s m) (classifyRound s.sup (r.takenBy s m)) := by
      subst hxr
      exact ho
    have hn : Notice.startingEnded ∉ (s.roundLeft m).notices := by simp [State.roundLeft]
    refine ⟨_, exec_roundEnd_check hin m hpart hans hkind, ?_, fun hsplit => ?_, fun hgap => ?_⟩
    · have hentry := (s.roundLeft m).endCheck_entry (r.closedBy s m) (classifyRound s.sup (r.takenBy s m))
      simpa using hentry
    · rw [State.endCheck_split (ho'.symm.trans hsplit)]
      refine ⟨?_, ?_, fun harmed => ?_⟩
      · have hhas : ((s.roundLeft m).setFlag .splitEntry).entryLeft.stat.flags.has .splitEntry = true := State.setFlag_has _ _
        simpa using State.roundOver_has hhas (r.closedBy s m)
      · simp [State.entryLeft, State.roundLeft]
      · have hend := State.roundOver_settle_unarmed (s := ((s.roundLeft m).setFlag .splitEntry).entryLeft)
          (by simpa [State.entryLeft, State.roundLeft] using harmed)
          (fun hc => hn (State.setFlag_startingEnded (by exact hc))) (r.closedBy s m)
        refine ⟨?_, ?_, fun hdue => ?_⟩
        · rw [hend.cred]
          simp [State.entryLeft, State.roundLeft]
        · rw [hend.tal]
          simp [State.entryLeft, State.roundLeft]
        · rw [hend.grd, State.roundOver_state_of_not_due (by simpa [State.entryLeft, State.roundLeft] using hdue)]
          simp [State.entryLeft, State.roundLeft]
    · have hcost : ∃ u : State, (s.roundLeft m).endCheck (r.closedBy s m) (classifyRound s.sup (r.takenBy s m)) = u.takeGap.entryLeft
          ∧ Notice.startingEnded ∉ u.notices ∧ u.tal = s.tal ∧ u.cred = s.cred ∧ u.pol = s.pol ∧ u.now = s.now
          ∧ u.grd = s.grd ∧ (o = .verdictSplit → u.stat.flags.has .tableSplit = true) := by
        rcases hgap with h | h | h
        · exact ⟨_, State.endCheck_gap (.inl (ho'.symm.trans h)), hn, rfl, rfl, rfl, rfl, rfl, by rw [h]; nofun⟩
        · exact ⟨_, State.endCheck_gap (.inr (ho'.symm.trans h)), hn, rfl, rfl, rfl, rfl, rfl, by rw [h]; nofun⟩
        · refine ⟨_, State.endCheck_verdictSplit (ho'.symm.trans h), fun hc => hn (State.setFlag_startingEnded hc), ?_, ?_, ?_, ?_, ?_,
            fun _ => State.setFlag_has _ _⟩
          all_goals simp [State.roundLeft]
      obtain ⟨u, hu, hquiet, tal, cred, pol, now, grd, hflag⟩ := hcost
      have htaken := State.takeGap_settle hquiet (r.closedBy s m)
      rw [hu]
      refine ⟨by rw [htaken.tally, tal], fun harmed => by rw [htaken.key (by rw [pol]; exact harmed), cred],
        now ▸ htaken.held, fun hstate => htaken.state (by rwa [grd]), fun h => ?_⟩
      have hhas : u.takeGap.entryLeft.stat.flags.has .tableSplit = true := by simpa [State.entryLeft] using hflag h
      simpa using State.roundOver_has hhas (r.closedBy s m)

end Sys2Proof.Machine

end


section
/-! PROOF. The end of a CHECK round with a match (R5, R7 to R9, R89, R105). -/

namespace Sys2Proof.Machine

/-! ## Requests that do not fly -/

theorem queueFind_queueInsert_ne {k : RoundKind} {r : Request} (h : r.kind ≠ k) (q : List Request) :
    queueFind k (queueInsert r q) = queueFind k q := by
  induction q with
  | nil => simp [queueInsert, queueFind, h]
  | cons x q ih =>
    unfold queueInsert
    split
    · rw [queueFind_cons, if_neg h]
    · rw [queueFind_cons, queueFind_cons, ih]

theorem queueFind_filterMap_resting {sup : Supply} {now : Nat} {r : RoundRec} {k : RoundKind} {y z : Request}
    {q : List Request} (hy : queueFind k q = some y) (hz : endRequest sup now r y = some z) :
    queueFind k (q.filterMap (endRequest sup now r)) = some z := by
  induction q with
  | nil => exact absurd hy nofun
  | cons x q ih =>
    rw [queueFind_cons] at hy
    by_cases hx : x.kind = k
    · rw [if_pos hx] at hy
      obtain rfl : x = y := Option.some.inj hy
      rw [List.filterMap_cons_some hz, queueFind_cons, if_pos ((endRequest_kind hz).trans hx)]
    · rw [if_neg hx] at hy
      cases hd : endRequest sup now r x with
      | none => rw [List.filterMap_cons_none hd, ih hy]
      | some w => rw [List.filterMap_cons_some hd, queueFind_cons, if_neg (by rw [endRequest_kind hd]; exact hx), ih hy]

/-- A request that does not fly and is not of the round's kind is left as it is by the round's end (R49, R50). -/
theorem State.roundOver_resting {s : State} {x : RoundRec} {k : RoundKind} {y : Request} (hcheck : k ≠ .check)
    (hsetcode : k ≠ .setcode) (hroll : k ≠ .roll) (hkind : x.kind ≠ some k) (hy : queueFind k s.eng.queue = some y)
    (hrest : y.inFlight = false) : queueFind k (s.roundOver x).eng.queue = some y := by
  have hdue : queueFind k s.takeDueDeadline.eng.queue = some y := by
    rcases s.takeDueDeadline_cases with hd | ⟨-, -, -, hd⟩ <;> rw [hd]
    · exact hy
    · rw [State.setGuard_queueFind hcheck hsetcode]
      exact hy
  have hserved : served s.takeDueDeadline.sup x y = false := by
    refine Bool.eq_false_iff.2 fun hs => hkind ?_
    rw [((served_iff _ _ _).1 hs).1, (queueFind_kind hdue).2]
  have hkept := queueFind_filterMap_resting (now := s.takeDueDeadline.now) hdue (endRequest_resting hserved hrest _)
  rw [State.roundOver_queue, State.endQueue_queue]
  split
  · rw [queueFind_queueInsert_ne hroll.symm, hkept]
  · exact hkept

/-! ## A match -/

/-- The tally is 0 and no deadline waits for the outcome (R5, R105). -/
def State.matchTaken (s : State) : State := { s.setTally 0 with grd := { (s.setTally 0).grd with holdDue := false } }

theorem State.matchEffects_duress (s : State) (r : RoundRec) : s.matchEffects r 3 = s.matchTaken.post .wipe wipeDuress := rfl

theorem State.matchEffects_opens {s : State} {r : RoundRec} {i : CodeSlotNo} (hi : i ≠ 3) (h : s.takesMatch r = true) :
    s.matchEffects r i = s.matchTaken.openStation i (slotMustChange (s.cred.slots.get i).contents && i != 0)
      ((slotWrap (s.cred.slots.get i).contents).bind fun w => openWrap w (s.cred.roundEntry.getD [])) := by
  have hcred : (s.setTally 0).cred = s.cred := by simp
  have htakes : ({ s.setTally 0 with grd := { (s.setTally 0).grd with holdDue := false } } : State).takesMatch r = true := by
    simpa [State.takesMatch] using h
  unfold State.matchEffects State.matchTaken
  dsimp only
  rw [if_neg hi, if_pos htakes, hcred]

theorem State.matchEffects_nothing {s : State} {r : RoundRec} {i : CodeSlotNo} (hi : i ≠ 3) (h : s.takesMatch r = false) :
    s.matchEffects r i = s.matchTaken := by
  have htakes : ({ s.setTally 0 with grd := { (s.setTally 0).grd with holdDue := false } } : State).takesMatch r = false := by
    simpa [State.takesMatch] using h
  unfold State.matchEffects State.matchTaken
  dsimp only
  rw [if_neg hi, htakes]
  rfl

theorem State.matchTaken_frame (s : State) :
    s.matchTaken.tal.tally = 0 ∧ s.matchTaken.cred = s.cred ∧ s.matchTaken.pol = s.pol ∧ s.matchTaken.eng = s.eng
      ∧ s.matchTaken.now = s.now ∧ s.matchTaken.sup = s.sup ∧ s.matchTaken.gate = s.gate
      ∧ s.matchTaken.grd = { s.grd with holdDue := false } := by
  simp [State.matchTaken]

theorem State.matchTaken_no_startingEnded {s : State} (h : Notice.startingEnded ∉ s.notices) :
    Notice.startingEnded ∉ s.matchTaken.notices := by
  unfold State.matchTaken State.setTally
  split
  · exact h
  · simpa using h

/-- The open station (R7, R8, R13). -/
structure Opened (s : State) (slot : CodeSlotNo) (mustChange : Bool) (plain : Option BankKey) (u : State) : Prop where
  state : u.grd.state = if slot = 0 then .admin else .opened
  matched : u.grd.matched = some slot
  mustChange : u.grd.mustChange = mustChange
  key : u.cred.plainKey = plain
  session : ∀ e : Extent, u.gate.session.get e = .writable
  battery : s.sup.state = .battery → u.grd.batteryTimer = some (s.now + 60000)

theorem State.openStation_opened {s : State} (h : s.grd.state ≠ .opened ∧ s.grd.state ≠ .admin) (slot : CodeSlotNo)
    (mustChange : Bool) (plain : Option BankKey) : Opened s slot mustChange plain (s.openStation slot mustChange plain) := by
  have hne : s.grd.state ≠ (if slot = 0 then GuardState.admin else .opened) := by
    split
    · exact h.2
    · exact h.1
  have hto : (if slot = 0 then GuardState.admin else .opened) = .opened
      ∨ (if slot = 0 then GuardState.admin else .opened) = .admin := by
    split <;> simp
  unfold State.openStation
  dsimp only
  refine ⟨by simp, ?_, ?_, by simp, fun e => ?_, fun hbat => ?_⟩
  · rw [State.setGuard_grd (by exact hne)]
  · rw [State.setGuard_grd (by exact hne)]
  · rw [(State.setGuard_marks (by exact hne)).1, if_pos hto]
    simp [Vector.get_eq_getElem]
  · rw [State.setGuard_grd (by exact hne)]
    exact if_pos hbat

/-- An open station with no entry armed stays open to the event's end. -/
theorem Opened.settle {s u : State} {slot : CodeSlotNo} {mustChange : Bool} {plain : Option BankKey}
    (h : Opened s slot mustChange plain u) (harmed : u.pol.armed = 0)
    (hn : Notice.startingEnded ∉ u.notices) (x : RoundRec) :
    Opened s slot mustChange plain (u.roundOver x).settle := by
  have hend := State.roundOver_settle_unarmed harmed hn x
  have hkeep : u.takeDueDeadline.grd = { u.grd with holdDue := false } := by
    rcases u.takeDueDeadline_cases with hd | ⟨hlocked, -⟩
    · rw [hd]
    · rw [h.state] at hlocked
      split at hlocked <;> cases hlocked
  have hgrd : (u.roundOver x).settle.grd = { u.grd with holdDue := false } := by rw [hend.grd, (u.roundOver_rest x).2.1, hkeep]
  have hcred : (u.roundOver x).settle.cred = u.cred := by rw [hend.cred]; simp
  have hsession : (u.roundOver x).settle.gate.session = u.gate.session := by
    rw [State.settle_session, (u.roundOver_rest x).1, u.takeDueDeadline_session]
  exact ⟨by rw [hgrd]; exact h.state, by rw [hgrd]; exact h.matched, by rw [hgrd]; exact h.mustChange,
    by rw [hcred]; exact h.key, by rw [hsession]; exact h.session, by rw [hgrd]; exact h.battery⟩

theorem State.openStation_no_startingEnded {s : State} (h : Notice.startingEnded ∉ s.notices) (slot : CodeSlotNo)
    (mustChange : Bool) (plain : Option BankKey) : Notice.startingEnded ∉ (s.openStation slot mustChange plain).notices :=
  State.setGuard_no_startingEnded (by exact h) _

/-- A DURESS match leaves its WIPE request at the event's end, where no request flew (R105). -/
theorem State.matchEffects_duress_settle {s : State} {r x : RoundRec} (hstrap : s.grd.state ≠ .strapFault)
    (hkind : x.kind = some .check) (hrest : ∀ y, queueFind .wipe s.eng.queue = some y → y.inFlight = false)
    (hn : Notice.startingEnded ∉ s.notices) :
    (queueFind .wipe ((s.matchEffects r 3).entryLeft.roundOver x).settle.eng.queue).isSome = true
      ∧ (s.pol.armed = 0 → ∃ y, queueFind .wipe ((s.matchEffects r 3).entryLeft.roundOver x).settle.eng.queue = some y
          ∧ y.arg = wipeDuress) := by
  obtain ⟨-, -, hpol, heng, -, -, -, hgrd⟩ := s.matchTaken_frame
  have hqueue : (s.matchEffects r 3).entryLeft.eng.queue = queuePost .wipe wipeDuress s.eng.queue := by
    rw [State.matchEffects_duress, ← heng]
    exact State.post_queue _ _ _ (by rw [hgrd]; exact hstrap)
  obtain ⟨y, hy, hyrest⟩ := queuePost_resting hrest wipeDuress
  obtain ⟨z, hz, harg⟩ := queueFind_queuePost_arg .wipe wipeDuress s.eng.queue
  obtain rfl : y = z := Option.some.inj (hy.symm.trans hz)
  have hover := State.roundOver_resting (s := (s.matchEffects r 3).entryLeft) (x := x) (k := .wipe) (by simp) (by simp) (by simp)
    (by simp [hkind]) (by rw [hqueue]; exact hy) hyrest
  refine ⟨State.settle_queueFind_isSome (by simp) (by simp) (by rw [hover]; rfl), fun harmed => ⟨y, ?_, harg⟩⟩
  have hquiet : Notice.startingEnded ∉ (s.matchEffects r 3).entryLeft.notices := by
    rw [State.matchEffects_duress]
    simpa [State.entryLeft] using State.matchTaken_no_startingEnded hn
  rw [State.settle_queue_unarmed _ (State.roundOver_no_startingEnded hquiet x), hover]
  rw [State.matchEffects_duress]
  simpa [State.entryLeft, hpol] using harmed

/-- Settles O47: a match after slot 3 posts WIPE, any other opens the station that waits for it. -/
theorem aMatchOpensTheStation : Obligations.AMatchOpensTheStation := by
  unfold Obligations.AMatchOpensTheStation
  intro s r b m x i hin hpart hans hkind hx hmatch
  obtain rfl : x = r.takenBy s m := hx
  have hcheck : checkOutcome (r.closedBy s m) (classifyRound s.sup (r.takenBy s m)) = .matched i := hmatch
  have hn : Notice.startingEnded ∉ (s.roundLeft m).notices := by simp [State.roundLeft]
  obtain ⟨htally, hcred, hpol, -, hnow, hsup, -, hgrd⟩ := (s.roundLeft m).matchTaken_frame
  have hstn := (s.roundLeft_sup m).2.1
  have htakes : (s.roundLeft m).takesMatch (r.closedBy s m) = true ↔ r.droveIn s.sup .agree = true ∧ s.grd.state = .locked := by
    have hdrove : (r.closedBy s m).droveIn (s.roundLeft m).sup .agree = r.droveIn s.sup .agree := by
      unfold RoundRec.droveIn
      rw [hstn]
      rfl
    simp only [State.takesMatch, hdrove, Bool.and_eq_true, beq_iff_eq]
    rfl
  have hafter : ∀ u : State, u = (s.roundLeft m).matchEffects (r.closedBy s m) i → u.tal.tally = 0
      ∧ u.cred.slots = s.cred.slots ∧ u.cred.liveStamp = s.cred.liveStamp ∧ u.cred.pendingSlot = s.cred.pendingSlot := by
    rintro u rfl
    by_cases hi : i = 3
    · rw [hi, State.matchEffects_duress]
      simp [htally, hcred, State.roundLeft_frame]
    · cases hm : (s.roundLeft m).takesMatch (r.closedBy s m) with
      | true =>
        rw [State.matchEffects_opens hi hm]
        simp [htally, hcred, State.roundLeft_frame]
      | false =>
        rw [State.matchEffects_nothing hi hm]
        simp [htally, hcred, State.roundLeft_frame]
  obtain ⟨tally, slots, stamp, pending⟩ := hafter _ rfl
  refine ⟨_, exec_roundEnd_check hin m hpart hans hkind, ?_⟩
  rw [State.endCheck_matched hcheck]
  refine ⟨by simpa [State.entryLeft] using tally, by simp [State.entryLeft], by simpa [State.entryLeft] using slots,
    by simpa [State.entryLeft] using stamp, by simpa [State.entryLeft] using pending, fun hi hstrap hflight => ?duress,
    fun hi hdrove hlocked harmed => ?opens, fun hi hnot => ?nothing, fun c w mc e => ⟨⟨rfl, rfl, rfl, rfl⟩, ⟨rfl, rfl, rfl, rfl⟩, ?_⟩⟩
  case duress =>
    subst hi
    have hrest : ∀ y, queueFind .wipe s.eng.queue = some y → y.inFlight = false := fun y hy =>
      Bool.eq_false_iff.2 fun hf => by
        obtain ⟨hmem, hyk⟩ := queueFind_kind hy
        have hround := hflight.kind_of_accept hin hmem hf
        rw [hkind, hyk] at hround
        cases hround
    obtain ⟨hsome, hcause⟩ := State.matchEffects_duress_settle (s := s.roundLeft m) (r := r.closedBy s m) (x := r.closedBy s m)
      hstrap hkind hrest hn
    have hstate : ((s.roundLeft m).matchEffects (r.closedBy s m) 3).entryLeft.grd.state = s.grd.state := by
      rw [State.matchEffects_duress]
      simp [State.entryLeft, hgrd, State.roundLeft_frame]
    refine ⟨hsome, ?_, fun harmed _ => hcause harmed⟩
    have hmay := ((s.roundLeft m).matchEffects (r.closedBy s m) 3).entryLeft.roundOver_settle_triggersMay (r.closedBy s m)
    rwa [hstate] at hmay
  case opens =>
    rw [State.matchEffects_opens hi (htakes.2 ⟨hdrove, hlocked⟩)]
    have hclosed : (s.roundLeft m).matchTaken.grd.state ≠ .opened ∧ (s.roundLeft m).matchTaken.grd.state ≠ .admin := by
      simp [hgrd, State.roundLeft_frame, hlocked]
    obtain ⟨state, matched, mustChange, key, session, battery⟩ :=
      State.openStation_opened hclosed i (slotMustChange (s.cred.slots.get i).contents && i != 0)
        ((slotWrap (s.cred.slots.get i).contents).bind fun w => openWrap w (s.cred.roundEntry.getD []))
    have hopened := Opened.settle (s := (s.roundLeft m).matchTaken) (u := ((s.roundLeft m).matchTaken.openStation i
        (slotMustChange (s.cred.slots.get i).contents && i != 0)
        ((slotWrap (s.cred.slots.get i).contents).bind fun w => openWrap w (s.cred.roundEntry.getD []))).entryLeft)
      ⟨state, matched, mustChange, key, session, battery⟩
      (by simpa [State.entryLeft, hpol, State.roundLeft_frame] using harmed)
      (by exact State.openStation_no_startingEnded (State.matchTaken_no_startingEnded hn) _ _ _) (r.closedBy s m)
    refine ⟨hopened.state, hopened.matched, hopened.mustChange, hopened.key, hopened.session, fun hbat => ?_⟩
    have htimer := hopened.battery (by rw [hsup, (s.roundLeft_sup m).1]; exact hbat)
    rwa [hnow] at htimer
  case nothing =>
    have hoff : (s.roundLeft m).takesMatch (r.closedBy s m) = false := Bool.eq_false_iff.2 (mt htakes.1 hnot)
    rw [State.matchEffects_nothing hi hoff]
    by_cases hopen : s.grd.state = .opened ∨ s.grd.state = .admin
    · exact .inr hopen
    · have hclosed := State.roundOver_settle_closed (s := (s.roundLeft m).matchTaken.entryLeft)
        (by simpa [State.entryLeft, hgrd, State.roundLeft_frame] using hopen) (r.closedBy s m)
      refine .inl ⟨?_, ?_⟩
      · rw [hclosed.cred]
        simp [State.entryLeft, hcred, State.roundLeft_frame]
      · rw [hclosed.matched]
        simp [State.entryLeft, hgrd, State.roundLeft_frame]
  case _ => rfl

end Sys2Proof.Machine

end


section
/-! PROOF. The end of a SETCODE round (R4, R9, R94, R95, R97). -/

namespace Sys2Proof.Machine

/-- A round's end by what its kind's owners make of the station. -/
theorem exec_roundEnd_owners {s u : State} {r : RoundRec} {b : Nat} (hin : InRound s r (.inField .accept b)) (m : Slots)
    (h : (s.roundLeft m).ownersEnd (r.closedBy s m) (classifyRound s.sup (r.takenBy s m)) = u) :
    exec (.roundEnd m) s = .next (u.roundOver (r.closedBy s m)).settle := by
  rw [exec_roundEnd hin, h]

theorem State.ownersEnd_setcode {s : State} {r : RoundRec} {cls : RoundClass} (happlies : cls.applies = true)
    (hkind : r.kind = some .setcode) : s.ownersEnd r cls = s.endSetcode r cls := by
  unfold State.ownersEnd
  rw [if_pos happlies, hkind]

/-- The station without the round's change and generated key (R97). -/
def State.changeLeft (s : State) : State := { s with cred := { s.cred with genKey := none, roundChange := none } }

theorem State.endSetcode_promotes {s : State} {r : RoundRec} {cls : RoundClass} {p : PendingChange}
    (h : promotedChange s r cls = some p) : s.endSetcode r cls = ((s.promote p).takePromotion p).changeLeft := by
  unfold State.endSetcode
  rw [h]
  rfl

theorem State.endSetcode_drops {s : State} {r : RoundRec} {cls : RoundClass} (h : promotedChange s r cls = none) :
    s.endSetcode r cls = s.changeLeft := by
  unfold State.endSetcode
  rw [h]
  rfl

theorem ofArg_iff (p : PendingChange) (arg : Arg) :
    p.ofArg arg = true ↔ p.stored = true ∧ setcodeArg p.target (slotRole p.contents) p.stamp = arg := by
  simp [PendingChange.ofArg]

theorem promotedChange_some {s : State} {r : RoundRec} {cls : RoundClass} {p : PendingChange} (hcls : cls = .complete)
    (hstored : r.mapOf .stored = rosterSet s.sup.roster) (hphase : s.wipe.journal.phase = .none)
    (hp : s.cred.pendingSlot = some p) (harg : p.ofArg r.arg = true) : promotedChange s r cls = some p := by
  simp [promotedChange, hcls, hstored, hphase, hp, Option.filter, harg]

theorem promotedChange_none {s : State} {r : RoundRec} {cls : RoundClass}
    (h : cls ≠ .complete ∨ r.mapOf .stored ≠ rosterSet s.sup.roster ∨ s.wipe.journal.phase ≠ .none
      ∨ ∀ p, s.cred.pendingSlot = some p → p.ofArg r.arg = false) : promotedChange s r cls = none := by
  unfold promotedChange
  split
  · next hall =>
    obtain ⟨hcls, hstored, hphase⟩ := hall
    rcases h with h | h | h | h
    · exact absurd hcls h
    · exact absurd hstored h
    · exact absurd hphase h
    · cases hp : s.cred.pendingSlot with
      | none => rfl
      | some p => simp [Option.filter, h p hp]
  · rfl

/-- What the guard controller does with a promotion (R4, R9, R95). -/
theorem State.takePromotion_table (s : State) (p : PendingChange) :
    (s.takePromotion p).cred.slots = s.cred.slots ∧ (s.takePromotion p).cred.liveStamp = s.cred.liveStamp
      ∧ (s.takePromotion p).cred.pendingSlot = s.cred.pendingSlot := by
  unfold State.takePromotion
  split <;> simp

theorem State.promotion_table (s : State) (p : PendingChange) (x : RoundRec) :
    (((s.promote p).takePromotion p).changeLeft.roundOver x).settle.tableIs
      (s.cred.slots.set p.target.val ⟨p.contents, p.stamp⟩) p.stamp none := by
  obtain ⟨slots, stamp, pending⟩ := (s.promote p).takePromotion_table p
  refine (s.promote_spec p).1.congr ?_ ?_ ?_
  · rw [← slots]; simp [State.changeLeft]
  · rw [← stamp]; simp [State.changeLeft]
  · rw [← pending]; simp [State.changeLeft]

/-- First setup takes BLANK to ADMIN (R4). -/
theorem State.promotion_setup {s : State} {p : PendingChange} (hblank : s.grd.state = .blank) (htarget : p.target = 0)
    (harmed : s.pol.armed = 0) (hn : Notice.startingEnded ∉ s.notices) (x : RoundRec) :
    Opened s 0 false s.cred.genKey (((s.promote p).takePromotion p).changeLeft.roundOver x).settle := by
  obtain ⟨-, hgrd, hgen⟩ := s.promote_spec p
  have hopen : (s.promote p).takePromotion p = (s.promote p).openStation 0 false s.cred.genKey := by
    unfold State.takePromotion
    rw [hgrd, hgen, if_pos ⟨hblank, htarget⟩]
  rw [hopen]
  obtain ⟨state, matched, mustChange, key, session, battery⟩ :=
    State.openStation_opened (s := s.promote p) (by simp [hblank]) 0 false s.cred.genKey
  have hnotices : Notice.startingEnded ∉ (s.promote p).notices := by simpa using hn
  have hend := Opened.settle (s := s.promote p) (u := ((s.promote p).openStation 0 false s.cred.genKey).changeLeft)
    ⟨state, matched, mustChange, key, session, battery⟩ (by simpa [State.changeLeft] using harmed)
    (by exact State.openStation_no_startingEnded hnotices _ _ _) x
  exact ⟨hend.state, hend.matched, hend.mustChange, hend.key, hend.session, fun hbat => by
    simpa using hend.battery (by simpa using hbat)⟩

/-- A change of the matched slot of an open station clears must-change (R9, R95). -/
theorem State.promotion_mustChange {s : State} {p : PendingChange} (hmatched : s.grd.matched = some p.target)
    (hopen : s.grd.state = .opened ∨ s.grd.state = .admin) (x : RoundRec) :
    (((s.promote p).takePromotion p).changeLeft.roundOver x).settle.grd.mustChange = false := by
  obtain ⟨-, hgrd, -⟩ := s.promote_spec p
  have hnot : ¬((s.promote p).grd.state = .blank ∧ p.target = 0) := fun h => by
    rw [hgrd] at h
    rcases hopen with ho | ho <;> exact absurd (ho.symm.trans h.1) nofun
  have htake : (s.promote p).takePromotion p = (s.promote p).clearMustChange p.target := if_neg hnot
  have hmust := ((s.promote p).clearMustChange_spec p.target).2.2.2.2 (by rw [hgrd]; exact hmatched)
  refine State.settle_mustChange ?_
  rw [htake]
  simpa [State.changeLeft] using hmust

/-- A SETCODE round's end begins no staging, so it stores nothing at once (R95). -/
theorem State.endSetcode_nv (s : State) (r : RoundRec) (cls : RoundClass) : (s.endSetcode r cls).nv = s.nv := by
  have hpromote : ∀ p, (s.promote p).nv = s.nv := by
    intro p
    unfold State.promote
    rw [State.askCred_plain rfl]
  cases h : promotedChange s r cls with
  | none => rw [State.endSetcode_drops h]; rfl
  | some p =>
    rw [State.endSetcode_promotes h]
    simp [State.changeLeft, hpromote]

/-- Settles O48: the promotion of the stored change of the round's ARG, and nothing else. -/
theorem setcodePromotesWhatAllStored : Obligations.SetcodePromotesWhatAllStored := by
  unfold Obligations.SetcodePromotesWhatAllStored
  intro s r b m hin hpart hans hkind
  have happlies := classifyRound_applies (r := r.takenBy s m) hpart hans s.sup
  have hclass := classifyRound_answered (r := r.takenBy s m) hpart hans s.sup
  have hroster := (s.roundLeft_sup m).2.2
  have hn : Notice.startingEnded ∉ (s.roundLeft m).notices := by simp [State.roundLeft]
  refine ⟨_, exec_roundEnd_owners hin m (State.ownersEnd_setcode happlies hkind), ?_, ?_, ?_,
    fun p hp hstored harg haccept hall hphase => ?promoted, fun hnot => ?kept, fun c w mc => ⟨rfl, rfl, rfl, rfl⟩⟩
  · have hgen : ((s.roundLeft m).endSetcode (r.closedBy s m) (classifyRound s.sup (r.takenBy s m))).cred.genKey = none := rfl
    simpa using hgen
  · have hchange : ((s.roundLeft m).endSetcode (r.closedBy s m) (classifyRound s.sup (r.takenBy s m))).cred.roundChange = none := rfl
    simpa using hchange
  · simpa [State.roundLeft_frame] using
      State.endSetcode_nv (s.roundLeft m) (r.closedBy s m) (classifyRound s.sup (r.takenBy s m))
  case promoted =>
    have hpromoted : promotedChange (s.roundLeft m) (r.closedBy s m) (classifyRound s.sup (r.takenBy s m)) = some p := by
      refine promotedChange_some (hclass.trans (if_pos haccept)) ?_ hphase hp ((ofArg_iff _ _).2 ⟨hstored, harg⟩)
      rw [hroster]
      exact hall
    rw [State.endSetcode_promotes hpromoted]
    obtain ⟨slots, stamp, pending⟩ := (s.roundLeft m).promotion_table p (r.closedBy s m)
    refine ⟨slots, stamp, pending, fun hblank htarget harmed => ?_, fun hmatched hopen => ?_⟩
    · have hsetup := State.promotion_setup (s := s.roundLeft m) hblank htarget harmed hn (r.closedBy s m)
      exact ⟨hsetup.state, hsetup.matched, hsetup.mustChange, hsetup.key⟩
    · exact State.promotion_mustChange (s := s.roundLeft m) hmatched hopen _
  case kept =>
    have hnone : promotedChange (s.roundLeft m) (r.closedBy s m) (classifyRound s.sup (r.takenBy s m)) = none := by
      refine promotedChange_none ?_
      rw [hroster]
      rcases hnot with h | h | h | h
      · exact .inl (by rw [hclass, if_neg (by exact h)]; nofun)
      · exact .inr (.inl h)
      · exact .inr (.inr (.inl h))
      · refine .inr (.inr (.inr fun p hp => Bool.eq_false_iff.2 fun hc => ?_))
        obtain ⟨hstored, harg⟩ := (ofArg_iff _ _).1 hc
        exact (h p hp).elim (fun hf => absurd (hstored.symm.trans hf) nofun) fun ha => ha harg
    rw [State.endSetcode_drops hnone]
    refine ⟨?_, ?_, ?_, State.roundOver_settle_triggersMay (s := (s.roundLeft m).changeLeft) _⟩
    all_goals simp [State.changeLeft, State.roundLeft_frame]

end Sys2Proof.Machine

end


section
/-! PROOF. What the triggers leave of the armed entries, and the end of a SETMARK round (R117, R123, R141). -/

namespace Sys2Proof.Machine

/-! ## Nothing is armed but by the end of STARTING -/

/-- An operation of the triggers that arms nothing and does not end STARTING. -/
structure ArmsNothing (s u : State) : Prop where
  armed : ∀ e, inEntries u.pol.armed e = true → inEntries s.pol.armed e = true
  quiet : Notice.startingEnded ∉ s.notices → Notice.startingEnded ∉ u.notices

namespace ArmsNothing

variable {s u v : State}

theorem refl (s : State) : ArmsNothing s s := ⟨fun _ h => h, id⟩

theorem trans (h : ArmsNothing s u) (h' : ArmsNothing u v) : ArmsNothing s v :=
  ⟨fun e he => h.armed e (h'.armed e he), fun hn => h'.quiet (h.quiet hn)⟩

theorem of_same (harmed : u.pol.armed = s.pol.armed) (hn : Notice.startingEnded ∉ s.notices → Notice.startingEnded ∉ u.notices) :
    ArmsNothing s u :=
  ⟨fun e he => by rwa [harmed] at he, hn⟩

theorem runAction (s : State) (e : EntryNo) : ArmsNothing s (s.runAction e) := by
  rcases s.runAction_cases e with hr | ⟨n, hr⟩ | hr | hr | ⟨n, hr⟩ | ⟨p, -, harmed, hr⟩ <;> rw [hr]
  · exact .refl s
  · exact .of_same (by simp) fun hn => State.holdRequest_no_startingEnded hn n
  · exact .of_same (by simp) fun hn => by simpa using State.lockLocally_no_startingEnded hn
  · exact .of_same (by simp) fun hn => by simpa using hn
  · exact .of_same rfl id
  · exact .of_same harmed id

theorem disarm (s : State) (set : BitVec 8) : ArmsNothing s (s.disarm set) := by
  refine ⟨fun e he => ?_, id⟩
  rw [s.disarm_armed] at he
  simp only [inEntries, BitVec.getLsbD_and, Bool.and_eq_true] at he
  exact he.1

theorem foldl {α : Type} {f : State → α → State} (hf : ∀ u a, ArmsNothing u (f u a)) (l : List α) (s : State) :
    ArmsNothing s (l.foldl f s) := by
  induction l generalizing s with
  | nil => exact .refl s
  | cons a l ih => exact (hf s a).trans (ih _)

theorem fire (s : State) (e : EntryNo) : ArmsNothing s (s.fire e) := by
  unfold State.fire
  split
  · exact ((runAction s e).trans (.foldl runAction _ _)).trans (disarm _ _)
  · exact .refl s

theorem takeNotice (s : State) {n : Notice} (hn : n ≠ .startingEnded) : ArmsNothing s (s.takeNotice n) := by
  unfold State.takeNotice
  split
  · exact .refl s
  · split
    · unfold State.faultDisarm
      split
      · exact ⟨fun e he => absurd he (by simp [inEntries]), id⟩
      · exact .refl s
    · exact absurd rfl hn
    · dsimp only
      refine .trans ?_ (.foldl fire _ _)
      exact .of_same rfl id

theorem drain {s : State} (hn : Notice.startingEnded ∉ s.notices) : ∀ e, inEntries s.drain.pol.armed e = true →
    inEntries s.pol.armed e = true := by
  have hall : ∀ (n : Nat) (u : State), Notice.startingEnded ∉ u.notices → ∀ e,
      inEntries (drainNotices n u).pol.armed e = true → inEntries u.pol.armed e = true := by
    intro n
    induction n with
    | zero => exact fun u _ e he => he
    | succ n ih =>
      intro u hu e he
      rw [drainNotices] at he
      split at he
      · exact he
      · next x xs hnotices =>
        rw [hnotices, List.mem_cons, not_or] at hu
        have hstep := takeNotice { u with notices := xs } (Ne.symm hu.1)
        exact hstep.armed e (ih _ (hstep.quiet hu.2) e he)
  exact hall _ s hn

end ArmsNothing

theorem State.settle_armed {s : State} (hn : Notice.startingEnded ∉ s.notices) (e : EntryNo)
    (he : inEntries s.settle.pol.armed e = true) : inEntries s.pol.armed e = true :=
  ArmsNothing.drain hn e (by simpa [State.settle] using he)

/-! ## SETMARK -/

theorem State.ownersEnd_setmark {s : State} {r : RoundRec} {cls : RoundClass} (happlies : cls.applies = true)
    (hkind : r.kind = some .setmark) (hstaged : r.staged = true) :
    s.ownersEnd r cls = if r.arg.getLsbD 15 then s.endFixed r (cls == .complete && r.mapOf .stored == rosterSet s.sup.roster)
      else s.endSession (cls == .complete && r.mapOf .stored == rosterSet s.sup.roster) := by
  unfold State.ownersEnd State.endSetmark
  rw [if_pos happlies, hkind]
  exact if_pos hstaged

theorem withSession_get (marks : Vector SessionMark 64) (c : SessionChange) (e : Extent) :
    (withSession marks c).get e = if c.extent = none ∨ c.extent = some e then c.mark else marks.get e := by
  unfold withSession
  cases hc : c.extent with
  | none => simp [Vector.get_eq_getElem]
  | some x =>
    simp only [Vector.get_eq_getElem, Vector.getElem_set, Option.some.injEq, reduceCtorEq, false_or, Fin.ext_iff]

theorem State.endSession_spec {s : State} {c : SessionChange} (h : s.gate.staging = some c) (applies : Bool) :
    (s.endSession applies).gate.staging = none ∧ (s.endSession applies).gate.fixedMarks = s.gate.fixedMarks
      ∧ ∀ e : Extent, (s.endSession applies).gate.session.get e
        = if applies = true ∧ (c.extent = none ∨ c.extent = some e) then c.mark else s.gate.session.get e := by
  unfold State.endSession
  rw [h]
  refine ⟨rfl, rfl, fun e => ?_⟩
  cases applies with
  | false => simp
  | true => simpa using withSession_get s.gate.session c e

theorem State.endFixed_spec {s : State} {r : RoundRec} {p : PendingMark} (hp : s.gate.pendingMark = some p)
    (hstored : p.stored = true) (harg : p.arg = r.arg) (hbusy : s.gate.pmBusy = none) (hwait : s.gate.pmWaiting = [])
    (applies : Bool) :
    (s.endFixed r applies).gate.pendingMark = none ∧ (s.endFixed r applies).gate.session = s.gate.session
      ∧ (s.endFixed r applies).gate.fixedMarks = (if applies = true ∧ s.wipe.journal.phase = .none then
          s.gate.fixedMarks.set p.extent.val p.mark else s.gate.fixedMarks) := by
  have hof : pendingOf s r.arg = some p := by simp [pendingOf, hp, Option.filter, hstored, harg]
  have hdiscard : s.discardMark.gate.pendingMark = none := by
    simp [State.discardMark, hp, hbusy, hwait, State.askPm, State.beginPm, apply_ite State.gate, apply_ite Gate.pendingMark]
  unfold State.endFixed
  rw [hof]
  dsimp only
  split
  · exact ⟨rfl, rfl, rfl⟩
  · exact ⟨hdiscard, by simp, by simp⟩

end Sys2Proof.Machine

end


section
/-! PROOF. The end of a FIT round, and what its items write (R113, R127, R141, R174, R175). -/

namespace Sys2Proof.Machine

/-! ## Items -/

theorem withItem_header (p : PolicyTable) (faultDisarm frozen : Bool) :
    p.withItem (.header faultDisarm frozen) = { p with
      faultDisarm := faultDisarm
      frozen := frozen
      check := Config.policyCheckOf faultDisarm frozen p.entries } := rfl

theorem set_entry_get (entries : Vector PolicyEntry 8) (e x : EntryNo) (v : PolicyEntry) :
    (entries.set e.val v).get x = if x = e then v else entries.get x := by
  simp only [Vector.get_eq_getElem, Vector.getElem_set, Fin.ext_iff, eq_comm]

/-- What the marks item puts at an extent. -/
def markAt (codes : BitVec 32) (j : Nat) : FixedMark := (fixedOfCode (markCodeAt codes j)).getD .normal

theorem withMarks_upto (marks : Vector FixedMark 64) (k : Nat) (codes : BitVec 32) (e : Extent) (n : Nat) (hn : n ≤ 16) :
    ((List.range n).foldl (fun m j => m.setIfInBounds (16 * k + j) (markAt codes j)) marks).get e
      = if e.val / 16 = k ∧ e.val % 16 < n then markAt codes (e.val % 16) else marks.get e := by
  induction n with
  | zero => simp
  | succ n ih =>
    rw [List.range_succ, List.foldl_append, List.foldl_cons, List.foldl_nil]
    simp only [Vector.get_eq_getElem] at ih ⊢
    rw [Vector.getElem_setIfInBounds, ih (by omega)]
    by_cases he : 16 * k + n = e.val
    · have hj : e.val % 16 = n := by omega
      have hk : e.val / 16 = k := by omega
      simp [he, hj, hk]
    · rw [if_neg he]
      have hiff : (e.val / 16 = k ∧ e.val % 16 < n) ↔ (e.val / 16 = k ∧ e.val % 16 < n + 1) := by omega
      simp only [hiff]

theorem withMarks_get (marks : Vector FixedMark 64) (k : Nat) (codes : BitVec 32) (e : Extent) :
    (withMarks marks k codes).get e = if e.val / 16 = k then markAt codes (e.val % 16) else marks.get e := by
  have hall := withMarks_upto marks k codes e 16 le_rfl
  have hlt : e.val % 16 < 16 := Nat.mod_lt _ (by omega)
  refine Eq.trans hall ?_
  simp only [hlt, and_true]

theorem markCodeAt_bits (codes : BitVec 32) {j : Nat} (hj : j < 16) :
    markCodeAt codes j = 2 * (codes.getLsbD (31 - 2 * j)).toNat + (codes.getLsbD (30 - 2 * j)).toNat := by
  have htwo : ∀ v : BitVec 2, v.toNat = 2 * (v.getLsbD 1).toNat + (v.getLsbD 0).toNat := by decide
  have hnext : 30 - 2 * j + 1 = 31 - 2 * j := by omega
  rw [markCodeAt, htwo, BitVec.getLsbD_extractLsb', BitVec.getLsbD_extractLsb', hnext]
  rfl

theorem markAt_bits (codes : BitVec 32) {j : Nat} (hj : j < 16)
    (h : ¬(codes.getLsbD (31 - 2 * j) = true ∧ codes.getLsbD (30 - 2 * j) = true)) :
    markAt codes j = if codes.getLsbD (31 - 2 * j) = true then .frozen
      else if codes.getLsbD (30 - 2 * j) = true then .pub else .normal := by
  rw [markAt, markCodeAt_bits codes hj]
  cases hhigh : codes.getLsbD (31 - 2 * j) <;> cases hlow : codes.getLsbD (30 - 2 * j)
  · rfl
  · rfl
  · rfl
  · exact absurd ⟨hhigh, hlow⟩ h

theorem changedEntries_self (t : PolicyTable) : changedEntries t t = 0 := by
  simp [changedEntries]

/-! ## FIT -/

theorem State.ownersEnd_fit {s : State} {r : RoundRec} {cls : RoundClass} (happlies : cls.applies = true)
    (hkind : r.kind = some .fit) : s.ownersEnd r cls = s.endFit r cls := by
  unfold State.ownersEnd
  rw [if_pos happlies, hkind]

/-- The station without the round's item (R174). -/
def State.itemLeft (s : State) : State := { s with stat := { s.stat with fit := none } }

theorem State.endFit_applies {s : State} {r : RoundRec} {cls : RoundClass} {index : Arg} {w : BitVec 32} {item : FitItem}
    (hfit : s.stat.fit = some (index, w)) (hitem : fitItemOf index w = some item) (hstaged : r.staged = true) :
    s.endFit r cls = if cls = .complete ∧ r.mapOf .stored = rosterSet s.sup.roster then s.itemLeft.applyItem item
      else s.itemLeft := by
  unfold State.endFit
  rw [hfit]
  simp only [Option.bind_some, hitem, hstaged, true_and]
  rfl

/-- A table written disarms its changed entries (R127). -/
theorem State.writePolicy_spec (s : State) (t : PolicyTable) :
    (s.writePolicy t).pol.table = t ∧ (s.writePolicy t).pol.armed &&& changedEntries s.pol.table t = 0
      ∧ (s.writePolicy t).gate = s.gate ∧ (s.writePolicy t).stat = s.stat ∧ (s.writePolicy t).notices = s.notices := by
  have hoff : ∀ a c : BitVec 8, (a &&& ~~~c) &&& c = 0 := fun a c => by
    rw [BitVec.and_assoc]
    simp
  refine ⟨rfl, ?_, rfl, rfl, rfl⟩
  rw [State.writePolicy]
  exact hoff _ _

/-- An item applied (R174). -/
structure ItemApplied (s : State) (item : FitItem) (u : State) : Prop where
  table : u.pol.table = s.pol.table.withItem item
  marks : ∀ group codes, item = .marks group codes → u.gate.fixedMarks = withMarks s.gate.fixedMarks group codes
  noMarks : (∀ group codes, item ≠ .marks group codes) → u.gate.fixedMarks = s.gate.fixedMarks
  armed : u.pol.armed &&& changedEntries s.pol.table (s.pol.table.withItem item) = 0
  fit : u.stat.fit = s.stat.fit
  notices : u.notices = s.notices

theorem State.applyItem_applied (s : State) (item : FitItem) : ItemApplied s item (s.applyItem item) := by
  have hwrite : (∀ group codes, item ≠ .marks group codes) → s.applyItem item = s.writePolicy (s.pol.table.withItem item) →
      ItemApplied s item (s.applyItem item) := by
    intro hnot hw
    obtain ⟨table, armed, gate, stat, notices⟩ := s.writePolicy_spec (s.pol.table.withItem item)
    rw [hw]
    exact ⟨table, fun group codes hm => absurd hm (hnot group codes), fun _ => by rw [gate], armed, by rw [stat], notices⟩
  cases item with
  | marks group codes =>
    have happly : s.applyItem (.marks group codes) = s.putMarks (withMarks s.gate.fixedMarks group codes) false := rfl
    have hsame : s.pol.table.withItem (.marks group codes) = s.pol.table := rfl
    rw [happly]
    refine ⟨by simp [hsame], fun _ _ hm => ?_, fun hnot => absurd rfl (hnot group codes), ?_, by simp, by simp⟩
    · cases hm
      simp [State.putMarks]
    · rw [hsame, changedEntries_self]
      exact BitVec.and_zero
  | header => exact hwrite nofun rfl
  | partA => exact hwrite nofun rfl
  | partB => exact hwrite nofun rfl

theorem and_eq_zero_of_subset {a b c : BitVec 8} (h : ∀ e, inEntries a e = true → inEntries b e = true) (hb : b &&& c = 0) :
    a &&& c = 0 := by
  have hnone : ∀ e, inEntries (0 : BitVec 8) e = false := fun e => by simp [inEntries]
  have hand : ∀ (x y : BitVec 8) e, inEntries (x &&& y) e = (inEntries x e && inEntries y e) := fun x y e =>
    BitVec.getLsbD_and
  refine entries_ext fun e => ?_
  have hbe := hand b c e
  rw [hb, hnone] at hbe
  rw [hand, hnone]
  cases ha : inEntries a e with
  | false => rfl
  | true => rw [hbe, h e ha]

/-- Settles O49: what was staged is applied in a COMPLETE round in which all stored, and dropped otherwise; an item writes its
own fields. -/
theorem setmarkAndFitApplyWhatWasStaged : Obligations.SetmarkAndFitApplyWhatWasStaged := by
  unfold Obligations.SetmarkAndFitApplyWhatWasStaged
  refine ⟨fun s r b m all hin hpart hans hkind hstaged hall => ?setmark,
    fun s r b m index w item hin hpart hans hkind hstaged hfit hitem => ?fit, fun p q item hq => ?items,
    fun marks k codes e h => ?marks⟩
  case setmark =>
    have happlies := classifyRound_applies (r := r.takenBy s m) hpart hans s.sup
    have hroster := (s.roundLeft_sup m).2.2
    have happ : ((classifyRound s.sup (r.takenBy s m) == .complete)
        && (r.closedBy s m).mapOf .stored == rosterSet (s.roundLeft m).sup.roster) = all := by
      rw [hall, hroster, classifyRound_answered (r := r.takenBy s m) hpart hans]
      by_cases ha : (r.takenBy s m).accept = rosterSet s.sup.roster
      · rw [if_pos ha, show takenMap s.sup (s.line.offer == Offer.slot) m = rosterSet s.sup.roster from ha]
        simp
        rfl
      · rw [if_neg ha, beq_eq_false_iff_ne.2 (show takenMap s.sup (s.line.offer == Offer.slot) m ≠ rosterSet s.sup.roster from ha)]
        rfl
    have howners := State.ownersEnd_setmark (s := s.roundLeft m) (r := r.closedBy s m) happlies hkind hstaged
    rw [happ] at howners
    refine ⟨_, exec_roundEnd_owners hin m howners, fun c hsession hstaging => ?_,
      fun p hfixed hp hstored harg hbusy hwait => ?_⟩
    · have hoff : ¬(r.closedBy s m).arg.getLsbD 15 = true := Bool.eq_false_iff.1 hsession
      obtain ⟨staging, marks, session⟩ := State.endSession_spec (s := s.roundLeft m) hstaging all
      rw [if_neg hoff]
      have hmarks : ∀ u : State, (u.roundOver (r.closedBy s m)).settle.gate.fixedMarks = u.gate.fixedMarks := fun u => by simp
      refine ⟨by simpa using staging, (hmarks _).trans marks, fun e => ?_⟩
      rw [State.settle_session, (State.roundOver_rest _ _).1, State.takeDueDeadline_session, session e]
      rfl
    · obtain ⟨pending, session, marks⟩ := State.endFixed_spec (s := s.roundLeft m) (r := r.closedBy s m) hp hstored harg hbusy hwait all
      have hon : (r.closedBy s m).arg.getLsbD 15 = true := hfixed
      rw [if_pos hon]
      refine ⟨by simpa using pending, ?_, ?_⟩
      · rw [State.settle_session, (State.roundOver_rest _ _).1, State.takeDueDeadline_session, session]
        rfl
      · rw [State.settle_fixedMarks, (State.roundOver_inner _ _).2.2.2.1, marks]
        rfl
  case fit =>
    have happlies := classifyRound_applies (r := r.takenBy s m) hpart hans s.sup
    have hroster := (s.roundLeft_sup m).2.2
    have hn : Notice.startingEnded ∉ (s.roundLeft m).notices := by simp [State.roundLeft]
    have hwhen : (classifyRound s.sup (r.takenBy s m) = .complete ∧ (r.closedBy s m).mapOf .stored
        = rosterSet (s.roundLeft m).sup.roster) ↔ takenMap s.sup (s.line.offer == Offer.slot) m = rosterSet s.sup.roster
          ∧ r.mapOf .stored = rosterSet s.sup.roster := by
      rw [hroster, classifyRound_answered (r := r.takenBy s m) hpart hans]
      refine and_congr ?_ Iff.rfl
      show _ ↔ (r.takenBy s m).accept = _
      split <;> simp_all
    have howners := (State.ownersEnd_fit (s := s.roundLeft m) happlies hkind).trans
      (State.endFit_applies (r := r.closedBy s m) (cls := classifyRound s.sup (r.takenBy s m)) hfit hitem hstaged)
    have hfields : ∀ u : State, (u.roundOver (r.closedBy s m)).settle.stat.fit = u.stat.fit
        ∧ (u.roundOver (r.closedBy s m)).settle.pol.table = u.pol.table
        ∧ (u.roundOver (r.closedBy s m)).settle.gate.fixedMarks = u.gate.fixedMarks := fun u => by simp
    have hitemApplied := (s.roundLeft m).itemLeft.applyItem_applied item
    refine ⟨_, exec_roundEnd_owners hin m howners, ?_, ?_⟩
    · rw [(hfields _).1]
      split
      · exact hitemApplied.fit
      · rfl
    · by_cases hall : takenMap s.sup (s.line.offer == Offer.slot) m = rosterSet s.sup.roster
          ∧ r.mapOf .stored = rosterSet s.sup.roster
      · rw [if_pos hall, if_pos (hwhen.2 hall), (hfields _).2.1, (hfields _).2.2]
        refine ⟨hitemApplied.table, ?_, ?_⟩
        · cases item with
          | marks group codes => exact hitemApplied.marks group codes rfl
          | header => exact hitemApplied.noMarks nofun
          | partA => exact hitemApplied.noMarks nofun
          | partB => exact hitemApplied.noMarks nofun
        · refine and_eq_zero_of_subset (fun e he => ?_) hitemApplied.armed
          have hover := State.settle_armed (State.roundOver_no_startingEnded (by rw [hitemApplied.notices]; exact hn) _) e he
          simpa using hover
      · rw [if_neg hall, if_neg (mt hwhen.1 hall), (hfields _).2.1, (hfields _).2.2]
        exact ⟨rfl, rfl⟩
  case items =>
    subst hq
    cases item with
    | header faultDisarm frozen =>
      exact ⟨fun _ _ h => by cases h; exact ⟨rfl, rfl, rfl⟩, nofun, nofun, fun _ => rfl, nofun⟩
    | partA e cause causeArg action links repeats armAtStart =>
      refine ⟨nofun, fun _ _ _ _ _ _ _ h => ?_, nofun, fun _ => rfl, nofun⟩
      cases h
      exact ⟨rfl, rfl, fun x => set_entry_get _ _ _ _⟩
    | partB e timer seconds =>
      refine ⟨nofun, nofun, fun _ _ _ h => ?_, fun _ => rfl, nofun⟩
      cases h
      exact ⟨rfl, rfl, fun x => set_entry_get _ _ _ _⟩
    | marks group codes => exact ⟨nofun, nofun, nofun, fun h => absurd rfl (h group codes), fun _ _ _ => rfl⟩
  case marks =>
    rw [withMarks_get, markAt_bits codes (Nat.mod_lt _ (by omega)) h]
    revert h
    cases codes.getLsbD (31 - 2 * (e.val % 16)) <;> cases codes.getLsbD (30 - 2 * (e.val % 16)) <;> intro h
    · rfl
    · rfl
    · rfl
    · exact absurd ⟨rfl, rfl⟩ h

end Sys2Proof.Machine

end


section
/-! PROOF. The ends of PROGRESS, STATUS and CLEAR rounds (R16, R105, R156, R157, R169, R172). -/

namespace Sys2Proof.Machine

/-! ## PROGRESS -/

theorem State.ownersEnd_progress {s : State} {r : RoundRec} {cls : RoundClass} (happlies : cls.applies = true)
    (hkind : r.kind = some .progress) : s.ownersEnd r cls = s.endProgress r cls := by
  unfold State.ownersEnd
  rw [if_pos happlies, hkind]

/-- The wipe is over (R105, R156). -/
structure WipeEnded (s : State) (badHi : Nat) (u : State) : Prop where
  journal : u.wipe.journal = { s.wipe.journal with phase := .none }
  timer : u.wipe.progressTimer = none
  tally : u.tal.tally = 0
  deadline : u.tal.deadline = none
  owed : u.tal.holdOwed = 0
  state : s.grd.state = .wiping → u.grd.state = .blank
  bad : 0 < badHi → u.stat.flags.has .eraseBad = true
  store : s.grd.state = .wiping → s.wipe.busy = none → s.wipe.again = none →
    u.wipe.busy = some { s.wipe.journal with phase := .none } ∧ u.wipe.again = none
  notices : Notice.startingEnded ∉ s.notices → Notice.startingEnded ∉ u.notices

/-- The journal is NONE and its store asked for (R156). -/
def State.wipeDone (s : State) : State :=
  ({ s with wipe := { s.wipe with
      journal := { s.wipe.journal with phase := .none }
      progressTimer := none } } : State).askJournal { s.wipe.journal with phase := .none }

theorem State.returnToBlank_eq (s : State) (badHi : Nat) :
    s.returnToBlank badHi
      = if ((if badHi > 0 then s.wipeDone.setFlag .eraseBad else s.wipeDone).setTally 0).clearHold.grd.state = .wiping then
          ((if badHi > 0 then s.wipeDone.setFlag .eraseBad else s.wipeDone).setTally 0).clearHold.setGuard .blank
        else ((if badHi > 0 then s.wipeDone.setFlag .eraseBad else s.wipeDone).setTally 0).clearHold := rfl

theorem State.wipeDone_store {s : State} (hwiping : s.grd.state = .wiping) (hbusy : s.wipe.busy = none)
    (hagain : s.wipe.again = none) :
    s.wipeDone.wipe.busy = some { s.wipe.journal with phase := .none } ∧ s.wipeDone.wipe.again = none := by
  have hbegins := State.askJournal_begins
    (s := { s with wipe := { s.wipe with
      journal := { s.wipe.journal with phase := .none }
      progressTimer := none } })
    (j := { s.wipe.journal with phase := .none }) (by simp [hwiping]) hbusy hagain
  unfold State.wipeDone
  rw [hbegins]
  exact ⟨rfl, hagain⟩

theorem State.clearHold_spec (s : State) : s.clearHold.tal.deadline = none ∧ s.clearHold.tal.holdOwed = 0 := ⟨rfl, rfl⟩

theorem State.returnToBlank_ends (s : State) (badHi : Nat) : WipeEnded s badHi (s.returnToBlank badHi) := by
  rw [s.returnToBlank_eq]
  generalize hu : (if badHi > 0 then s.wipeDone.setFlag .eraseBad else s.wipeDone) = u
  have hwipe : u.wipe = s.wipeDone.wipe := by rw [← hu]; split <;> simp
  have hgrd : u.grd.state = s.grd.state := by rw [← hu]; split <;> simp [State.wipeDone]
  have hbad : 0 < badHi → u.stat.flags.has .eraseBad = true := fun h => by
    rw [← hu, if_pos h]
    exact State.setFlag_has _ _
  have hnotices : Notice.startingEnded ∉ s.notices → Notice.startingEnded ∉ u.notices := fun hn hc => by
    have hdone : s.wipeDone.notices = s.notices := by simp [State.wipeDone]
    rw [← hu] at hc
    split at hc
    · exact hn (hdone ▸ State.setFlag_startingEnded hc)
    · exact hn (hdone ▸ hc)
  have htally : Notice.startingEnded ∉ u.notices → Notice.startingEnded ∉ (u.setTally 0).clearHold.notices := fun hn => by
    unfold State.setTally
    split
    · exact hn
    · simp [hn]
  obtain ⟨hdeadline, howed⟩ := (u.setTally 0).clearHold_spec
  have hjournal : s.wipeDone.wipe.journal = { s.wipe.journal with phase := .none }
      ∧ s.wipeDone.wipe.progressTimer = none := by simp [State.wipeDone]
  split
  · next hw =>
    exact {
      journal := by simpa [hwipe] using hjournal.1
      timer := by simpa [hwipe] using hjournal.2
      tally := by simp
      deadline := by simp
      owed := by simp
      state := fun _ => by simp
      bad := fun h => by simpa using hbad h
      store := fun h hb ha => by simpa [hwipe] using State.wipeDone_store h hb ha
      notices := fun hn => State.setGuard_no_startingEnded (htally (hnotices hn)) _ }
  · next hw =>
    exact {
      journal := by simpa [hwipe] using hjournal.1
      timer := by simpa [hwipe] using hjournal.2
      tally := by simp
      deadline := hdeadline
      owed := howed
      state := fun h => absurd (by simpa [hgrd] using h) hw
      bad := fun h => by simpa using hbad h
      store := fun h hb ha => by simpa [hwipe] using State.wipeDone_store h hb ha
      notices := fun hn => htally (hnotices hn) }

/-- Settles O50: a full PROGRESS ends the wipe, and any other leaves it. -/
theorem aFullProgressEndsTheWipe : Obligations.AFullProgressEndsTheWipe := by
  unfold Obligations.AFullProgressEndsTheWipe
  intro s r b m full hin hpart hans hkind hfull
  have happlies := classifyRound_applies (r := r.takenBy s m) hpart hans s.sup
  have hroster := (s.roundLeft_sup m).2.2
  have hn : Notice.startingEnded ∉ (s.roundLeft m).notices := by simp [State.roundLeft]
  have hwhen : (classifyRound s.sup (r.takenBy s m) = .complete ∧ (r.closedBy s m).mapOf .done
      = rosterSet (s.roundLeft m).sup.roster) ↔ full = true := by
    rw [hroster, classifyRound_answered (r := r.takenBy s m) hpart hans, hfull, Bool.and_eq_true, beq_iff_eq, beq_iff_eq]
    refine and_congr ?_ Iff.rfl
    show _ ↔ (r.takenBy s m).accept = _
    split <;> simp_all
  have howners := State.ownersEnd_progress (s := s.roundLeft m) (r := r.closedBy s m) happlies hkind
  refine ⟨_, exec_roundEnd_owners hin m howners, ?_, ?_, fun h => ?_, fun h => ?_⟩
  · simp [State.endProgress, State.roundLeft_frame, apply_ite State.nv]
  · simp [State.endProgress, State.roundLeft_frame, apply_ite State.pol]
  · have hend : (s.roundLeft m).endProgress (r.closedBy s m) (classifyRound s.sup (r.takenBy s m))
        = (s.roundLeft m).returnToBlank ((r.closedBy s m).numberOf .badHi) := if_pos (hwhen.2 h)
    have hended := (s.roundLeft m).returnToBlank_ends ((r.closedBy s m).numberOf .badHi)
    have harmed : ((s.roundLeft m).returnToBlank ((r.closedBy s m).numberOf .badHi)).pol.armed = s.pol.armed := by
      simp [State.roundLeft_frame]
    rw [hend]
    generalize (s.roundLeft m).returnToBlank ((r.closedBy s m).numberOf .badHi) = u at hended harmed ⊢
    refine ⟨by simpa [State.roundLeft_frame] using hended.journal, by simpa using hended.timer, by simpa using hended.tally,
      fun hw => ?_, fun hb => ?_, fun hw hb ha => ?_, fun hoff => ?_⟩
    · have hblank := hended.state hw
      rw [State.roundOver_settle_stays (by rw [hblank]; simp) (by rw [hblank]; simp), hblank]
    · simpa using State.roundOver_has (hended.bad hb) (r.closedBy s m)
    · obtain ⟨hstore, hagain⟩ := hended.store hw hb ha
      rw [State.settle_busy, State.roundOver_wipe_of_none hagain, hstore]
      rfl
    · have hend := State.roundOver_settle_unarmed (harmed.trans hoff) (hended.notices hn) (r.closedBy s m)
      rw [hend.tal]
      exact ⟨by simpa using hended.deadline, by simpa using hended.owed⟩
  · have hend : (s.roundLeft m).endProgress (r.closedBy s m) (classifyRound s.sup (r.takenBy s m)) = s.roundLeft m :=
      if_neg (mt hwhen.1 (by simp [h]))
    rw [hend]
    refine ⟨by simp [State.roundLeft_frame], by simp [State.roundLeft_frame],
      State.roundOver_settle_triggersMay (s := s.roundLeft m) _⟩

end Sys2Proof.Machine

end


section
/-! PROOF. The ends of STATUS and CLEAR rounds (R169, R172). -/

namespace Sys2Proof.Machine

/-! ## What leaves one flag and its reported mark alone -/

/-- The flag and its reported mark stay as they are. -/
def KeepsFlag (f : Flag) (s u : State) : Prop :=
  u.stat.flags.has f = s.stat.flags.has f ∧ u.stat.reported.getLsbD f.bit = s.stat.reported.getLsbD f.bit

theorem KeepsFlag.of_stat {f : Flag} {s u : State} (h : u.stat = s.stat) : KeepsFlag f s u := by
  unfold KeepsFlag
  rw [h]
  exact ⟨rfl, rfl⟩

theorem KeepsFlag.trans {f : Flag} {s u v : State} (h : KeepsFlag f s u) (g : KeepsFlag f u v) : KeepsFlag f s v :=
  ⟨g.1.trans h.1, g.2.trans h.2⟩

/-- Each flag has its own mark. -/
theorem Flag.mask_bit (f g : Flag) : g.mask.getLsbD f.bit = (f == g) := by
  cases f <;> cases g <;> decide

theorem Flag.bit_lt (f : Flag) : f.bit < 12 := by
  cases f <;> decide

theorem State.setFlag_keepsFlag {f g : Flag} (h : f ≠ g) (s : State) : KeepsFlag f s (s.setFlag g) := by
  refine ⟨State.setFlag_has_of_ne h s, ?_⟩
  rw [s.setFlag_stat]
  simp only [BitVec.getLsbD_and, BitVec.getLsbD_not, Flag.mask_bit, beq_eq_false_iff_ne.2 h, f.bit_lt]
  simp

/-! ## Queue and roster view -/

theorem State.takeDueDeadline_mem_queue {s : State} {y : Request} (h : y ∈ s.takeDueDeadline.eng.queue) : y ∈ s.eng.queue := by
  rcases s.takeDueDeadline_cases with hd | ⟨hlocked, -, -, hd⟩ <;> rw [hd] at h
  · exact h
  · rw [State.setGuard_queue (by simp [hlocked])] at h
    exact (List.mem_filter.1 h).1

/-- With no request in flight that has had its ten retries the queue sets no flag (R51). -/
theorem State.endQueue_keepsFlag {s : State} {f : Flag}
    (h : f = .rollShort → ∀ y ∈ s.eng.queue, y.inFlight = true → y.retries < 10) (x : RoundRec) :
    KeepsFlag f s (s.endQueue x) := by
  unfold State.endQueue
  dsimp only
  split
  · exact .of_stat rfl
  · next hspent =>
    suffices hshort : f ≠ .rollShort from .trans (.of_stat (by rfl)) (State.setFlag_keepsFlag hshort _)
    rintro rfl
    obtain ⟨y, hmem, hy⟩ : ∃ y ∈ s.eng.queue, exhausted s.sup x y = true := by simpa using hspent
    obtain ⟨-, hflight, -, -, hten⟩ := (exhausted_iff _ _ _).1 hy
    exact absurd (h rfl y hmem hflight) (by omega)

/-- Some count goes from 2 to 3. -/
theorem reachesLost_iff (before after : Vector Nat 8) :
    reachesLost before after = true ↔ ∃ i : Fin 8, before.get i < 3 ∧ after.get i = 3 := by
  unfold reachesLost
  rw [List.any_eq_true]
  constructor
  · rintro ⟨p, hp, hlost⟩
    obtain ⟨i, hi, rfl⟩ := List.getElem_of_mem hp
    have hlt : i < 8 := by simpa using hi
    refine ⟨⟨i, hlt⟩, ?_⟩
    simpa [Config.lostRounds, Vector.get_eq_getElem] using hlost
  · rintro ⟨i, hb, ha⟩
    refine ⟨(before.get i, after.get i), ?_, by simp [Config.lostRounds, hb, ha]⟩
    refine List.mem_iff_getElem.2 ⟨i.val, by simp, ?_⟩
    simp [Vector.get_eq_getElem]

/-- A count goes from 2 to 3 at a peer that did not answer, and at no other (R54, R55). -/
theorem State.losesPeer_false {s : State} {x : RoundRec} (h : ∀ i : Fin 8, s.eng.absence.get i = 2 →
    s.sup.roster ≤ i.val ∨ i.val = s.sup.stn.toNat ∨ x.answer.getLsbD i.val = true) : s.losesPeer x = false := by
  have hnone : reachesLost s.eng.absence (countsAfter s.sup x.answer s.eng.absence) ≠ true := by
    intro hlost
    obtain ⟨i, hbefore, hafter⟩ := (reachesLost_iff _ _).1 hlost
    rw [countsAfter_get] at hafter
    by_cases hown : s.sup.roster ≤ i.val ∨ i.val = s.sup.stn.toNat
    · rw [if_pos hown] at hafter
      omega
    · rw [if_neg hown] at hafter
      by_cases hans : x.answer.getLsbD i.val = true
      · rw [if_pos hans] at hafter
        omega
      · rw [if_neg hans] at hafter
        rcases h i (by omega) with hr | hs | ha
        · exact hown (.inl hr)
        · exact hown (.inr hs)
        · exact hans ha
  simp [State.losesPeer, Bool.eq_false_iff.2 hnone]

theorem State.recordRound_keepsFlag {s : State} {x : RoundRec} {f : Flag} (h : f = .peerLost → s.losesPeer x = false) :
    KeepsFlag f s (s.recordRound x) := by
  by_cases hlost : s.losesPeer x = true
  · have hother : f ≠ .peerLost := fun hf => absurd (h hf) (by simp [hlost])
    exact (State.setFlag_keepsFlag hother s).trans (.of_stat (by rw [State.recordRound_stat, if_pos hlost]))
  · exact .of_stat (by rw [State.recordRound_stat, if_neg hlost])

/-- What follows the owners' part keeps a flag that this round's end does not set. -/
theorem State.roundOver_settle_keepsFlag {u : State} {x : RoundRec} {f : Flag}
    (hqueue : f = .rollShort → ∀ y ∈ u.eng.queue, y.inFlight = true → y.retries < 10)
    (hpeer : f = .peerLost → ∀ i : Fin 8, u.eng.absence.get i = 2 →
      u.sup.roster ≤ i.val ∨ i.val = u.sup.stn.toNat ∨ x.answer.getLsbD i.val = true) :
    KeepsFlag f u (u.roundOver x).settle := by
  have hdue : KeepsFlag f u u.takeDueDeadline := .of_stat (by simp)
  have hended := State.endQueue_keepsFlag (s := u.takeDueDeadline)
    (fun hf y hy => hqueue hf y (State.takeDueDeadline_mem_queue hy)) x
  have hrecorded : KeepsFlag f (u.takeDueDeadline.endQueue x) ((u.takeDueDeadline.endQueue x).recordRound x) := by
    refine State.recordRound_keepsFlag fun hf => State.losesPeer_false ?_
    simpa using hpeer hf
  exact ((hdue.trans hended).trans hrecorded).trans (.of_stat (by simp [State.roundOver]))

/-! ## STATUS and CLEAR -/

theorem State.ownersEnd_status {s : State} {r : RoundRec} {cls : RoundClass} (happlies : cls.applies = true)
    (hkind : r.kind = some .status) : s.ownersEnd r cls = s.endStatus r := by
  unfold State.ownersEnd
  rw [if_pos happlies, hkind]

theorem State.ownersEnd_clear {s : State} {r : RoundRec} {cls : RoundClass} (happlies : cls.applies = true)
    (hkind : r.kind = some .clear) : s.ownersEnd r cls = s.endClear r := by
  unfold State.ownersEnd
  rw [if_pos happlies, hkind]

/-- The carried set gets its reported marks, unless a second driver was met (R169). -/
theorem State.endStatus_marks (s : State) (r : RoundRec) (i : Nat) :
    (s.endStatus r).stat.reported.getLsbD i
      = (s.stat.reported.getLsbD i || (!r.secondDriver && (r.carried.getD 0).getLsbD i)) := by
  unfold State.endStatus
  cases hcarried : r.carried with
  | none => simp
  | some set =>
    cases hsecond : r.secondDriver with
    | true => simp
    | false => simp

theorem clearSet_bit (a : Arg) (f : Flag) : (clearSet a).getLsbD f.bit = a.getLsbD f.bit := by
  simp [clearSet, f.bit_lt]

theorem State.clearFlags_stat (s : State) (named : FlagSet) :
    (s.clearFlags named).stat.flags = s.stat.flags &&& ~~~clearable s.stat named
      ∧ (s.clearFlags named).stat.reported = s.stat.reported &&& ~~~clearable s.stat named := by
  unfold State.clearFlags
  dsimp only
  split <;> exact ⟨rfl, rfl⟩

theorem clearable_bit (st : Status) (named : FlagSet) (i : Nat) :
    (clearable st named).getLsbD i = (named.getLsbD i && st.flags.getLsbD i && st.reported.getLsbD i) := by
  simp only [clearable, BitVec.getLsbD_and]

/-- A CLEAR takes a flag that is named, set and reported, with its mark, and no other (R172). -/
theorem State.clearFlags_flag (s : State) (named : FlagSet) (f : Flag) :
    if named.getLsbD f.bit = true ∧ s.stat.reported.getLsbD f.bit = true ∧ s.stat.flags.has f = true then
      (s.clearFlags named).stat.flags.has f = false ∧ (s.clearFlags named).stat.reported.getLsbD f.bit = false
    else KeepsFlag f s (s.clearFlags named) := by
  obtain ⟨hflags, hreported⟩ := s.clearFlags_stat named
  unfold KeepsFlag
  rw [hflags, hreported]
  simp only [FlagSet.has, BitVec.getLsbD_and, BitVec.getLsbD_not, clearable_bit, f.bit_lt, decide_true, Bool.true_and]
  cases named.getLsbD f.bit <;> cases s.stat.reported.getLsbD f.bit <;> cases s.stat.flags.getLsbD f.bit <;> simp

theorem State.endClear_flag (s : State) (r : RoundRec) (f : Flag) :
    if (clearTarget r.arg = s.sup.stn.toNat ∨ clearTarget r.arg = 15) ∧ r.arg.getLsbD f.bit = true
        ∧ s.stat.reported.getLsbD f.bit = true ∧ s.stat.flags.has f = true then
      (s.endClear r).stat.flags.has f = false ∧ (s.endClear r).stat.reported.getLsbD f.bit = false
    else KeepsFlag f s (s.endClear r) := by
  unfold State.endClear
  by_cases htarget : clearTarget r.arg = s.sup.stn.toNat ∨ clearTarget r.arg = 15
  · rw [if_pos htarget]
    simpa only [htarget, true_and, clearSet_bit] using s.clearFlags_flag (clearSet r.arg) f
  · rw [if_neg htarget, if_neg fun h => htarget h.1]
    exact .of_stat rfl

/-- Settles O51: the owner's part decides the flag and its mark, and the rest of the round's end keeps both. -/
theorem statusReportsAndClearClears : Obligations.StatusReportsAndClearClears := by
  unfold Obligations.StatusReportsAndClearClears
  intro s r b m f hin hpart hans hqueue hpeer
  replace hpeer : f = .peerLost → ∀ i : Fin 8, s.eng.absence.get i = 2 →
      s.sup.roster ≤ i.val ∨ i.val = s.sup.stn.toNat ∨ (r.closedBy s m).answer.getLsbD i.val = true := hpeer
  have happlies := classifyRound_applies (r := r.takenBy s m) hpart hans s.sup
  obtain ⟨-, hstn, hroster⟩ := s.roundLeft_sup m
  refine ⟨fun hkind => ?status, fun hkind => ?clear⟩
  case status =>
    have howners := State.ownersEnd_status (s := s.roundLeft m) (r := r.closedBy s m) happlies hkind
    obtain ⟨hflag, hmark⟩ : KeepsFlag f ((s.roundLeft m).endStatus (r.closedBy s m))
        (((s.roundLeft m).endStatus (r.closedBy s m)).roundOver (r.closedBy s m)).settle := by
      refine State.roundOver_settle_keepsFlag ?_ ?_
      · simpa [State.roundLeft_frame] using hqueue
      · simpa [State.roundLeft_frame, hstn, hroster] using hpeer
    refine ⟨_, exec_roundEnd_owners hin m howners, hflag.trans ?_, hmark.trans ?_⟩
    · simp [State.roundLeft_frame]
    · rw [State.endStatus_marks]
      rfl
  case clear =>
    have howners := State.ownersEnd_clear (s := s.roundLeft m) (r := r.closedBy s m) happlies hkind
    have hkeeps : KeepsFlag f ((s.roundLeft m).endClear (r.closedBy s m))
        (((s.roundLeft m).endClear (r.closedBy s m)).roundOver (r.closedBy s m)).settle := by
      refine State.roundOver_settle_keepsFlag ?_ ?_
      · simpa [State.roundLeft_frame] using hqueue
      · simpa [State.roundLeft_frame, hstn, hroster] using hpeer
    have hflag := (s.roundLeft m).endClear_flag (r.closedBy s m) f
    rw [hstn] at hflag
    refine ⟨_, exec_roundEnd_owners hin m howners, ?_⟩
    split
    · next hcleared =>
      rw [if_pos (by exact hcleared)] at hflag
      exact ⟨hkeeps.1.trans hflag.1, hkeeps.2.trans hflag.2⟩
    · next hcleared =>
      rw [if_neg (by exact hcleared)] at hflag
      exact hflag.trans hkeeps

end Sys2Proof.Machine

end


section
/-! PROOF. Field marks that stand: what a mark fixes, and the hold field's marks of CHECK and WIPE (R25, R30, R86, R87, R91, R100,
R102, R144, R147, R169). -/

namespace Sys2Proof.Machine

/-! ## Events within a round leave nothing over -/

/-- The fields of the gate that decisions and grants read are the same (R131, R137). -/
structure SameGate (s u : State) : Prop where
  presented : u.gate.presented = s.gate.presented
  session : u.gate.session = s.gate.session
  marks : u.gate.fixedMarks = s.gate.fixedMarks
  lock : u.gate.markLockOpen = s.gate.markLockOpen
  outstanding : u.gate.outstanding = s.gate.outstanding
  ready : u.gate.portReady = s.gate.portReady
  erase : u.gate.eraseWaiting = s.gate.eraseWaiting

theorem SameGate.of_eq {s u : State} (h : u.gate = s.gate) : SameGate s u := by
  constructor <;> rw [h]

theorem SameGate.decision {s u : State} (h : SameGate s u) (sup : u.sup.state = s.sup.state) (grd : u.grd = s.grd)
    (r : BridgeRequest) : gateDecision u r = gateDecision s r := by
  unfold gateDecision
  rw [h.session, h.marks, h.lock, sup, grd]

theorem SameGate.candidate {s u : State} (h : SameGate s u) (sup : u.sup.state = s.sup.state) (grd : u.grd = s.grd) :
    bridgeCandidate u = bridgeCandidate s := by
  unfold bridgeCandidate
  rw [h.presented, h.outstanding]
  simp only [h.decision sup grd]

/-- A change in a round that touches neither the guard state nor what the gate reads leaves nothing over. -/
theorem Settled.inRound {s u : State} (h : Settled s) (notices : u.notices = []) (sup : u.sup = s.sup) (grd : u.grd = s.grd)
    (gate : SameGate s u) (view : u.line.view = .round) : Settled u where
  notices := notices
  decided r hr := (gate.decision (by rw [sup]) grd r).trans (h.decided r (gate.presented ▸ hr))
  granted hready := by
    rw [gate.candidate (by rw [sup]) grd, gate.erase]
    exact h.granted (by rw [← gate.ready, ← grd, ← sup]; exact hready)
  awake := .of_round view

/-- In a round no station falls DORMANT, and the line stands (R162). -/
theorem State.settle_line_of_round {s : State} (h : s.line.view = .round) : s.settle.line = s.line := by
  unfold State.settle
  have hline : s.drain.regate.grantPort.line = s.line := by simp
  unfold State.dormantIfQuiet
  rw [if_neg fun hc => hc.2.2.2.2 (hline ▸ h), hline]

/-! ## A mark that stands -/

/-- The mark reads dominant, or the station drives it (R22, R25). -/
theorem State.markStands_iff (s : State) (level : Level) :
    s.markStands level = true ↔ level = .dominant ∨ s.line.role = .opener ∨ s.line.role = .contender := by
  simp [State.markStands, or_assoc]

theorem State.fieldMarked_begins {s : State} {r : RoundRec} {f : Field} {level : Level} (hin : InRound s r (.atMark f))
    (hstands : s.markStands level = true) : s.fieldMarked level = s.enterField r f := by
  unfold State.fieldMarked
  rw [hin.record, hin.pos]
  exact if_pos hstands

/-- A mark that stands, of a field that gives the triggers nothing, ends the field's beginning itself. -/
theorem exec_fieldMark_begins {s : State} {r : RoundRec} {f : Field} {level : Level} (hs : Settled s)
    (hin : InRound s r (.atMark f)) (hstands : s.markStands level = true) (hnotices : (s.enterField r f).notices = []) :
    exec (.fieldMark level) s = .next (s.enterField r f) := by
  have hsettled : Settled (s.enterField r f) := by
    refine hs.inRound hnotices ?_ ?_ ?_ ?_
    · simp
    · simp
    · constructor <;> simp
    · simpa using hin.view
  show event (State.fieldMarked · level) s = _
  exact hs.event_eq (State.fieldMarked_begins hin hstands) hsettled

/-- A field other than HOLD begins (R25). -/
def State.inFieldNow (s : State) (f : Field) (offer : Offer) : State :=
  { s with line := { s.line with
      pos := .inField f 0
      offer := offer
      ownDrive := false
      idleTimer := none
      stuckTimer := some (s.line.stuckTimer.getD (s.now + 50))
      holdTimer := none } }

theorem State.enterField_of_ne_hold {f : Field} (hf : f ≠ .hold) (s : State) (r : RoundRec) :
    s.enterField r f = (s.fixAtMark r f).inFieldNow f (offerAt (s.fixAtMark r f) r f) := by
  have hhold : (f == Field.hold) = false := beq_eq_false_iff_ne.2 hf
  unfold State.enterField
  simp only [hhold]
  rfl

theorem exec_fieldMark_field {s : State} {r : RoundRec} {f : Field} {level : Level} (hs : Settled s)
    (hin : InRound s r (.atMark f)) (hstands : s.markStands level = true) (hf : f ≠ .hold) :
    exec (.fieldMark level) s = .next ((s.fixAtMark r f).inFieldNow f (offerAt (s.fixAtMark r f) r f)) := by
  have henter := State.enterField_of_ne_hold hf s r
  rw [← henter]
  refine exec_fieldMark_begins hs hin hstands ?_
  rw [henter]
  simpa [State.inFieldNow] using hs.notices

/-! ## What owners fix at a mark -/

theorem State.fixAtMark_unanswered {s : State} {r : RoundRec} (h : r.answered = false) (f : Field) : s.fixAtMark r f = s := by
  simp [State.fixAtMark, h]

/-- The must-change mark is fixed at FINGERPRINT of SETCODE (R91). -/
theorem State.fixAtMark_fingerprint {s : State} {r : RoundRec} (hans : r.answered = true) (hkind : r.kind = some .setcode) :
    s.fixAtMark r .fingerprint = { s with cred := { s.cred with
      roundChange := s.cred.roundChange.map fun c =>
        { c with mustChange := c.role == .user && s.grd.state == .admin } } } := by
  simp [State.fixAtMark, hans, hkind]

/-- The verdict is taken or not at its mark (R87). -/
theorem State.fixAtMark_verdict {s : State} {r : RoundRec} (hans : r.answered = true) :
    s.fixAtMark r .verdict = s.mapRound fun x => { x with tookVerdict := takesVerdict s r } := by
  simp [State.fixAtMark, hans]

/-- The target carries its flags from the mark of DETAIL on (R169). -/
theorem State.fixAtMark_detail {s : State} {r : RoundRec} (hans : r.answered = true) :
    s.fixAtMark r .detail
      = if r.arg.toNat = s.sup.stn.toNat then s.mapRound fun x => { x with carried := some s.stat.flags } else s := by
  simp [State.fixAtMark, hans]

theorem State.fixAtMark_hold (s : State) (r : RoundRec) : s.fixAtMark r .hold = s := by
  unfold State.fixAtMark
  split <;> rfl

theorem State.mapRound_eq {s : State} {r : RoundRec} (h : s.eng.round = some r) (f : RoundRec → RoundRec) :
    s.mapRound f = { s with eng := { s.eng with round := some (f r) } } := by
  simp [State.mapRound, h]

/-- Settles O34: each of the three marks fixes its owner's part before the offer is taken. -/
theorem marksFixWhatOwnersKeep : Obligations.MarksFixWhatOwnersKeep := by
  unfold Obligations.MarksFixWhatOwnersKeep
  intro s r hs hans
  have hstands : s.markStands .dominant = true := (s.markStands_iff _).2 (.inl rfl)
  refine ⟨fun hin hkind => ?fingerprint, fun hin => ?verdict, fun hin htarget => ?detail⟩
  case fingerprint =>
    refine ⟨_, exec_fieldMark_field hs hin hstands (by simp), rfl, ?_, ?_⟩
    · rw [State.fixAtMark_fingerprint hans hkind]
      rfl
    · simp only [State.inFieldNow, offerAt, hans, if_pos, bodyOffer, fingerprintOffer, hkind] <;> rfl
  case verdict =>
    refine ⟨_, exec_fieldMark_field hs hin hstands (by simp), rfl, ?_, ?_⟩
    · rw [State.fixAtMark_verdict hans, State.mapRound_eq hin.record]
      rfl
    · rw [State.fixAtMark_verdict hans, State.mapRound_eq hin.record]
      simp only [State.inFieldNow, offerAt, hans, if_pos, bodyOffer]
      rfl
  case detail =>
    refine ⟨_, exec_fieldMark_field hs hin hstands (by simp), rfl, ?_, ?_⟩
    · rw [State.fixAtMark_detail hans, if_pos htarget, State.mapRound_eq hin.record]
      rfl
    · rw [State.fixAtMark_detail hans, if_pos htarget, State.mapRound_eq hin.record]
      simp only [State.inFieldNow, offerAt, hans, if_pos, bodyOffer, htarget]
      rfl

/-! ## The hold field's mark -/

/-- A hold field begins: the hold timer runs and the line-stuck timer does not (R30). -/
def State.holdBegun (s : State) : State :=
  { s with line := { s.line with
      pos := .inField .hold 0
      offer := .nothing
      ownDrive := false
      idleTimer := none
      stuckTimer := none
      holdTimer := some (s.now + 200) } }

theorem offerAt_hold (s : State) (r : RoundRec) : offerAt s r .hold = .nothing := by
  simp [offerAt, bodyOffer]

theorem State.enterField_hold (s : State) (r : RoundRec) : s.enterField r .hold = s.holdBegun.holdMark r := by
  unfold State.enterField
  rw [s.fixAtMark_hold r]
  dsimp only
  rw [offerAt_hold]
  rfl

/-- The owner whose kind's round it is begins its store at the hold field's mark (R30). -/
theorem State.holdMark_of_kind {s : State} {r : RoundRec} (hans : r.answered = true) :
    (r.kind = some .check → s.holdMark r = s.holdMarkCheck r) ∧ (r.kind = some .setcode → s.holdMark r = s.holdMarkSetcode r)
      ∧ (r.kind = some .setmark → s.holdMark r = s.holdMarkSetmark r) ∧ (r.kind = some .wipe → s.holdMark r = s.holdMarkWipe r)
      ∧ (r.kind = some .fit → s.holdMark r = s.holdMarkFit r) := by
  unfold State.holdMark
  rw [if_pos hans]
  refine ⟨fun h => ?_, fun h => ?_, fun h => ?_, fun h => ?_, fun h => ?_⟩ <;> rw [h]

theorem State.holdMark_unanswered {s : State} {r : RoundRec} (hans : r.answered = false) : s.holdMark r = s := by
  simp [State.holdMark, hans]

/-- A hold field's mark that gives the triggers nothing ends what the owner begins at it. -/
theorem exec_fieldMark_hold {s u : State} {r : RoundRec} (hs : Settled s) (hin : InRound s r (.atMark .hold))
    (hu : s.holdBegun.holdMark r = u) (hnotices : u.notices = []) : exec (.fieldMark .dominant) s = .next u := by
  have henter := (s.enterField_hold r).trans hu
  rw [← henter]
  exact exec_fieldMark_begins hs hin ((s.markStands_iff _).2 (.inl rfl)) (henter ▸ hnotices)

/-! ## CHECK and WIPE -/

/-- What CHECK's hold field begins: the raised tally with its store, or nothing (R86, R102). -/
structure TallyRaised (s : State) (r : RoundRec) (u : State) : Prop where
  agreed : r.agreed = true → u.tal.tally = max s.tal.tally (min (r.numberOf .tallyHi) 99)
    ∧ u.tal.tallyStore = s.tal.tallyStore.put u.tal.tally ∧ u.line.ownDrive = true
  differs : r.agreed = false → u.tal = s.tal ∧ u.line.ownDrive = false

theorem State.holdMarkCheck_raises (s : State) (r : RoundRec) : TallyRaised s r (s.holdBegun.holdMarkCheck r) := by
  unfold State.holdMarkCheck
  constructor
  · intro h
    rw [if_pos h]
    dsimp only
    split <;> exact ⟨rfl, rfl, rfl⟩
  · intro h
    rw [if_neg (by simp [h])]
    exact ⟨rfl, rfl⟩

/-- With no order held or pending the ORDERED store begins and the line is held (R144). -/
theorem State.holdMarkWipe_orders {s : State} (r : RoundRec) (hphase : s.wipe.journal.phase = .none)
    (hpending : s.wipe.orderPending = none) (hstrap : s.grd.state ≠ .strapFault) (hbusy : s.wipe.busy = none) :
    s.holdMarkWipe r = { s with
      line := { s.line with ownDrive := true }
      wipe := { s.wipe with
        orderPending := some (causeOfArg r.arg)
        again := none
        busy := some { phase := .ordered, cause := causeOfArg r.arg, nextExtent := 0, bad := [], attempts := 0 } } } := by
  unfold State.holdMarkWipe
  rw [if_neg (by simp [hphase]), if_neg (by simp [hpending]), State.takeOrder,
    State.askJournal_begins (s := { s with wipe := { s.wipe with
      orderPending := some (causeOfArg r.arg)
      again := none } }) hstrap hbusy rfl]
  rfl

/-- A pending order is merged, and an order held counts as made (R144, R147). -/
theorem State.holdMarkWipe_ordered {s : State} (r : RoundRec)
    (h : ¬(s.wipe.journal.phase = .none ∧ s.wipe.orderPending = none)) :
    s.holdMarkWipe r = if s.wipe.journal.phase ≠ .none then s.mapRound fun r => { r with made := true } else s := by
  unfold State.holdMarkWipe
  by_cases hphase : s.wipe.journal.phase = .none
  · have hpending : s.wipe.orderPending.isSome = true := Option.isSome_iff_ne_none.2 fun hp => h ⟨hphase, hp⟩
    rw [if_neg (by simp [hphase]), if_pos hpending, if_neg (by simp [hphase])]
  · rw [if_pos hphase, if_pos hphase]

/-- Settles O36: the hold mark of CHECK raises the tally, that of WIPE begins or merges the order. -/
theorem checkAndWipeHoldMarks : Obligations.CheckAndWipeHoldMarks := by
  unfold Obligations.CheckAndWipeHoldMarks
  refine ⟨fun s r hin hkind hans => ?check, fun s r hs hin hkind hans hstrap hbusy hagain => ?wipe⟩
  case check =>
    have hmarked : ({ s with notices := [] } : State).fieldMarked .dominant
        = ({ s with notices := [] } : State).holdBegun.holdMarkCheck r := by
      rw [State.fieldMarked_begins (s := { s with notices := [] }) ⟨hin.record, hin.pos, hin.view⟩ rfl, State.enterField_hold,
        (State.holdMark_of_kind hans).1 hkind]
    obtain ⟨hagreed, hdiffers⟩ := ({ s with notices := [] } : State).holdMarkCheck_raises r
    generalize hu : ({ s with notices := [] } : State).holdBegun.holdMarkCheck r = u at hmarked hagreed hdiffers
    have hexec : exec (.fieldMark .dominant) s = .next u.settle := by
      show execFieldMark .dominant s = _
      rw [execFieldMark, event_next, hmarked]
    have hbegun : u.line.view = .round ∧ u.line.pos = .inField .hold 0 ∧ u.line.holdTimer = some (s.now + 200)
        ∧ u.line.stuckTimer = none ∧ u.nv = s.nv ∧ u.cred = s.cred := by
      rw [← hu]
      simp [State.holdBegun, hin.view]
    obtain ⟨hview, hpos, hhold, hstuck, hnv, hcred⟩ := hbegun
    have hline := State.settle_line_of_round hview
    refine ⟨_, hexec, by rw [hline, hpos], by rw [hline, hhold], by rw [hline, hstuck], by simpa using hnv,
      by simp [hcred], fun h => ?_, fun h => ?_⟩
    · obtain ⟨htally, hstore, hdrive⟩ := hagreed h
      rw [hline]
      exact ⟨by simpa using htally, by simpa using hstore, hdrive⟩
    · obtain ⟨htal, hdrive⟩ := hdiffers h
      rw [hline]
      exact ⟨by simp [htal], by simp [htal], hdrive⟩
  case wipe =>
    have hmark : s.holdBegun.holdMark r = s.holdBegun.holdMarkWipe r := (State.holdMark_of_kind hans).2.2.2.1 hkind
    by_cases hfree : s.wipe.journal.phase = .none ∧ s.wipe.orderPending = none
    · refine exec_fieldMark_hold hs hin ?_ hs.notices
      rw [hmark, State.holdMarkWipe_orders (s := s.holdBegun) r hfree.1 hfree.2 hstrap hbusy]
      simp [State.holdBegun, hfree, hagain]
    · refine exec_fieldMark_hold hs hin ?_ hs.notices
      rw [hmark, State.holdMarkWipe_ordered (s := s.holdBegun) r hfree]
      by_cases hphase : s.wipe.journal.phase = .none
      · have hpending : s.wipe.orderPending ≠ none := fun h => hfree ⟨hphase, h⟩
        simp [State.holdBegun, hphase, hpending]
      · simp [State.holdBegun, hphase, State.mapRound, hin.record]

end Sys2Proof.Machine

end


section
/-! PROOF. The hold field's mark of SETCODE (R30, R79, R81, R92, R97; log 42). -/

namespace Sys2Proof.Machine

/-! ## Who may stage -/

/-- The guard state allows the change: in OPEN, in ADMIN, and in BLANK the first setup (R91). -/
theorem guardAllows_iff (s : State) (c : RoundChange) :
    guardAllows s c = true ↔ s.grd.state = .opened ∨ s.grd.state = .admin
      ∨ (s.grd.state = .blank ∧ c.target = 0 ∧ c.role = .admin ∧ c.stamp = 1 ∧ s.cred.liveStamp = 0) := by
  simp [guardAllows, isFirstSetup, and_assoc, or_assoc]

/-- A guard state that allows a change lets stores begin (R2). -/
theorem State.mayStore_of_allows {s : State} {c : RoundChange} (h : guardAllows s c = true) : s.mayStore = true := by
  rcases (guardAllows_iff s c).1 h with h | h | ⟨h, -⟩ <;> simp [State.mayStore, h]

/-- The key that a change's new contents take: none for a slot emptied or under duress (R92). -/
def stagingKey (c : RoundChange) (key : BankKey) : BankKey :=
  match c.role with
  | .empty | .duress => 0
  | _ => key

theorem stagedContents_of_key (c : RoundChange) (key : BankKey) :
    stagedContents c (some key) = some (newContents c (stagingKey c key)) := by
  unfold stagedContents stagingKey
  cases c.role <;> rfl

/-- Without a bank key no ADMIN or USER slot is built (log 42). -/
theorem stagedContents_keyless {c : RoundChange} (h : c.role = .admin ∨ c.role = .user) : stagedContents c none = none := by
  unfold stagedContents
  rcases h with h | h <;> rw [h]

/-- A slot's contents by its role: the code's length and verifier, and a wrap for ADMIN and USER (R79, R81, R92). -/
theorem newContents_by_role (c : RoundChange) (key : BankKey) (code : CodeMark)
    (hcode : code = ⟨c.code.length, Config.verifierOf c.code⟩) :
    newContents c key = (match c.role with
      | .empty => .empty
      | .admin => .admin code ⟨key, code⟩
      | .user => .user code ⟨key, code⟩ c.mustChange
      | .duress => .duress code) := by
  subst hcode
  unfold newContents markOf
  cases c.role <;> rfl

/-! ## The staging -/

/-- The pending slot that a change stages. -/
def stagedSlot (c : RoundChange) (key : BankKey) : PendingChange :=
  ⟨c.target, newContents c (stagingKey c key), c.stamp, false⟩

/-- The fresh bank key that a station in BLANK draws first (R92). -/
def State.drawsKey (s : State) : State :=
  if s.grd.state == .blank then
    { s with draws := s.draws + 1, cred := { s.cred with genKey := some (Config.freeBankKey s.draws) } }
  else s

theorem State.holdMarkSetcode_of_allowed {s : State} {r : RoundRec} {c : RoundChange} (hchange : s.cred.roundChange = some c)
    (hmay : (r.agreed && r.droveIn s.sup .agree && guardAllows s c && s.wipe.journal.phase == .none) = true) :
    s.holdMarkSetcode r
      = match stagedContents c (if s.grd.state == .blank then s.drawsKey.cred.genKey else s.drawsKey.cred.plainKey) with
        | none => s.drawsKey
        | some contents =>
          (({ s.drawsKey with cred := { s.drawsKey.cred with stagingDropped := false } } : State).askCred
            (.stage ⟨c.target, contents, c.stamp, false⟩)).holds.mapRound fun r => { r with staged := true } := by
  unfold State.holdMarkSetcode
  rw [hchange]
  dsimp only
  rw [if_pos hmay]
  rfl

theorem State.askCred_begins {s : State} (hmay : s.mayStore = true) (hbusy : s.cred.busy = none) (c : RoundChange)
    (key : BankKey) : s.askCred (.stage (stagedSlot c key)) = { s with
      cred := { s.cred with busy := some (.stage (stagedSlot c key)), pendingSlot := some (stagedSlot c key) }
      nv := { s.nv with pendingSlot := some (stagedSlot c key) } } := by
  unfold State.askCred
  rw [if_neg (by simp [hmay]), hbusy]
  rfl

/-- What a station that may stage does at the mark (R92, R97). -/
theorem State.holdMarkSetcode_stages {s : State} {r : RoundRec} {c : RoundChange} {key : BankKey}
    (hround : s.eng.round = some r) (hchange : s.cred.roundChange = some c) (hbusy : s.cred.busy = none)
    (hallows : guardAllows s c = true)
    (hmay : (r.agreed && r.droveIn s.sup .agree && guardAllows s c && s.wipe.journal.phase == .none) = true)
    (hkey : s.grd.state = .blank ∧ key = Config.freeBankKey s.draws ∨ s.grd.state ≠ .blank ∧ s.cred.plainKey = some key) :
    s.holdMarkSetcode r = { s with
      draws := if s.grd.state = .blank then s.draws + 1 else s.draws
      line := { s.line with ownDrive := true }
      eng := { s.eng with round := some { r with staged := true } }
      cred := { s.cred with
        genKey := if s.grd.state = .blank then some key else s.cred.genKey
        stagingDropped := false
        busy := some (.stage (stagedSlot c key))
        pendingSlot := some (stagedSlot c key) }
      nv := { s.nv with pendingSlot := some (stagedSlot c key) } } := by
  have hstore := State.mayStore_of_allows hallows
  rw [State.holdMarkSetcode_of_allowed hchange hmay]
  rcases hkey with ⟨hblank, rfl⟩ | ⟨hblank, hplain⟩
  · have hdraws : s.drawsKey = { s with
        draws := s.draws + 1
        cred := { s.cred with genKey := some (Config.freeBankKey s.draws) } } := if_pos (beq_iff_eq.2 hblank)
    rw [if_pos (beq_iff_eq.2 hblank), hdraws, stagedContents_of_key]
    dsimp only
    rw [← stagedSlot, State.askCred_begins (by exact hstore) (by exact hbusy)]
    simp [State.holds, State.mapRound, hround, hblank]
  · have hdraws : s.drawsKey = s := if_neg (by simpa using hblank)
    rw [if_neg (by simpa using hblank), hdraws, hplain, stagedContents_of_key]
    dsimp only
    rw [← stagedSlot, State.askCred_begins (by exact hstore) (by exact hbusy)]
    simp [State.holds, State.mapRound, hround, hblank]

/-- A station that fails one of the conditions stages nothing (R30, R92, R97). -/
theorem State.holdMarkSetcode_stages_nothing {s : State} {r : RoundRec}
    (h : r.agreed = false ∨ r.droveIn s.sup .agree = false ∨ s.wipe.journal.phase ≠ .none
      ∨ ∀ c, s.cred.roundChange = some c → guardAllows s c = false
        ∨ ((c.role = .admin ∨ c.role = .user) ∧ s.grd.state ≠ .blank ∧ s.cred.plainKey = none)) :
    s.holdMarkSetcode r = s := by
  cases hchange : s.cred.roundChange with
  | none => simp [State.holdMarkSetcode, hchange]
  | some c =>
    by_cases hmay : (r.agreed && r.droveIn s.sup .agree && guardAllows s c && s.wipe.journal.phase == .none) = true
    · have hkeyless : (c.role = .admin ∨ c.role = .user) ∧ s.grd.state ≠ .blank ∧ s.cred.plainKey = none := by
        simp only [Bool.and_eq_true, beq_iff_eq] at hmay
        obtain ⟨⟨⟨hagreed, hdrove⟩, hallows⟩, hphase⟩ := hmay
        rcases h with h | h | h | h
        · simp [hagreed] at h
        · simp [hdrove] at h
        · exact absurd hphase h
        · exact (h c hchange).resolve_left (by simp [hallows])
      obtain ⟨hrole, hblank, hplain⟩ := hkeyless
      have hdraws : s.drawsKey = s := if_neg (by simpa using hblank)
      rw [State.holdMarkSetcode_of_allowed hchange hmay, if_neg (by simpa using hblank), hdraws, hplain,
        stagedContents_keyless hrole]
    · unfold State.holdMarkSetcode
      rw [hchange]
      exact if_neg hmay

/-- Settles O37: a station that meets the conditions stages, and one that fails any of them leaves all as it is. -/
theorem theSetcodeHoldMarkStages : Obligations.TheSetcodeHoldMarkStages := by
  unfold Obligations.TheSetcodeHoldMarkStages
  refine ⟨fun s r c hs hin hkind hans hchange hbusy hagreed hdrove hphase hallows key hkey => ?stages,
    fun c key code hcode => newContents_by_role c key code hcode, fun s r hs hin hkind hfails => ?nothing⟩
  case stages =>
    replace hallows := (guardAllows_iff s c).2 hallows
    have hmay : (r.agreed && r.droveIn s.sup .agree && guardAllows s c && s.wipe.journal.phase == .none) = true := by
      simp [hagreed, hdrove, hallows, hphase]
    have hmark := State.holdMarkSetcode_stages (s := s.holdBegun) hin.record hchange hbusy hallows hmay hkey
    have hnotices : (s.holdBegun.holdMark r).notices = [] := by
      rw [(State.holdMark_of_kind hans).2.1 hkind, State.holdMarkSetcode_frame _ _ |>.2.2.1]
      exact hs.notices
    refine ⟨_, exec_fieldMark_hold hs hin rfl hnotices, ?_⟩
    rw [(State.holdMark_of_kind hans).2.1 hkind, hmark]
    exact ⟨rfl, rfl, rfl, rfl, rfl, rfl⟩
  case nothing =>
    refine exec_fieldMark_hold hs hin ?_ hs.notices
    rcases hfails with hans | hfails
    · exact State.holdMark_unanswered hans
    · by_cases hans : r.answered = true
      · rw [(State.holdMark_of_kind hans).2.1 hkind]
        refine State.holdMarkSetcode_stages_nothing (s := s.holdBegun) ?_
        refine hfails.imp_right (.imp_right (.imp_right fun h c hc => (h c hc).imp_left fun hnot => ?_))
        exact Bool.eq_false_iff.2 (mt (guardAllows_iff s c).1 hnot)
      · exact State.holdMark_unanswered (Bool.eq_false_iff.2 hans)

end Sys2Proof.Machine

end


section
/-! PROOF. The hold field's marks of SETMARK and FIT, and the two layouts (R139, R173, R175). -/

namespace Sys2Proof.Machine

/-! ## SETMARK -/

/-- What SETMARK's hold field begins, by the change its ARG reads as (R139). -/
structure MarkStaged (s : State) (r : RoundRec) (u : State) : Prop where
  session : ∀ e m, markChangeOf r.arg = some (.session e m) →
    u = if s.grd.state = .opened ∨ s.grd.state = .admin then
        ({ s with gate := { s.gate with staging := some ⟨e, m, r.arg⟩ } } : State).mapRound
          fun r => { r with staged := true, made := true }
      else s
  fixed : ∀ e m, markChangeOf r.arg = some (.fixed e m) → s.gate.pmBusy = none →
    u = if s.grd.state = .admin ∧ s.gate.markLockOpen = true ∧ s.wipe.journal.phase = .none then
        ({ s with
          line := { s.line with ownDrive := true }
          gate := { s.gate with
            pmBusy := some (.stage ⟨e, m, r.arg, false⟩ false)
            pendingMark := some ⟨e, m, r.arg, false⟩ }
          nv := { s.nv with pendingMark := some ⟨e, m, r.arg, false⟩ } } : State).mapRound fun r => { r with staged := true }
      else s
  none : markChangeOf r.arg = none → u = s

theorem State.askPm_begins {s : State} (hstrap : s.grd.state ≠ .strapFault) (hbusy : s.gate.pmBusy = none) (p : PendingMark)
    (hp : p.stored = false) (dropped : Bool) : s.askPm (.stage p dropped) = { s with
      gate := { s.gate with pmBusy := some (.stage p dropped), pendingMark := some p }
      nv := { s.nv with pendingMark := some p } } := by
  unfold State.askPm
  rw [if_neg (by simp [State.mayStore, hstrap]), hbusy]
  obtain ⟨e, m, a, stored⟩ := p
  cases hp
  rfl

theorem State.holdMarkSetmark_stages (s : State) (r : RoundRec) : MarkStaged s r (s.holdMarkSetmark r) := by
  unfold State.holdMarkSetmark
  refine ⟨fun e m h => by rw [h], fun e m h hbusy => ?_, fun h => by rw [h]⟩
  rw [h]
  dsimp only
  by_cases hmay : s.grd.state = .admin ∧ s.gate.markLockOpen = true ∧ s.wipe.journal.phase = .none
  · rw [if_pos hmay, if_pos hmay, State.askPm_begins (by simp [hmay.1]) hbusy ⟨e, m, r.arg, false⟩ rfl]
    rfl
  · rw [if_neg hmay, if_neg hmay]

/-- SETMARK's hold field at a station that answered: what it begins, and the marks it leaves (R139). -/
theorem exec_fieldMark_setmark {s : State} {r : RoundRec} (hs : Settled s) (hin : InRound s r (.atMark .hold))
    (hkind : r.kind = some .setmark) (hans : r.answered = true) :
    ∃ t, exec (.fieldMark .dominant) s = .next t ∧ t.line.pos = .inField .hold 0 ∧ t.gate.session = s.gate.session
      ∧ t.gate.fixedMarks = s.gate.fixedMarks ∧ MarkStaged s.holdBegun r t := by
  have hmark : s.holdBegun.holdMark r = s.holdBegun.holdMarkSetmark r := (State.holdMark_of_kind hans).2.2.1 hkind
  have hnotices : (s.holdBegun.holdMarkSetmark r).notices = [] := by simpa [State.holdBegun] using hs.notices
  refine ⟨_, exec_fieldMark_hold hs hin hmark hnotices, ?_, ?_, ?_, s.holdBegun.holdMarkSetmark_stages r⟩
  · simp [State.holdBegun]
  · simp [State.holdBegun]
  · simp [State.holdBegun]

/-! ## FIT -/

theorem exec_fieldMark_fit {s : State} {r : RoundRec} (hs : Settled s) (hin : InRound s r (.atMark .hold))
    (hkind : r.kind = some .fit) (hans : r.answered = true) :
    exec (.fieldMark .dominant) s = .next
      (if s.grd.state = .blank ∧ s.pol.table.frozen = false ∧ (fitItemOf r.arg (BitVec.ofNat 32 (r.numberOf .item))).isSome then
        { s.holdBegun with
          stat := { s.stat with fit := some (r.arg, BitVec.ofNat 32 (r.numberOf .item)) }
          eng := { s.eng with round := some { r with staged := true, made := true } } }
      else s.holdBegun) := by
  have hnotices : (s.holdBegun.holdMark r).notices = [] := by
    rw [(State.holdMark_of_kind hans).2.2.2.2 hkind]
    simpa [State.holdBegun] using hs.notices
  rw [exec_fieldMark_hold hs hin rfl hnotices, (State.holdMark_of_kind hans).2.2.2.2 hkind]
  unfold State.holdMarkFit
  dsimp only
  by_cases hmay : s.grd.state = .blank ∧ s.pol.table.frozen = false
      ∧ (fitItemOf r.arg (BitVec.ofNat 32 (r.numberOf .item))).isSome
  · rw [if_pos hmay, if_pos (by exact hmay)]
    simp [State.mapRound, State.holdBegun, hin.record]
  · rw [if_neg hmay, if_neg (by exact hmay)]

/-! ## The layout of a SETMARK ARG -/

/-- The parts of a SETMARK ARG (R175). -/
theorem setmark_parts (scope zero : BitVec 1) (zeros : BitVec 5) (value : BitVec 2) (extent : BitVec 7) :
    let a : Arg := scope ++ zeros ++ value ++ zero ++ extent
    a.extractLsb' 0 7 = extent ∧ a.getLsbD 7 = zero.getLsbD 0 ∧ a.extractLsb' 8 2 = value ∧ a.extractLsb' 10 5 = zeros
      ∧ a.getLsbD 15 = scope.getLsbD 0 := by
  dsimp only
  refine ⟨BitVec.extractLsb'_append_eq_right, ?_, ?_, ?_, ?_⟩
  · simp only [BitVec.getLsbD_append]
    rfl
  · rw [BitVec.extractLsb'_append_eq_of_le (by decide), BitVec.extractLsb'_append_eq_of_le (by decide)]
    exact BitVec.extractLsb'_append_eq_right
  · rw [BitVec.extractLsb'_append_eq_of_le (by decide), BitVec.extractLsb'_append_eq_of_le (by decide),
      BitVec.extractLsb'_append_eq_of_le (by decide)]
    exact BitVec.extractLsb'_append_eq_right
  · simp only [BitVec.getLsbD_append]
    rfl

/-- A SETMARK ARG read by its parts (R139, R175). -/
theorem markChangeOf_parts (scope zero : BitVec 1) (zeros : BitVec 5) (value : BitVec 2) (extent : BitVec 7) :
    markChangeOf (scope ++ zeros ++ value ++ zero ++ extent)
      = if ¬(zeros = 0 ∧ zero = 0) then none
        else if scope = 1 then
          if h : extent.toNat < 64 then (fixedOfCode value.toNat).map (.fixed ⟨extent.toNat, h⟩) else none
        else if h : extent.toNat < 64 then (sessionOfCode value.toNat).map (.session (some ⟨extent.toNat, h⟩))
        else if extent.toNat = 127 then (sessionOfCode value.toNat).map (.session none) else none := by
  obtain ⟨hextent, hzero, hvalue, hzeros, hscope⟩ := setmark_parts scope zero zeros value extent
  have hone : ∀ b : BitVec 1, b.getLsbD 0 = false ↔ b = 0 := by decide
  unfold markChangeOf
  simp only [hextent, hzero, hvalue, hzeros, hscope]
  by_cases hwell : zeros = 0 ∧ zero = 0
  · rw [if_neg (by simp [hwell]), if_neg (not_not.2 hwell)]
    rcases BitVec.eq_zero_or_eq_one scope with rfl | rfl <;> simp
  · rw [if_pos hwell, if_pos]
    have hbits : zeros ≠ 0 ∨ zero.getLsbD 0 = true := by
      by_cases hz : zeros = 0
      · exact .inr (Bool.not_eq_false _ ▸ mt (hone zero).1 fun h => hwell ⟨hz, h⟩)
      · exact .inl hz
    simpa using hbits

/-- The values that name a session mark (R175). -/
theorem sessionOfCode_iff (value : BitVec 2) (m : SessionMark) :
    sessionOfCode value.toNat = some m ↔ value = (match m with | .writable => 0 | .readOnly => 1) := by
  revert value
  cases m <;> decide

/-- The values that name a fixed mark (R175). -/
theorem fixedOfCode_iff (value : BitVec 2) (m : FixedMark) :
    fixedOfCode value.toNat = some m ↔ value = (match m with | .normal => 0 | .pub => 1 | .frozen => 2) := by
  revert value
  cases m <;> decide

theorem markChangeOf_session_iff (scope zero : BitVec 1) (zeros : BitVec 5) (value : BitVec 2) (extent : BitVec 7)
    (e : Extent) (m : SessionMark) :
    markChangeOf (scope ++ zeros ++ value ++ zero ++ extent) = some (.session (some e) m)
      ↔ scope = 0 ∧ zeros = 0 ∧ zero = 0 ∧ extent.toNat = e.val
        ∧ value = (match m with | .writable => 0 | .readOnly => 1) := by
  rw [markChangeOf_parts, ← sessionOfCode_iff]
  by_cases hwell : zeros = 0 ∧ zero = 0
  · rw [if_neg (not_not.2 hwell)]
    rcases BitVec.eq_zero_or_eq_one scope with rfl | rfl
    · by_cases hlt : extent.toNat < 64
      · simp [hwell, hlt, Fin.ext_iff, and_comm]
      · have hne : extent.toNat ≠ e.val := by omega
        by_cases hall : extent.toNat = 127 <;> simp [hall, hlt, hne]
        omega
    · by_cases hlt : extent.toNat < 64 <;> simp [hlt]
  · rw [if_pos hwell]
    simp only [reduceCtorEq, false_iff]
    exact fun h => hwell ⟨h.2.1, h.2.2.1⟩

theorem markChangeOf_all_iff (scope zero : BitVec 1) (zeros : BitVec 5) (value : BitVec 2) (extent : BitVec 7)
    (m : SessionMark) :
    markChangeOf (scope ++ zeros ++ value ++ zero ++ extent) = some (.session none m)
      ↔ scope = 0 ∧ zeros = 0 ∧ zero = 0 ∧ extent = 127
        ∧ value = (match m with | .writable => 0 | .readOnly => 1) := by
  have hextent : extent = 127 ↔ extent.toNat = 127 := by
    rw [← BitVec.toNat_inj]
    rfl
  rw [markChangeOf_parts, ← sessionOfCode_iff, hextent]
  by_cases hwell : zeros = 0 ∧ zero = 0
  · rw [if_neg (not_not.2 hwell)]
    rcases BitVec.eq_zero_or_eq_one scope with rfl | rfl
    · by_cases hlt : extent.toNat < 64
      · have hne : extent.toNat ≠ 127 := by omega
        simp [hlt, hne]
      · by_cases hall : extent.toNat = 127 <;> simp [hall, hlt, hwell]
    · by_cases hlt : extent.toNat < 64 <;> simp [hlt]
  · rw [if_pos hwell]
    simp only [reduceCtorEq, false_iff]
    exact fun h => hwell ⟨h.2.1, h.2.2.1⟩

theorem markChangeOf_fixed_iff (scope zero : BitVec 1) (zeros : BitVec 5) (value : BitVec 2) (extent : BitVec 7)
    (e : Extent) (m : FixedMark) :
    markChangeOf (scope ++ zeros ++ value ++ zero ++ extent) = some (.fixed e m)
      ↔ scope = 1 ∧ zeros = 0 ∧ zero = 0 ∧ extent.toNat = e.val
        ∧ value = (match m with | .normal => 0 | .pub => 1 | .frozen => 2) := by
  rw [markChangeOf_parts, ← fixedOfCode_iff]
  by_cases hwell : zeros = 0 ∧ zero = 0
  · rw [if_neg (not_not.2 hwell)]
    rcases BitVec.eq_zero_or_eq_one scope with rfl | rfl
    · by_cases hlt : extent.toNat < 64
      · simp [hlt]
      · by_cases hall : extent.toNat = 127 <;> simp [hall, hlt]
    · by_cases hlt : extent.toNat < 64
      · simp [hwell, hlt, Fin.ext_iff, and_comm]
      · have hne : extent.toNat ≠ e.val := by omega
        simp [hlt, hne]
  · rw [if_pos hwell]
    simp only [reduceCtorEq, false_iff]
    exact fun h => hwell ⟨h.2.1, h.2.2.1⟩

/-! ## The layout of a FIT item -/

theorem fitItemOf_header (zeros : BitVec 30) (faultDisarm frozen : Bool) :
    fitItemOf 0 (zeros ++ BitVec.ofBool faultDisarm ++ BitVec.ofBool frozen)
      = if zeros = 0 then some (.header faultDisarm frozen) else none := by
  have hzeros : (zeros ++ BitVec.ofBool faultDisarm ++ BitVec.ofBool frozen).extractLsb' 2 30 = zeros := by
    rw [BitVec.extractLsb'_append_eq_of_le (by decide)]
    exact BitVec.extractLsb'_append_eq_left
  unfold fitItemOf
  rw [hzeros]
  simp only [BitVec.getLsbD_append]
  simp

/-- The parts of an entry's part A (R173, R175). -/
theorem partA_parts (cause : BitVec 3) (causeArg : BitVec 7) (action : BitVec 3) (links : BitVec 8)
    (repeats armAtStart : Bool) (zeros : BitVec 9) :
    let w : BitVec 32 :=
      cause ++ causeArg ++ action ++ links ++ BitVec.ofBool repeats ++ BitVec.ofBool armAtStart ++ zeros
    w.extractLsb' 0 9 = zeros ∧ w.extractLsb' 29 3 = cause ∧ w.extractLsb' 22 7 = causeArg ∧ w.extractLsb' 19 3 = action
      ∧ w.extractLsb' 11 8 = links ∧ w.getLsbD 10 = repeats ∧ w.getLsbD 9 = armAtStart := by
  dsimp only
  refine ⟨BitVec.extractLsb'_append_eq_right, ?_, ?_, ?_, ?_, ?_, ?_⟩
  · rw [BitVec.extractLsb'_append_eq_of_le (by decide), BitVec.extractLsb'_append_eq_of_le (by decide),
      BitVec.extractLsb'_append_eq_of_le (by decide), BitVec.extractLsb'_append_eq_of_le (by decide),
      BitVec.extractLsb'_append_eq_of_le (by decide)]
    exact BitVec.extractLsb'_append_eq_left
  · rw [BitVec.extractLsb'_append_eq_of_le (by decide), BitVec.extractLsb'_append_eq_of_le (by decide),
      BitVec.extractLsb'_append_eq_of_le (by decide), BitVec.extractLsb'_append_eq_of_le (by decide),
      BitVec.extractLsb'_append_eq_of_le (by decide)]
    exact BitVec.extractLsb'_append_eq_right
  · rw [BitVec.extractLsb'_append_eq_of_le (by decide), BitVec.extractLsb'_append_eq_of_le (by decide),
      BitVec.extractLsb'_append_eq_of_le (by decide), BitVec.extractLsb'_append_eq_of_le (by decide)]
    exact BitVec.extractLsb'_append_eq_right
  · rw [BitVec.extractLsb'_append_eq_of_le (by decide), BitVec.extractLsb'_append_eq_of_le (by decide),
      BitVec.extractLsb'_append_eq_of_le (by decide)]
    exact BitVec.extractLsb'_append_eq_right
  · simp only [BitVec.getLsbD_append]
    simp
  · simp only [BitVec.getLsbD_append]
    simp

theorem fitItemOf_partA (e : EntryNo) (cause : BitVec 3) (causeArg : BitVec 7) (action : BitVec 3) (links : BitVec 8)
    (repeats armAtStart : Bool) (zeros : BitVec 9) :
    fitItemOf (BitVec.ofNat 16 (e.val + 1))
        (cause ++ causeArg ++ action ++ links ++ BitVec.ofBool repeats ++ BitVec.ofBool armAtStart ++ zeros)
      = if zeros = 0 then some (.partA e cause causeArg action links repeats armAtStart) else none := by
  have hindex : (BitVec.ofNat 16 (e.val + 1)).toNat = e.val + 1 := Nat.mod_eq_of_lt (by omega)
  obtain ⟨hzeros, hcause, harg, haction, hlinks, hrepeats, harm⟩ :=
    partA_parts cause causeArg action links repeats armAtStart zeros
  unfold fitItemOf
  simp only [hindex, hzeros, hcause, harg, haction, hlinks, hrepeats, harm]
  rw [if_neg (by omega), dif_pos (by omega)]
  rfl

/-- The parts of an entry's part B (R173, R175). -/
theorem partB_parts (zeros : BitVec 14) (timer : BitVec 2) (seconds : BitVec 16) :
    let w : BitVec 32 := zeros ++ timer ++ seconds
    w.extractLsb' 18 14 = zeros ∧ w.extractLsb' 16 2 = timer ∧ w.extractLsb' 0 16 = seconds := by
  dsimp only
  refine ⟨?_, ?_, BitVec.extractLsb'_append_eq_right⟩
  · rw [BitVec.extractLsb'_append_eq_of_le (by decide)]
    exact BitVec.extractLsb'_append_eq_left
  · rw [BitVec.extractLsb'_append_eq_of_le (by decide)]
    exact BitVec.extractLsb'_append_eq_right

theorem fitItemOf_partB (e : EntryNo) (zeros : BitVec 14) (timer : BitVec 2) (seconds : BitVec 16) :
    fitItemOf (BitVec.ofNat 16 (e.val + 9)) (zeros ++ timer ++ seconds)
      = if zeros = 0 then some (.partB e timer seconds) else none := by
  have hindex : (BitVec.ofNat 16 (e.val + 9)).toNat = e.val + 9 := Nat.mod_eq_of_lt (by omega)
  obtain ⟨hzeros, htimer, hseconds⟩ := partB_parts zeros timer seconds
  unfold fitItemOf
  simp only [hindex, hzeros, htimer, hseconds]
  rw [if_neg (by omega), dif_neg (by omega), dif_pos (by omega)]
  rfl

/-- No code of a fixed-mark item is 3 (R173). -/
theorem markCodes_iff (w : BitVec 32) :
    (List.range 16).all (fun j => markCodeAt w j != 3) = true
      ↔ ∀ j : Fin 16, ¬(w.getLsbD (31 - 2 * j.val) = true ∧ w.getLsbD (30 - 2 * j.val) = true) := by
  have hcode : ∀ j < 16, (markCodeAt w j != 3) = true
      ↔ ¬(w.getLsbD (31 - 2 * j) = true ∧ w.getLsbD (30 - 2 * j) = true) := by
    intro j hj
    rw [markCodeAt_bits w hj]
    cases w.getLsbD (31 - 2 * j) <;> cases w.getLsbD (30 - 2 * j) <;> simp
  rw [List.all_eq_true]
  exact ⟨fun h j => (hcode j.val j.isLt).1 (h j.val (List.mem_range.2 j.isLt)),
    fun h j hj => (hcode j (List.mem_range.1 hj)).2 (h ⟨j, List.mem_range.1 hj⟩)⟩

theorem fitItemOf_marks (k : Fin 4) (w : BitVec 32) :
    fitItemOf (BitVec.ofNat 16 (k.val + 32)) w
      = if ∀ j : Fin 16, ¬(w.getLsbD (31 - 2 * j.val) = true ∧ w.getLsbD (30 - 2 * j.val) = true) then
          some (.marks k.val w) else none := by
  have hindex : (BitVec.ofNat 16 (k.val + 32)).toNat = k.val + 32 := Nat.mod_eq_of_lt (by omega)
  unfold fitItemOf
  simp only [hindex]
  rw [if_neg (by omega), dif_neg (by omega), dif_neg (by omega), if_pos (by omega), Nat.add_sub_cancel]
  simp only [markCodes_iff]

/-- No other index is defined (R173). -/
theorem fitItemOf_undefined {index : Arg} (h : 17 ≤ index.toNat ∧ index.toNat ≤ 31 ∨ 36 ≤ index.toNat) (w : BitVec 32) :
    fitItemOf index w = none := by
  unfold fitItemOf
  dsimp only
  rw [if_neg (by omega), dif_neg (by omega), dif_neg (by omega), if_neg (by omega)]

/-- Settles O38: what the two hold marks stage, and the two layouts read part by part. -/
theorem setmarkAndFitHoldMarks : Obligations.SetmarkAndFitHoldMarks := by
  unfold Obligations.SetmarkAndFitHoldMarks
  refine ⟨fun s r hs hin hkind hans => ?setmark, fun s r hs hin hkind hans => ?fit,
    fun scope zero zeros value extent a ha => ?layout, fitItemOf_header, fitItemOf_partA, fitItemOf_partB, fitItemOf_marks,
    fun index w h => fitItemOf_undefined h w⟩
  case setmark =>
    obtain ⟨t, hexec, hpos, hsession, hmarks, hstaged⟩ := exec_fieldMark_setmark hs hin hkind hans
    refine ⟨t, hexec, hpos, hsession, hmarks, fun e m hread => ?_, fun e m hread hbusy => ?_, fun hread => ?_⟩
    · have ht := hstaged.session e m hread
      split
      · next hopen =>
        rw [if_pos (by exact hopen)] at ht
        rw [ht, State.mapRound_eq (by exact hin.record)]
        exact ⟨rfl, rfl, rfl⟩
      · next hclosed =>
        rw [if_neg (by exact hclosed)] at ht
        rw [ht]
        exact ⟨rfl, hin.record, rfl⟩
    · have ht := hstaged.fixed e m hread hbusy
      split
      · next hmay =>
        rw [if_pos (by exact hmay)] at ht
        rw [ht, State.mapRound_eq (by exact hin.record)]
        exact ⟨rfl, rfl, rfl, rfl, rfl⟩
      · next hmay =>
        rw [if_neg (by exact hmay)] at ht
        rw [ht]
        exact ⟨rfl, rfl, hin.record, rfl⟩
    · rw [hstaged.none hread]
      exact ⟨rfl, rfl, hin.record, rfl⟩
  case fit =>
    refine ⟨_, exec_fieldMark_fit hs hin hkind hans, ?_⟩
    simp only [Option.isSome_iff_ne_none]
    split
    · exact ⟨rfl, rfl, rfl, rfl, rfl, rfl, rfl, rfl⟩
    · exact ⟨rfl, rfl, rfl, rfl, rfl, rfl, rfl, hin.record⟩
  case layout =>
    subst ha
    exact ⟨markChangeOf_session_iff scope zero zeros value extent, markChangeOf_all_iff scope zero zeros value extent,
      markChangeOf_fixed_iff scope zero zeros value extent⟩

end Sys2Proof.Machine

end


section
/-! PROOF. What every rejection of a round leaves: the flags set at it, the tally, a station that is closed with its LOCK request,
and the line it was rejected into (R13, R14, R34, R36, R66). -/

namespace Sys2Proof.Machine

/-! ## Presses at a closed station -/

theorem State.post_queueFind_ne {k x : RoundKind} (h : x ≠ k) (s : State) (a : Arg) :
    queueFind x (s.post k a).eng.queue = queueFind x s.eng.queue := by
  unfold State.post
  split
  · rfl
  · exact queueFind_queuePost_ne h a _

theorem State.holdChange_lock (s : State) (target : CodeSlotNo) (role : Role) (code : List Digit) :
    queueFind .lock (s.holdChange target role code).eng.queue = queueFind .lock s.eng.queue :=
  State.post_queueFind_ne (by decide) _ _

theorem State.submit_lock (s : State) : queueFind .lock s.submit.eng.queue = queueFind .lock s.eng.queue := by
  unfold State.submit
  dsimp only
  split
  · exact (State.post_queueFind_ne (by decide) _ _).trans (by simp)
  · simp

theorem State.secondCodeEntered_lock (s : State) :
    queueFind .lock s.secondCodeEntered.eng.queue = queueFind .lock s.eng.queue := by
  unfold State.secondCodeEntered
  dsimp only
  split
  · split
    · simp
    · simp only [apply_ite State.eng, apply_ite Engine.queue, apply_ite (queueFind RoundKind.lock), State.holdChange_lock]
      simp
  · simp

theorem State.markEntered_lock (s : State) : queueFind .lock s.markEntered.eng.queue = queueFind .lock s.eng.queue := by
  unfold State.markEntered
  repeat' split
  all_goals simp [State.post_queueFind_ne]

theorem State.commandDigit_lock (s : State) (d : Digit) :
    queueFind .lock (s.commandDigit d).eng.queue = queueFind .lock s.eng.queue := by
  unfold State.commandDigit
  dsimp only
  repeat' split
  all_goals simp [State.holdChange_lock, State.newCode]

theorem State.takeDigit_lock (s : State) (d : Digit) :
    queueFind .lock (s.takeDigit d).eng.queue = queueFind .lock s.eng.queue := by
  unfold State.takeDigit
  repeat' split
  all_goals simp [State.commandDigit_lock]

theorem State.takeUnlock_lock (s : State) : queueFind .lock s.takeUnlock.eng.queue = queueFind .lock s.eng.queue := by
  unfold State.takeUnlock
  repeat' split
  all_goals simp [State.submit_lock, State.secondCodeEntered_lock, State.markEntered_lock]

/-- The guard state, the notices, the armed entries and the LOCK request are as before. -/
structure LeavesLock (s u : State) : Prop where
  state : u.grd.state = s.grd.state
  notices : u.notices = s.notices
  armed : u.pol.armed = s.pol.armed
  lock : queueFind .lock u.eng.queue = queueFind .lock s.eng.queue

theorem LeavesLock.refl (s : State) : LeavesLock s s := ⟨rfl, rfl, rfl, rfl⟩

theorem LeavesLock.trans {s u v : State} (h : LeavesLock s u) (g : LeavesLock u v) : LeavesLock s v :=
  ⟨g.state.trans h.state, g.notices.trans h.notices, g.armed.trans h.armed, g.lock.trans h.lock⟩

theorem State.takeDigit_leavesLock (s : State) (d : Digit) : LeavesLock s (s.takeDigit d) :=
  ⟨by simp, by simp, by simp, s.takeDigit_lock d⟩

/-- A press at a closed station locks nothing and posts no LOCK (R71). -/
theorem State.takePress_leavesLock {s : State} (h : ¬(s.grd.state = .opened ∨ s.grd.state = .admin)) (k : Key) :
    LeavesLock s (s.takePress k) := by
  have hchord : ∀ d, s.takeChord d = s := fun d => if_neg h
  unfold State.takePress
  split
  · split
    · exact .refl s
    · exact .refl s
    · exact s.takeDigit_leavesLock _
    · split
      · exact s.takeDigit_leavesLock _
      · rw [hchord]
        exact .refl s
    · exact ⟨by simp, by simp, by simp, by simp⟩
    · exact ⟨by simp, by simp, by simp, s.takeUnlock_lock⟩
  · exact .refl s

theorem State.takeSetAside_leavesLock {s : State} (h : ¬(s.grd.state = .opened ∨ s.grd.state = .admin)) :
    LeavesLock s s.takeSetAside := by
  have hall : ∀ (l : List Key) (u : State), ¬(u.grd.state = .opened ∨ u.grd.state = .admin) →
      LeavesLock u (l.foldl State.takePress u) := by
    intro l
    induction l with
    | nil => exact fun u _ => .refl u
    | cons k l ih =>
      intro u hu
      have hpress := State.takePress_leavesLock hu k
      exact hpress.trans (ih _ (by rwa [hpress.state]))
  have hdrop : LeavesLock s s.dropSetAside := ⟨rfl, rfl, rfl, rfl⟩
  exact hdrop.trans (hall s.key.setAside s.dropSetAside h)

/-! ## A station locks for the line -/

/-- A station that is closed, with the LOCK request that it posted if it was open (R13, R14). -/
structure LineLocked (s u : State) : Prop where
  closed : ¬(u.grd.state = .opened ∨ u.grd.state = .admin)
  lock : s.grd.state = .opened ∨ s.grd.state = .admin → LockPosted u 4
  armed : u.pol.armed = s.pol.armed
  notices : Notice.startingEnded ∉ s.notices → Notice.startingEnded ∉ u.notices

theorem State.lockForLine_locks (s : State) : LineLocked s s.lockForLine := by
  by_cases h : s.grd.state = .opened ∨ s.grd.state = .admin
  · have hlock : s.lockForLine = s.lockLocally.post .lock 4 := if_pos h
    rw [hlock]
    have hqueue : (s.lockLocally.post .lock 4).eng.queue = queuePost .lock 4 s.lockLocally.eng.queue :=
      State.post_queue _ _ _ (s.lockLocally_not_strapFault (by rcases h with h | h <;> simp [h]))
    refine ⟨?_, fun _ => ?_, by simp, fun hn => by simpa using State.lockLocally_no_startingEnded hn⟩
    · have hstate : (s.lockLocally.post .lock 4).grd.state = s.lockLocally.grd.state := by simp
      rw [hstate, s.lockLocally_state]
      repeat' split
      all_goals simp_all
    · obtain ⟨x, hx, hcause⟩ := queueFind_queuePost_arg .lock 4 s.lockLocally.eng.queue
      exact ⟨x, by rw [hqueue, hx], hcause⟩
  · have hsame : s.lockForLine = s := if_neg h
    rw [hsame]
    exact ⟨h, fun ho => absurd ho h, rfl, id⟩

theorem LineLocked.leavesLock {s u v : State} (h : LineLocked s u) (g : LeavesLock u v) : LineLocked s v where
  closed := by
    rw [g.state]
    exact h.closed
  lock ho := by
    obtain ⟨x, hx, hcause⟩ := h.lock ho
    exact ⟨x, g.lock.trans hx, hcause⟩
  armed := g.armed.trans h.armed
  notices hn := by
    rw [g.notices]
    exact h.notices hn

/-- What the lock leaves at the event's end. -/
theorem LineLocked.settle {s u : State} (h : LineLocked s u) (hn : Notice.startingEnded ∉ s.notices) :
    u.settle.grd.state ≠ .opened ∧ u.settle.grd.state ≠ .admin
      ∧ (s.grd.state = .opened ∨ s.grd.state = .admin → s.pol.armed = 0 → LockPosted u.settle 4) := by
  have hclosed := (State.settle_closed h.closed).closed
  refine ⟨fun ho => hclosed (.inl ho), fun ha => hclosed (.inr ha), fun ho harmed => ?_⟩
  obtain ⟨x, hx, hcause⟩ := h.lock ho
  exact ⟨x, by rw [State.settle_queue_unarmed (h.armed.trans harmed) (h.notices hn), hx], hcause⟩

/-! ## The owners' part in a rejection -/

/-- What the owners take from a rejected round neither opens nor shuts the station. -/
structure Voided (s u : State) : Prop where
  opened : u.grd.state = .opened ∨ u.grd.state = .admin ↔ s.grd.state = .opened ∨ s.grd.state = .admin
  notices : Notice.startingEnded ∉ s.notices → Notice.startingEnded ∉ u.notices
  flags : ∀ f, s.stat.flags.has f = true → u.stat.flags.has f = true
  unquiet : s.stat.store.quiet = false → u.stat.store.quiet = false

theorem Voided.of_same {s u : State} (hgrd : u.grd = s.grd) (hnotices : u.notices = s.notices) (hflags : u.stat.flags = s.stat.flags)
    (hstore : u.stat.store = s.stat.store) : Voided s u := by
  refine ⟨by rw [hgrd], fun h => by rwa [hnotices], fun f h => by rwa [hflags], fun h => by rwa [hstore]⟩

theorem Voided.trans {s u v : State} (h : Voided s u) (g : Voided u v) : Voided s v :=
  ⟨g.opened.trans h.opened, fun hn => g.notices (h.notices hn), fun f hf => g.flags f (h.flags f hf),
    fun hq => g.unquiet (h.unquiet hq)⟩

theorem State.setFlag_voided (s : State) (f : Flag) : Voided s (s.setFlag f) where
  opened := by simp
  notices h hc := h (State.setFlag_startingEnded hc)
  flags g hg := State.setFlag_has_of_has hg f
  unquiet h := by
    rw [s.setFlag_stat]
    dsimp only
    split
    · exact Store.put_not_quiet _ _
    · exact h

/-- A step to HELD opens and shuts nothing. -/
theorem opened_iff_of_held {a b : GuardState} (h : b = a ∨ a = .locked ∧ b = .held) :
    b = .opened ∨ b = .admin ↔ a = .opened ∨ a = .admin := by
  rcases h with rfl | ⟨rfl, rfl⟩ <;> simp

theorem State.takeDeadline_opened (s : State) :
    s.takeDeadline.grd.state = .opened ∨ s.takeDeadline.grd.state = .admin ↔ s.grd.state = .opened ∨ s.grd.state = .admin := by
  refine opened_iff_of_held ?_
  rw [s.takeDeadline_grd]
  by_cases h : s.grd.state = .locked <;> simp [h]

theorem State.takeGap_voided (s : State) : Voided s s.takeGap where
  opened := ((s.holdRequest 1).takeDeadline_opened).trans (opened_iff_of_held ((s.holdRequest_state 1).imp_left id))
  notices h := State.takeGap_no_startingEnded h
  flags f h := by simpa [State.takeGap] using h
  unquiet h := by simpa [State.takeGap] using h

theorem State.takeDueDeadline_voided (s : State) : Voided s s.takeDueDeadline where
  opened := by
    rcases s.takeDueDeadline_cases with hd | ⟨hlocked, -, -, hd⟩ <;> rw [hd]
    refine opened_iff_of_held (.inr ⟨hlocked, by simp⟩)
  notices h := State.takeDueDeadline_no_startingEnded h
  flags f h := by simpa using h
  unquiet h := by simpa using h

theorem State.ownersVoid_voided (s : State) (r : RoundRec) : Voided s (s.ownersVoid r) := by
  unfold State.ownersVoid
  split
  · dsimp only
    refine .trans (u := if r.disagreed && r.answered then s.setFlag .splitEntry
      else if r.made && r.holdEnded then s.takeGap else s) ?_ (.of_same rfl rfl rfl rfl)
    split
    · exact s.setFlag_voided _
    · split
      · exact s.takeGap_voided
      · exact .of_same rfl rfl rfl rfl
  · exact .of_same rfl rfl rfl rfl
  · split
    · dsimp only
      split
      · exact .of_same (by simp) (by simp) (by simp) (by simp)
      · exact .of_same rfl rfl rfl rfl
    · exact .of_same rfl rfl rfl rfl
  · exact .of_same rfl rfl rfl rfl
  · exact .of_same rfl rfl rfl rfl

theorem State.ownersReject_voided (s : State) (r : RoundRec) : Voided s (s.ownersReject r) := by
  unfold State.ownersReject
  split
  · exact (s.ownersVoid_voided r).trans (State.takeDueDeadline_voided _)
  · exact s.takeDueDeadline_voided

theorem State.endQueue_voided (s : State) (r : RoundRec) : Voided s (s.endQueue r) := by
  unfold State.endQueue
  dsimp only
  split
  · exact .of_same rfl rfl rfl rfl
  · exact .trans (.of_same (by rfl) (by rfl) (by rfl) (by rfl)) (State.setFlag_voided _ _)

/-! ## The rejection, to the end of the event -/

/-- What stands at the end of an event that rejects a round (R13, R14, R34, R36). -/
structure Rejected (s : State) (line : LineIf) (t : State) : Prop where
  round : t.eng.round = none
  flags : ∀ f, s.stat.flags.has f = true → t.stat.flags.has f = true
  tally : t.tal.tally = s.tal.tally
  now : t.now = s.now
  into : t.line = line ∨ (t.line = {} ∧ t.sup.activity = .dormant)
  awake : s.stat.store.quiet = false → t.line = line
  notOpened : t.grd.state ≠ .opened
  notAdmin : t.grd.state ≠ .admin
  lock : s.grd.state = .opened ∨ s.grd.state = .admin → s.pol.armed = 0 → LockPosted t 4

/-- A store in progress keeps a station from falling DORMANT (R162). -/
theorem State.settle_line_of_store {s : State} (h : s.stat.store.quiet = false) : s.settle.line = s.line := by
  have hdrained : s.drain.regate.grantPort.stat = s.stat := by simp
  unfold State.settle State.dormantIfQuiet
  rw [if_neg fun hc => AwakeForCause.of_flagStore (s := s.drain.regate.grantPort) (by rw [hdrained]; exact h) hc]
  simp

/-- A rejection before the station locks for it: the owners' part and the queue's (R36, R50). -/
def State.rejectedOpen (s : State) (r : RoundRec) (line : LineIf) : State :=
  ((({ s with line := line, eng := { s.eng with round := none } } : State).ownersReject (r.reject s.sup)).endQueue
    (r.reject s.sup)).repeatTallyAndOwed.repeatJournal

theorem State.rejectTo_locks {s : State} {r : RoundRec} (hround : s.eng.round = some r) (line : LineIf) :
    s.rejectTo line = (s.rejectedOpen r line).lockForLine.takeSetAside := by
  unfold State.rejectTo
  rw [hround]
  rfl

theorem State.rejectedOpen_voided (s : State) (r : RoundRec) (line : LineIf) : Voided s (s.rejectedOpen r line) := by
  have hleft : Voided s { s with line := line, eng := { s.eng with round := none } } := .of_same rfl rfl rfl rfl
  have hvoid := hleft.trans (State.ownersReject_voided _ (r.reject s.sup))
  refine (hvoid.trans (State.endQueue_voided _ (r.reject s.sup))).trans ?_
  unfold State.rejectedOpen
  exact .of_same (by simp) (by simp) (by simp) (by simp)

theorem State.ownersReject_round {s : State} (h : s.eng.round = none) (r : RoundRec) : (s.ownersReject r).eng.round = none := by
  unfold State.ownersReject
  split
  · simpa using State.ownersVoid_round h r
  · simpa using h

theorem State.rejectedOpen_rest (s : State) (r : RoundRec) (line : LineIf) :
    (s.rejectedOpen r line).eng.round = none ∧ (s.rejectedOpen r line).tal.tally = s.tal.tally
      ∧ (s.rejectedOpen r line).now = s.now ∧ (s.rejectedOpen r line).line = line
      ∧ (s.rejectedOpen r line).pol.armed = s.pol.armed := by
  have hround := State.endQueue_round (State.ownersReject_round
    (s := { s with line := line, eng := { s.eng with round := none } }) rfl (r.reject s.sup)) (r.reject s.sup)
  exact ⟨by simpa [State.rejectedOpen] using hround, by simp [State.rejectedOpen], by simp [State.rejectedOpen],
    by simp [State.rejectedOpen], by simp [State.rejectedOpen]⟩

/-- A rejection into any line ends so. -/
theorem State.rejectTo_rejects {s : State} {r : RoundRec} (hround : s.eng.round = some r)
    (hn : Notice.startingEnded ∉ s.notices) (line : LineIf) : Rejected s line (s.rejectTo line).settle := by
  obtain ⟨opened, notices, flags, unquiet⟩ := s.rejectedOpen_voided r line
  obtain ⟨hnone, htally, hnow, hline, harmed⟩ := s.rejectedOpen_rest r line
  have hlocked := (s.rejectedOpen r line).lockForLine_locks
  have hpressed := hlocked.leavesLock (State.takeSetAside_leavesLock hlocked.closed)
  obtain ⟨hopened, hadmin, hlock⟩ := hpressed.settle (notices hn)
  rw [State.rejectTo_locks hround]
  generalize s.rejectedOpen r line = u at *
  have hstat : u.lockForLine.takeSetAside.stat = u.stat := by simp
  have hinto : u.lockForLine.takeSetAside.line = line := by simpa using hline
  exact {
    round := by simpa using hnone
    flags := fun f hf => by simpa using flags f hf
    tally := by simpa using htally
    now := by simpa using hnow
    into := by
      by_cases hdormant : u.lockForLine.takeSetAside.settle.sup.activity = .dormant
      · exact (State.settle_line _).imp (·.trans hinto) fun h => ⟨h, hdormant⟩
      · exact .inl ((State.settle_line_awake hdormant).trans hinto)
    awake := fun hq => (State.settle_line_of_store (by rw [hstat]; exact unquiet hq)).trans hinto
    notOpened := hopened
    notAdmin := hadmin
    lock := fun ho ha => hlock (opened.2 ho) (harmed.trans ha) }

end Sys2Proof.Machine

end


section
/-! PROOF. Hold fields' ends and stuck lines (R14, R23, R30, R31, R35; log 18, 22, 50). -/

namespace Sys2Proof.Machine

/-! ## Hold fields -/

theorem State.inHold_of {s : State} {b : Nat} (h : s.line.pos = .inField .hold b) : s.inHold = true := by
  simp [State.inHold, h]

/-- The hold field's end at a station that has released (R30). -/
theorem State.holdEnd_eq {s : State} {r : RoundRec} {b : Nat} (hin : InRound s r (.inField .hold b))
    (hdrive : s.line.ownDrive = false) (hstrap : s.grd.state ≠ .strapFault) :
    s.holdEnd = { s with
      line := { s.line with
        pos := .atMark .stored
        offer := .nothing
        holdTimer := none
        stuckTimer := none
        idleTimer := some (s.line.idleTimer.getD (s.now + 2)) }
      eng := { s.eng with round := some { r with holdEnded := true } }
      tal := { s.tal with
        tallyStore := if s.tal.tallyStore.again then { busy := some s.tal.tally } else s.tal.tallyStore
        owedStore := if s.tal.owedStore.again then { busy := some s.tal.holdOwed } else s.tal.owedStore } } := by
  unfold State.holdEnd
  rw [State.inHold_of hin.pos, hdrive, if_pos (by decide), State.mapRound_eq hin.record]
  exact if_pos (bne_iff_ne.2 hstrap)

theorem exec_holdFieldEnd {s : State} {r : RoundRec} {b : Nat} (hs : Settled s) (hin : InRound s r (.inField .hold b))
    (hdrive : s.line.ownDrive = false) (hstrap : s.grd.state ≠ .strapFault) :
    exec .holdFieldEnd s = .next s.holdEnd := by
  show event State.holdEnd s = _
  refine hs.event_eq rfl ?_
  rw [State.holdEnd_eq hin hdrive hstrap]
  exact ⟨hs.notices, hs.decided, hs.granted, .of_round hin.view⟩

theorem exec_holdMaxExpiry {s : State} {r : RoundRec} {b t : Nat} (hs : Settled s) (hin : InRound s r (.inField .hold b))
    (htimer : s.line.holdTimer = some t) :
    exec .holdMaxExpiry s = .next { s with
      now := max s.now t
      line := { s.line with ownDrive := false, holdTimer := none, stuckTimer := some (max s.now t + 50) } } := by
  have hreached : s.holdMaxReached = { s with
      now := max s.now t
      line := { s.line with ownDrive := false, holdTimer := none, stuckTimer := some (max s.now t + 50) } } := by
    unfold State.holdMaxReached
    rw [htimer]
    exact if_pos (State.inHold_of hin.pos)
  show event State.holdMaxReached s = _
  exact hs.event_eq hreached ⟨hs.notices, hs.decided, hs.granted, .of_round hin.view⟩

/-! ## Stuck lines -/

theorem State.tracking_not_strapFault {s : State} (h : s.tracking = true) : s.grd.state ≠ .strapFault := by
  simp only [State.tracking, State.working, Bool.and_eq_true, bne_iff_ne] at h
  exact h.1.2

/-- A station that watches a line not yet stuck may see it stuck, but in a hold field with its timer running and in a round
whose line-stuck timer does not run (R35, R36). -/
theorem State.maySeeStuck_of {s : State} (htrack : s.tracking = true) (hview : s.line.view ≠ .stuck)
    (hhold : s.inHold = true → s.line.holdTimer = none) (hruns : s.line.stuckTimer ≠ none ∨ s.line.view ≠ .round) :
    s.maySeeStuck = true := by
  have hfree : (s.inHold && s.line.holdTimer.isSome) = false := by
    cases h : s.inHold with
    | false => rfl
    | true => simp [hhold h]
  have hseen : (s.line.stuckTimer.isSome || s.line.view.outsideRound) = true := by
    rcases hruns with h | h
    · simp [Option.isSome_iff_ne_none.2 h]
    · revert h hview
      cases s.line.view <;> simp [LineView.outsideRound]
  unfold State.maySeeStuck
  rw [htrack, hfree, hseen, bne_iff_ne.2 hview]
  rfl

/-- What stands at the end of the event in which a line is seen stuck (R14, R35; log 22). -/
structure SeenStuck (s t : State) : Prop where
  flag : t.stat.flags.has .lineStuck = true
  bad : s.eng.round ≠ none → t.stat.flags.has .badRound = true
  round : t.eng.round = none
  drive : t.line.ownDrive = false
  view : t.line.view = .stuck
  now : t.now = s.now
  notOpened : t.grd.state ≠ .opened
  notAdmin : t.grd.state ≠ .admin
  lock : s.grd.state = .opened ∨ s.grd.state = .admin → s.pol.armed = 0 → LockPosted t 4

theorem State.setFlag_store_runs {s : State} (hstrap : s.grd.state ≠ .strapFault) (f : Flag) :
    (s.setFlag f).stat.store.quiet = false := by
  rw [s.setFlag_stat]
  dsimp only
  have hmay : s.mayStore = true := bne_iff_ne.2 hstrap
  rw [if_pos hmay]
  exact Store.put_not_quiet _ _

/-- A round in progress is TRUNCATED on a stuck line (R35; log 22). -/
theorem State.lineStuck_in_round {s : State} {r : RoundRec} (hround : s.eng.round = some r)
    (hstrap : s.grd.state ≠ .strapFault) (hn : Notice.startingEnded ∉ s.notices) : SeenStuck s s.lineStuck.settle := by
  have hflagged : ((s.setFlag .lineStuck).setFlag .badRound).eng.round = some ((r.uncarry .lineStuck).uncarry .badRound) := by
    simp [hround]
  have hstuck : s.lineStuck = ((s.setFlag .lineStuck).setFlag .badRound).rejectTo { view := .stuck, tail := true } := by
    unfold State.lineStuck
    dsimp only
    rw [if_pos (by simp [hround])]
  have hnotices : Notice.startingEnded ∉ ((s.setFlag .lineStuck).setFlag .badRound).notices :=
    fun hc => hn (State.setFlag_startingEnded (State.setFlag_startingEnded hc))
  have hrejected := State.rejectTo_rejects hflagged hnotices { view := .stuck, tail := true }
  have hline := hrejected.awake (State.setFlag_store_runs (by simpa using hstrap) _)
  rw [hstuck]
  exact {
    flag := hrejected.flags _ (State.setFlag_has_of_has (State.setFlag_has _ _) _)
    bad := fun _ => hrejected.flags _ (State.setFlag_has _ _)
    round := hrejected.round
    drive := by rw [hline]
    view := by rw [hline]
    now := by simp
    notOpened := hrejected.notOpened
    notAdmin := hrejected.notAdmin
    lock := by simpa using hrejected.lock }

/-- Outside a round the header is taken back and the station locks (R14, R35). -/
theorem State.lineStuck_outside {s : State} (hround : s.eng.round = none) (hstrap : s.grd.state ≠ .strapFault)
    (hn : Notice.startingEnded ∉ s.notices) : SeenStuck s s.lineStuck.settle := by
  have hstuck : s.lineStuck = ({ (s.setFlag .lineStuck).unsend with
      line := { view := .stuck, tail := s.line.tail } } : State).lockForLine := by
    unfold State.lineStuck
    dsimp only
    rw [if_neg (by simp [hround])]
    simp [State.unsend]
  have hlocked := ({ (s.setFlag .lineStuck).unsend with
    line := { view := .stuck, tail := s.line.tail } } : State).lockForLine_locks
  obtain ⟨hopened, hadmin, hlock⟩ := hlocked.settle (by simpa [State.unsend] using fun hc => hn (State.setFlag_startingEnded hc))
  have hstore := State.setFlag_store_runs hstrap .lineStuck
  rw [← hstuck] at hopened hadmin hlock
  have hstat : s.lineStuck.stat = (s.setFlag .lineStuck).stat := by
    rw [hstuck]
    simp [State.unsend]
  have hline : s.lineStuck.settle.line = { view := .stuck, tail := s.line.tail } := by
    rw [State.settle_line_of_store (by rw [hstat]; exact hstore), hstuck]
    simp
  exact {
    flag := by
      have hset : s.lineStuck.settle.stat = s.lineStuck.stat := by simp
      rw [hset, hstat]
      exact State.setFlag_has _ _
    bad := fun h => absurd hround h
    round := by
      rw [hstuck]
      simp [State.unsend, hround]
    drive := by rw [hline]
    view := by rw [hline]
    now := by simp
    notOpened := hopened
    notAdmin := hadmin
    lock := by simpa [State.unsend] using hlock }

theorem State.lineStuck_seen {s : State} (hstrap : s.grd.state ≠ .strapFault) (hn : Notice.startingEnded ∉ s.notices) :
    SeenStuck s s.lineStuck.settle := by
  cases hround : s.eng.round with
  | none => exact State.lineStuck_outside hround hstrap hn
  | some r => exact State.lineStuck_in_round hround hstrap hn

theorem exec_lineStuckExpiry {s : State} (h : s.maySeeStuck = true) :
    exec .lineStuckExpiry s = .next ({ s with
      notices := []
      now := max s.now (s.line.stuckTimer.getD s.now) } : State).lineStuck.settle := by
  show execLineStuckExpiry s = _
  rw [execLineStuckExpiry, event_next]
  dsimp only
  rw [if_pos (by exact h)]
  rfl

/-- A stuck line that is released is watched anew (R35). -/
theorem exec_lineReleased {s : State} (hs : Settled s) (hview : s.line.view = .stuck) :
    exec .lineReleased s = .next { s with
      line := { view := .syncing, idleTimer := some (s.now + 2), tail := s.line.tail } } := by
  show execLineReleased s = _
  unfold execLineReleased
  refine hs.event_eq (if_pos hview) ⟨hs.notices, hs.decided, hs.granted, fun hq => hs.awake ?_⟩
  exact ⟨hq.1, hq.2.1, hq.2.2.1, hq.2.2.2.1, by simp [hview]⟩

/-- Settles O42: the two ends of a hold field, and the two of a stuck line. -/
theorem holdFieldsAndStuckLinesEnd : Obligations.HoldFieldsAndStuckLinesEnd := by
  unfold Obligations.HoldFieldsAndStuckLinesEnd
  refine ⟨⟨fun s r b hs hin hdrive hstrap => ?_, fun s r b t hs hin htimer => exec_holdMaxExpiry hs hin htimer⟩,
    fun s htrack hview hhold hruns => ?_, fun s hs hview => exec_lineReleased hs hview⟩
  · rw [exec_holdFieldEnd hs hin hdrive hstrap, State.holdEnd_eq hin hdrive hstrap]
  · obtain ⟨flag, bad, round, drive, view, now, notOpened, notAdmin, lock⟩ :=
      State.lineStuck_seen (s := { s with notices := [], now := max s.now (s.line.stuckTimer.getD s.now) })
        (State.tracking_not_strapFault htrack) (by simp)
    exact ⟨_, exec_lineStuckExpiry (State.maySeeStuck_of htrack hview hhold hruns), now, flag, bad, round, drive, view,
      notOpened, notAdmin, lock⟩

end Sys2Proof.Machine

end


section
/-! PROOF. A SERIAL clash (R2, R56, R125, R127). -/

namespace Sys2Proof.Machine

/-! ## The end of an event in STRAP_FAULT -/

/-- The triggers take nothing in STRAP_FAULT (R127). -/
theorem drainNotices_strapFault (n : Nat) {s : State} (h : s.grd.state = .strapFault) :
    drainNotices n s = { s with notices := [] } := by
  induction n generalizing s with
  | zero => rfl
  | succ n ih =>
    unfold drainNotices
    split
    · next hnone => rw [← hnone]
    · next x xs _ =>
      have htaken : State.takeNotice { s with notices := xs } x = { s with notices := xs } := if_pos h
      rw [htaken, ih (by exact h)]

/-- An event that ends in STRAP_FAULT with the inactivity timer stopped answers a waiting request at most (R2, R131). -/
theorem State.settle_strapFault {s : State} (h : s.grd.state = .strapFault) (hstopped : s.sup.inactivity = .stopped) :
    ∃ sent waiting, s.settle = { s with notices := [], toBridge := sent, gate := { s.gate with presented := waiting } } := by
  have hgranted : ∀ u : State, u.grd.state = .strapFault → u.grantPort = u := by
    intro u hu
    exact if_neg (by simp [hu])
  have hawake : ∀ u : State, u.sup.inactivity = .stopped → u.dormantIfQuiet = u := by
    intro u hu
    refine if_neg fun hc => ?_
    rw [hu] at hc
    exact nomatch hc.2.1
  have hdrain : s.drain = { s with notices := [] } := drainNotices_strapFault _ h
  unfold State.settle
  rw [hdrain]
  rcases State.regate_cases { s with notices := [] } with hr | ⟨sent, hr⟩ <;> rw [hr]
  · rw [hgranted _ (by exact h), hawake _ (by exact hstopped)]
    exact ⟨s.toBridge, s.gate.presented, rfl⟩
  · rw [hgranted _ (by exact h), hawake _ (by exact hstopped)]
    exact ⟨sent, none, rfl⟩

/-! ## Entry to STRAP_FAULT -/

/-- What entry to STRAP_FAULT takes from the station (R2, R127, R135, R153). -/
structure StrapFaulted (s u : State) : Prop where
  state : u.grd.state = .strapFault
  stopped : u.sup.inactivity = .stopped
  round : u.eng.round = none
  queue : u.eng.queue = []
  port : u.gate.outstanding = [] ∧ u.gate.portReady = false
  keys : u.cred.plainKey = none ∧ u.cred.genKey = none
  guard : u.grd.matched = none ∧ u.grd.mustChange = false ∧ u.grd.batteryTimer = none ∧ u.grd.pulseTimer = none
  erase : u.wipe.erase = .absent
  armed : u.pol.armed = 0
  latch : u.pol.latch = s.pol.latch
  flags : u.stat.flags = s.stat.flags ∧ u.stat.store = s.stat.store
  nv : u.nv = s.nv

theorem State.enterStrapFault_faults (s : State) : StrapFaulted s s.enterStrapFault := by
  constructor <;> simp [State.enterStrapFault]

/-! ## The end of SERIAL -/

theorem BitVec.ne_zero_iff_getLsbD {w : Nat} (v : BitVec w) : v ≠ 0 ↔ ∃ i, v.getLsbD i = true := by
  constructor
  · intro h
    by_contra hnone
    exact h (BitVec.eq_of_getLsbD_eq fun i _ => by simpa using Bool.eq_false_iff.2 fun hi => hnone ⟨i, hi⟩)
  · rintro ⟨i, hi⟩ rfl
    simp at hi

/-- A clash is a dominant reading of an own recessive bit (R56). -/
theorem serialClash_iff (s : State) (read : LineBits) :
    serialClash s read = true ↔ ∃ i, (s.eng.serial.setWidth 256).getLsbD i = true
      ∧ (slotRead 32 s.sup.stn.toNat read).getLsbD i = false := by
  unfold serialClash
  rw [bne_iff_ne, BitVec.ne_zero_iff_getLsbD]
  refine exists_congr fun i => ?_
  rw [BitVec.getLsbD_and, BitVec.getLsbD_not, Bool.and_eq_true, Bool.and_eq_true, decide_eq_true_iff, Bool.not_eq_true']
  exact ⟨fun h => ⟨h.1, h.2.2⟩, fun h => ⟨h.1, BitVec.lt_of_getLsbD (by exact h.1), h.2⟩⟩

/-- The end of a field that FIELD_END ends (R40). -/
theorem State.fieldEnded_of {s : State} {r : RoundRec} {f : Field} {b : Nat} (hin : InRound s r (.inField f b))
    (hhold : f ≠ .hold) (haccept : f ≠ .accept) (read : LineBits) :
    s.fieldEnded read = (s.senseField f read).takeField r f read := by
  unfold State.fieldEnded
  rw [hin.record, hin.pos]
  exact if_neg fun h => h.elim hhold haccept

/-- The station that has met a clash in its SERIAL slot (R56, R125). -/
def State.clashed (s : State) (read : LineBits) : State :=
  (((({ s with notices := [] } : State).senseField .serial read).setFlag .slotClash).faultDisarm).enterStrapFault

theorem exec_fieldEnd_clash {s : State} {r : RoundRec} {b : Nat} {read : LineBits} (hin : InRound s r (.inField .serial b))
    (hans : r.answered = true) (hclash : serialClash s read = true) :
    exec (.fieldEnd read) s = .next (s.clashed read).settle := by
  have hended : ({ s with notices := [] } : State).fieldEnded read = s.clashed read := by
    rw [State.fieldEnded_of (s := { s with notices := [] }) ⟨hin.record, hin.pos, hin.view⟩ (by simp) (by simp)]
    have hboth : (r.answered && serialClash (({ s with notices := [] } : State).senseField .serial read) read) = true := by
      rw [hans]
      exact hclash
    exact if_pos hboth
  show execFieldEnd read s = _
  rw [execFieldEnd, event_next, hended]

theorem State.faultDisarm_latch (s : State) : s.faultDisarm.pol.latch = (s.pol.latch || s.pol.table.faultDisarm) := by
  unfold State.faultDisarm
  cases s.pol.table.faultDisarm <;> simp

/-- Settles O41: the clash sets its flag, and STRAP_FAULT takes the rest. -/
theorem aSerialClashEndsInStrapFault : Obligations.ASerialClashEndsInStrapFault := by
  unfold Obligations.ASerialClashEndsInStrapFault
  intro s r b read hin hans hstrap hclash
  have hfaulted : StrapFaulted _ (s.clashed read) := State.enterStrapFault_faults _
  obtain ⟨sent, waiting, hsettle⟩ := State.settle_strapFault hfaulted.state hfaulted.stopped
  have hstat := State.setFlag_stat (({ s with notices := [] } : State).senseField .serial read) .slotClash
  have hmay : (({ s with notices := [] } : State).senseField .serial read).mayStore = true := bne_iff_ne.2 hstrap
  rw [if_pos hmay] at hstat
  obtain ⟨hflags, hstore⟩ := hfaulted.flags
  obtain ⟨houtstanding, hready⟩ := hfaulted.port
  obtain ⟨hplain, hgen⟩ := hfaulted.keys
  obtain ⟨hmatched, hchange, hbattery, hpulse⟩ := hfaulted.guard
  refine ⟨_, exec_fieldEnd_clash hin hans ((serialClash_iff s read).2 hclash), ?_⟩
  rw [hsettle]
  refine ⟨hfaulted.state, ?_, ?_, hfaulted.round, hfaulted.queue, houtstanding, hready, hplain, hgen, hmatched, hchange,
    hbattery, hpulse, hfaulted.erase, hfaulted.armed, ?_, ?_⟩
  · show (s.clashed read).stat.flags.has .slotClash = true
    rw [hflags]
    simpa using State.setFlag_has (({ s with notices := [] } : State).senseField .serial read) .slotClash
  · show (s.clashed read).stat.store = _
    have hkept : ∀ u : State, u.faultDisarm.stat = u.stat := fun u => by simp
    rw [hstore, hkept, hstat]
    rfl
  · show (s.clashed read).pol.latch = _
    rw [hfaulted.latch, State.faultDisarm_latch]
    simp [State.senseField]
  · show (s.clashed read).nv = _
    rw [hfaulted.nv]
    simp [State.senseField]

end Sys2Proof.Machine

end


section
/-! PROOF. FIELD_END of KIND, ARG and OPENERS (R14, R22, R26, R33, R36, R40, R42, R43, R48, R143; log 13, 18, 48). -/

namespace Sys2Proof.Machine

/-! ## Field ends and the line -/

/-- The timers alone change at a field's end (R23, R35). -/
theorem LineIf.sensed_frame (l : LineIf) (f : Field) (v : LineBits) (n : Nat) :
    (l.sensed f v n).view = l.view ∧ (l.sensed f v n).role = l.role ∧ (l.sensed f v n).offer = l.offer
      ∧ (l.sensed f v n).header = l.header ∧ (l.sensed f v n).ownDrive = l.ownDrive := by
  rw [l.sensed_eq f v n]
  exact ⟨rfl, rfl, rfl, rfl, rfl⟩

/-- A field's end that leaves nothing over answers its own effect. -/
theorem exec_fieldEnd_settles {s u : State} {r : RoundRec} {f : Field} {b : Nat} {read : LineBits} (hs : Settled s)
    (hin : InRound s r (.inField f b)) (hhold : f ≠ .hold) (haccept : f ≠ .accept)
    (hu : (s.senseField f read).takeField r f read = u) (hsettled : Settled u) : exec (.fieldEnd read) s = .next u := by
  show event (State.fieldEnded · read) s = _
  exact hs.event_eq ((State.fieldEnded_of hin hhold haccept read).trans hu) hsettled

/-- A field's end from a settled state ends what its own effect leaves. -/
theorem exec_fieldEnd_ends {s u : State} {r : RoundRec} {f : Field} {b : Nat} {read : LineBits} (hs : Settled s)
    (hin : InRound s r (.inField f b)) (hhold : f ≠ .hold) (haccept : f ≠ .accept)
    (hu : (s.senseField f read).takeField r f read = u) : exec (.fieldEnd read) s = .next u.settle := by
  show event (State.fieldEnded · read) s = _
  exact event_of_effect hs.notices ((State.fieldEnded_of hin hhold haccept read).trans hu)

/-! ## What the line reads -/

theorem fieldBits_toNat (f : Field) (hf : fieldWidth f ≤ 256) (read : LineBits) :
    (fieldBits f read).toNat = read.toNat % 2 ^ fieldWidth f := by
  have hmax : (asBits (fieldMax f)).toNat = 2 ^ fieldWidth f - 1 := by
    refine Nat.mod_eq_of_lt (lt_of_lt_of_le (Nat.sub_lt (by positivity) one_pos) ?_)
    exact Nat.pow_le_pow_right (by norm_num) hf
  rw [fieldBits, BitVec.toNat_and, hmax, Nat.and_two_pow_sub_one_eq_mod]

theorem fieldBits_of_lt {f : Field} {read : LineBits} (hf : fieldWidth f ≤ 256) (h : read.toNat < 2 ^ fieldWidth f) :
    fieldBits f read = read :=
  BitVec.eq_of_toNat_eq (by rw [fieldBits_toNat f hf, Nat.mod_eq_of_lt h])

theorem asBits_toNat {n : Nat} (h : n < 2 ^ 256) : (asBits n).toNat = n := Nat.mod_eq_of_lt h

/-- A station never reads above what it drives (R22; log 13). -/
theorem lineValue_of_le {v read : LineBits} (h : v.toNat ≤ read.toNat) : lineValue (.bits v) read = v := by
  unfold lineValue
  dsimp only
  split
  · rfl
  · next hlt => exact BitVec.eq_of_toNat_eq (by rw [BitVec.lt_def] at hlt; omega)

theorem lineValue_of_lt {v read : LineBits} (h : read.toNat < v.toNat) : lineValue (.bits v) read = read := by
  unfold lineValue
  dsimp only
  exact if_neg (by rw [BitVec.lt_def]; omega)

theorem fieldBits_kind {n : Nat} (h : n ≤ 15) : fieldBits .kind (asBits n) = asBits n :=
  fieldBits_of_lt (by decide) (by rw [asBits_toNat (by omega)]; show n < 16; omega)

theorem judgeKind_valid (k : RoundKind) : judgeKind (asBits (kindCode k)).toNat = .valid k := by
  cases k <;> rfl

theorem judgeKind_bad {n : Nat} (h : 11 ≤ n ∧ n ≤ 14) : judgeKind (asBits n).toNat = .badKind := by
  obtain ⟨hlo, hhi⟩ := h
  interval_cases n <;> rfl

/-! ## KIND -/

/-- KIND at a station that stays what it is, or that has lost (R26, R33). -/
theorem State.judgeContention_keeps_role {s : State} {line : LineBits} (h : s.line.role = .contender → s.line.offer = .bits line) :
    s.judgeContention line = s :=
  if_neg fun hc => hc.2 (h hc.1)

theorem State.judgeContention_loses {s : State} {line : LineBits} (hrole : s.line.role = .contender)
    (h : s.line.offer ≠ .bits line) : s.judgeContention line = s.loseHeader :=
  if_pos ⟨hrole, h⟩

/-- A contender that lost is a listener, and its request waits (R26, R48). -/
theorem State.loseHeader_eq {s : State} {r : RoundRec} (hround : s.eng.round = some r) :
    s.loseHeader = { s with
      line := { s.line with role := .listener, header := none, ownDrive := false }
      eng := { s.eng with round := some { r with part := .listener }, queue := s.eng.queue.map Request.unsent } } := by
  simp [State.loseHeader, State.unsend, State.mapRound, hround]

theorem State.kindEnded_valid {s u : State} {read line : LineBits} {k : RoundKind}
    (hline : lineValue s.line.offer (fieldBits .kind read) = line) (hu : s.judgeContention line = u)
    (hk : judgeKind line.toNat = .valid k) :
    s.kindEnded read = (u.mapRound fun r => { r with kind := some k }).awaitField .arg := by
  unfold State.kindEnded
  dsimp only
  rw [hline, hu, hk]

theorem State.kindEnded_rejects {s u : State} {read line : LineBits} {j : KindJudgement}
    (hline : lineValue s.line.offer (fieldBits .kind read) = line) (hu : s.judgeContention line = u)
    (hj : judgeKind line.toNat = j) (hbad : j = .stuck ∨ j = .badKind) :
    s.kindEnded read = (u.setFlag (if j = .stuck then .lineStuck else .badRound)).rejectRound := by
  unfold State.kindEnded
  dsimp only
  rw [hline, hu, hj]
  rcases hbad with rfl | rfl <;> rfl

/-- What stands at the end of an event that rejects a round into REJECTING and sets a flag (R14, R34, R36). -/
structure RejectedWith (f : Flag) (s t : State) : Prop where
  round : t.eng.round = none
  flag : t.stat.flags.has f = true
  view : t.line.view = .rejecting ∨ t.sup.activity = .dormant
  header : t.line.header = none
  drive : t.line.ownDrive = false
  tally : t.tal.tally = s.tal.tally
  notOpened : t.grd.state ≠ .opened
  notAdmin : t.grd.state ≠ .admin
  lock : s.grd.state = .opened ∨ s.grd.state = .admin → s.pol.armed = 0 → LockPosted t 4

theorem State.rejectRound_with {s u : State} {r : RoundRec} (hround : u.eng.round = some r)
    (hn : Notice.startingEnded ∉ u.notices) (hgrd : u.grd = s.grd) (hpol : u.pol = s.pol) (htal : u.tal = s.tal) (f : Flag) :
    RejectedWith f s (u.setFlag f).rejectRound.settle := by
  have hrejected : Rejected (u.setFlag f) (u.setFlag f).line.toRejecting (u.setFlag f).rejectRound.settle :=
    State.rejectTo_rejects (r := r.uncarry f) (by simp [hround]) (fun hc => hn (State.setFlag_startingEnded hc)) _
  have hflag : (u.setFlag f).stat.flags.has f = true := State.setFlag_has _ _
  have hsame : (u.setFlag f).grd = s.grd ∧ (u.setFlag f).pol = s.pol ∧ (u.setFlag f).tal = s.tal := by
    simp [hgrd, hpol, htal]
  obtain ⟨hgrd', hpol', htal'⟩ := hsame
  have hline : (u.setFlag f).line.toRejecting.view = .rejecting ∧ (u.setFlag f).line.toRejecting.header = none
      ∧ (u.setFlag f).line.toRejecting.ownDrive = false := ⟨rfl, rfl, rfl⟩
  generalize (u.setFlag f).rejectRound.settle = t at hrejected ⊢
  generalize (u.setFlag f).line.toRejecting = l at hrejected hline
  obtain ⟨hview, hheader, hdrive⟩ := hline
  obtain ⟨round, flags, tally, -, into, -, notOpened, notAdmin, lock⟩ := hrejected
  rw [hgrd', hpol'] at lock
  refine ⟨round, flags f hflag, ?_, ?_, ?_, tally.trans (by rw [htal']), notOpened, notAdmin, lock⟩
  · exact into.imp (fun h => by rw [h, hview]) fun h => h.2
  · rcases into with h | ⟨h, -⟩
    · rw [h, hheader]
    · rw [h]
  · rcases into with h | ⟨h, -⟩
    · rw [h, hdrive]
    · rw [h]

/-- An idle pattern is no round: its requests wait, and a store whose repeat waited for its end begins (R33, R143). -/
def State.idleSeen (s : State) : State :=
  ({ s.unsend with line := s.unsend.line.toGap, eng := { s.unsend.eng with round := none } } : State).repeatTallyAndOwed.repeatJournal

theorem State.idleSeen_rest (s : State) :
    s.idleSeen.stat = s.stat ∧ s.idleSeen.grd = s.grd ∧ s.idleSeen.gate = s.gate ∧ s.idleSeen.sup = s.sup
      ∧ s.idleSeen.notices = s.notices ∧ s.idleSeen.eng.round = none
      ∧ s.idleSeen.eng.queue = s.eng.queue.map Request.unsent ∧ s.idleSeen.line.view = .gap := by
  simp [State.idleSeen, State.unsend]

theorem State.idleSeen_journal {s : State} {j : Journal} (hagain : s.wipe.again = some j) (hbusy : s.wipe.busy = none)
    (hstrap : s.grd.state ≠ .strapFault) : s.idleSeen.wipe = { s.wipe with busy := some j, again := none } := by
  simp [State.idleSeen, State.repeatJournal, State.unsend, hagain, hbusy, State.mayStore, hstrap]

theorem State.senseField_eq {s : State} {f : Field} {read v : LineBits} (h : lineRead s.sup s.line.offer f read = v) :
    s.senseField f read = { s with line := s.line.sensed f v s.now } := by
  unfold State.senseField
  rw [h]

/-- In an arbitrated field the line is never above the own drive (R22). -/
theorem lineRead_arbitrated {f : Field} (hf : convention f = .arbitrated) (sup : Supply) (offer : Offer) (read : LineBits) :
    lineRead sup offer f read = lineValue offer (fieldBits f read) := by
  unfold lineRead
  rw [hf]

/-- FIELD_END of KIND that reads a kind at a station that keeps its part (R26, R33). -/
theorem exec_fieldEnd_kind_kept {s : State} {r : RoundRec} {b : Nat} {read : LineBits} {k : RoundKind} (hs : Settled s)
    (hin : InRound s r (.inField .kind b)) (hline : lineValue s.line.offer (fieldBits .kind read) = asBits (kindCode k))
    (hkept : s.line.role = .contender → s.line.offer = .bits (asBits (kindCode k))) :
    exec (.fieldEnd read) s = .next { s with
      line := { s.line.sensed .kind (asBits (kindCode k)) s.now with
        pos := .atMark .arg
        offer := .nothing
        ownDrive := false }
      eng := { s.eng with round := some { r with kind := some k } } } := by
  have hsense := State.senseField_eq ((lineRead_arbitrated (f := .kind) rfl s.sup s.line.offer read).trans hline)
  obtain ⟨hview, hrole, hoffer, -, -⟩ := s.line.sensed_frame .kind (asBits (kindCode k)) s.now
  refine exec_fieldEnd_settles hs hin (by simp) (by simp) ?_ (hs.inRound hs.notices rfl rfl (.of_eq rfl) (hview.trans hin.view))
  rw [hsense]
  refine (State.kindEnded_valid (by simpa [hoffer] using hline)
    (State.judgeContention_keeps_role (by simpa [hrole, hoffer] using hkept)) (judgeKind_valid k)).trans ?_
  rw [State.mapRound_eq (by exact hin.record)]
  rfl

/-- FIELD_END of KIND at a contender that reads a lower kind than its own (R26, R48). -/
theorem exec_fieldEnd_kind_lost {s : State} {r : RoundRec} {b : Nat} {read : LineBits} {k : RoundKind} (hs : Settled s)
    (hin : InRound s r (.inField .kind b)) (hline : lineValue s.line.offer (fieldBits .kind read) = asBits (kindCode k))
    (hrole : s.line.role = .contender) (hlost : s.line.offer ≠ .bits (asBits (kindCode k))) :
    exec (.fieldEnd read) s = .next { s with
      line := { s.line.sensed .kind (asBits (kindCode k)) s.now with
        role := .listener
        header := none
        pos := .atMark .arg
        offer := .nothing
        ownDrive := false }
      eng := { s.eng with
        round := some { r with kind := some k, part := .listener }
        queue := s.eng.queue.map Request.unsent } } := by
  have hsense := State.senseField_eq ((lineRead_arbitrated (f := .kind) rfl s.sup s.line.offer read).trans hline)
  obtain ⟨hview, hrole', hoffer, -, -⟩ := s.line.sensed_frame .kind (asBits (kindCode k)) s.now
  refine exec_fieldEnd_settles hs hin (by simp) (by simp) ?_ (hs.inRound hs.notices rfl rfl (.of_eq rfl) (hview.trans hin.view))
  rw [hsense]
  refine (State.kindEnded_valid (by simpa [hoffer] using hline)
    (State.judgeContention_loses (hrole'.trans hrole) (by simpa [hoffer] using hlost)) (judgeKind_valid k)).trans ?_
  rw [State.loseHeader_eq (by exact hin.record), State.mapRound_eq (by rfl)]
  rfl

theorem kindEnded_rejects_with {s u : State} {r : RoundRec} {b : Nat} {read line : LineBits} {j : KindJudgement} (hs : Settled s)
    (hin : InRound s r (.inField .kind b)) (hline : lineValue s.line.offer (fieldBits .kind read) = line)
    (hu : ({ s with line := s.line.sensed .kind line s.now } : State).judgeContention line = u)
    (hround : ∃ x, u.eng.round = some x) (hnotices : u.notices = []) (hgrd : u.grd = s.grd) (hpol : u.pol = s.pol)
    (htal : u.tal = s.tal) (hj : judgeKind line.toNat = j) (hbad : j = .stuck ∨ j = .badKind) :
    ∃ t, exec (.fieldEnd read) s = .next t ∧ RejectedWith (if j = .stuck then .lineStuck else .badRound) s t := by
  have hsense := State.senseField_eq ((lineRead_arbitrated (f := .kind) rfl s.sup s.line.offer read).trans hline)
  obtain ⟨-, -, hoffer, -, -⟩ := s.line.sensed_frame .kind line s.now
  obtain ⟨x, hx⟩ := hround
  refine ⟨_, exec_fieldEnd_ends hs hin (by simp) (by simp) ?_,
    State.rejectRound_with hx (by simp [hnotices]) hgrd hpol htal _⟩
  rw [hsense]
  exact State.kindEnded_rejects (by simpa [hoffer] using hline) hu hj hbad

/-- FIELD_END of KIND at a listener that reads no kind (R14, R33, R36). -/
theorem exec_fieldEnd_kind_rejected {s : State} {r : RoundRec} {b n : Nat} (hs : Settled s)
    (hin : InRound s r (.inField .kind b)) (hrole : s.line.role = .listener) (hoffer : s.line.offer = .nothing)
    (hn : n = 0 ∨ 11 ≤ n ∧ n ≤ 14) :
    ∃ t, exec (.fieldEnd (asBits n)) s = .next t ∧ RejectedWith (if n = 0 then .lineStuck else .badRound) s t := by
  obtain ⟨-, hrole', -, -, -⟩ := s.line.sensed_frame .kind (asBits n) s.now
  have hbad : judgeKind (asBits n).toNat = (if n = 0 then .stuck else .badKind) := by
    rcases hn with rfl | hn
    · rfl
    · rw [judgeKind_bad hn, if_neg (by omega)]
  have hended := kindEnded_rejects_with (read := asBits n) (line := asBits n) hs hin
    (by rw [fieldBits_kind (by omega), hoffer]; rfl)
    (State.judgeContention_keeps_role fun hc => absurd ((hrole'.symm.trans hc).symm.trans hrole) nofun)
    ⟨r, hin.record⟩ hs.notices rfl rfl rfl hbad (by split <;> simp)
  have hflag : (if (if n = 0 then KindJudgement.stuck else .badKind) = .stuck then Flag.lineStuck else .badRound)
      = if n = 0 then .lineStuck else .badRound := by
    split <;> simp
  rwa [hflag] at hended

/-- FIELD_END of KIND at a contender that reads 0: it has lost, and the line is stuck (R14, R26, R33). -/
theorem exec_fieldEnd_kind_zero {s : State} {r : RoundRec} {b : Nat} {own : RoundKind} (hs : Settled s)
    (hin : InRound s r (.inField .kind b)) (hrole : s.line.role = .contender)
    (hoffer : s.line.offer = .bits (asBits (kindCode own))) :
    ∃ t, exec (.fieldEnd (asBits 0)) s = .next t ∧ RejectedWith .lineStuck s t := by
  obtain ⟨-, hrole', hoffer', -, -⟩ := s.line.sensed_frame .kind (asBits 0) s.now
  have hne : s.line.offer ≠ .bits (asBits 0) := by
    rw [hoffer]
    cases own <;> decide
  have hline : lineValue s.line.offer (fieldBits .kind (asBits 0)) = asBits 0 := by
    rw [hoffer]
    cases own <;> decide
  have hlost := State.judgeContention_loses (s := { s with line := s.line.sensed .kind (asBits 0) s.now })
    (hrole'.trans hrole) (by simpa [hoffer'] using hne)
  rw [State.loseHeader_eq (by exact hin.record)] at hlost
  exact kindEnded_rejects_with hs hin hline hlost ⟨_, rfl⟩ hs.notices rfl rfl rfl rfl (.inl rfl)

/-- FIELD_END of KIND at a listener that reads an idle pattern (R33, R143). -/
theorem exec_fieldEnd_kind_idle {s : State} {r : RoundRec} {b : Nat} (hs : Settled s)
    (hin : InRound s r (.inField .kind b)) (hrole : s.line.role = .listener) (hoffer : s.line.offer = .nothing) :
    exec (.fieldEnd (asBits 15)) s
      = .next ({ s with line := s.line.sensed .kind (asBits 15) s.now } : State).idleSeen.settle := by
  have hline : lineValue s.line.offer (fieldBits .kind (asBits 15)) = asBits 15 := by
    rw [fieldBits_kind (by decide), hoffer]
    rfl
  have hsense := State.senseField_eq ((lineRead_arbitrated (f := .kind) rfl s.sup s.line.offer (asBits 15)).trans hline)
  obtain ⟨-, hrole', hoffer', -, -⟩ := s.line.sensed_frame .kind (asBits 15) s.now
  have hkept := State.judgeContention_keeps_role (s := { s with line := s.line.sensed .kind (asBits 15) s.now })
    (line := asBits 15) fun hc => absurd ((hrole'.symm.trans hc).symm.trans hrole) nofun
  refine exec_fieldEnd_ends hs hin (by simp) (by simp) ?_
  rw [hsense]
  show State.kindEnded _ _ = _
  unfold State.kindEnded
  dsimp only
  rw [hoffer', hline, hkept]
  rfl

/-- What stands after an idle pattern (R33, R143). -/
theorem State.idleSeen_settle {s : State} (hs : Settled s) (l : LineIf) :
    let t := ({ s with line := l } : State).idleSeen.settle
    t.eng.round = none ∧ t.stat = s.stat ∧ t.grd = s.grd ∧ t.eng.queue = s.eng.queue.map Request.unsent
      ∧ (t.line.view = .gap ∨ t.sup.activity = .dormant)
      ∧ ∀ j, s.wipe.again = some j → s.wipe.busy = none → s.grd.state ≠ .strapFault →
          t.wipe = { s.wipe with busy := some j, again := none } := by
  obtain ⟨hstat, hgrd, hgate, hsup, hnotices, hround, hqueue, hview⟩ := ({ s with line := l } : State).idleSeen_rest
  have hjournal := fun j => State.idleSeen_journal (s := { s with line := l }) (j := j)
  generalize ({ s with line := l } : State).idleSeen = u at *
  have hsame : SameGate s u := .of_eq hgate
  have hdecided : DecisionsTaken u := fun r hr =>
    (hsame.decision (by rw [hsup]) hgrd r).trans (hs.decided r (hsame.presented ▸ hr))
  have hgranted : PortGranted u := fun hready => by
    rw [hsame.candidate (by rw [hsup]) hgrd, hsame.erase]
    exact hs.granted (by rw [← hsame.ready, ← hgrd, ← hsup]; exact hready)
  have hsettle := State.settle_eq_dormantIfQuiet (hnotices.trans hs.notices) hdecided hgranted
  dsimp only
  rw [hsettle]
  rcases u.dormantIfQuiet_cases with h | ⟨-, -, h⟩ <;> rw [h]
  · exact ⟨hround, hstat, hgrd, hqueue, .inl hview, hjournal⟩
  · exact ⟨hround, hstat, hgrd, hqueue, .inr rfl, hjournal⟩

end Sys2Proof.Machine

end


section
/-! PROOF. FIELD_END of ARG and OPENERS (R22, R26, R40, R42, R43, R48; log 13). -/

namespace Sys2Proof.Machine

/-! ## ARG -/

theorem fieldBits_arg_setWidth (read : LineBits) : (fieldBits .arg read).setWidth 16 = read.setWidth 16 := by
  refine BitVec.eq_of_toNat_eq ?_
  rw [BitVec.toNat_setWidth, BitVec.toNat_setWidth, fieldBits_toNat .arg (by decide)]
  exact Nat.mod_mod _ _

theorem arg_toNat (v : Arg) : (v.setWidth 256).toNat = v.toNat := by
  rw [BitVec.toNat_setWidth]
  exact Nat.mod_eq_of_lt (lt_of_lt_of_le v.isLt (Nat.pow_le_pow_right (by norm_num) (by norm_num)))

/-- The end of ARG at a station that is no contender, or no longer (R40). -/
theorem State.argEnded_follows {s u : State} {r : RoundRec} {read line : LineBits}
    (hline : lineValue s.line.offer (fieldBits .arg read) = line) (hu : s.judgeContention line = u)
    (hround : u.eng.round = some r) (hrole : u.line.role ≠ .contender) :
    s.argEnded read = { u with
      line := { u.line with pos := .atMark .openers, offer := .nothing, ownDrive := false }
      eng := { u.eng with round := some { r with arg := line.setWidth 16 } } } := by
  unfold State.argEnded
  dsimp only
  rw [hline, hu, State.mapRound_eq hround]
  simp only [hrole, if_false]
  rfl

/-- The end of ARG at a contender still in: it is an opener (R26). -/
theorem State.argEnded_opens {s : State} {r : RoundRec} {read line : LineBits}
    (hline : lineValue s.line.offer (fieldBits .arg read) = line) (hkept : s.line.offer = .bits line)
    (hround : s.eng.round = some r) (hrole : s.line.role = .contender) :
    s.argEnded read = { s with
      line := { s.line with role := .opener, header := none, pos := .atMark .openers, offer := .nothing, ownDrive := false }
      eng := { s.eng with round := some { r with arg := line.setWidth 16, part := .opener } } } := by
  unfold State.argEnded
  dsimp only
  rw [hline, State.judgeContention_keeps_role fun _ => hkept, State.mapRound_eq hround]
  simp only [hrole, if_true]
  rfl

theorem exec_fieldEnd_arg_won {s : State} {r : RoundRec} {b : Nat} {v : Arg} {read : LineBits} (hs : Settled s)
    (hin : InRound s r (.inField .arg b)) (hrole : s.line.role = .contender) (hoffer : s.line.offer = .bits (v.setWidth 256))
    (hread : read.toNat < 65536) (hle : v.toNat ≤ read.toNat) :
    exec (.fieldEnd read) s = .next { s with
      line := { s.line.sensed .arg (v.setWidth 256) s.now with
        role := .opener
        header := none
        pos := .atMark .openers
        offer := .nothing
        ownDrive := false }
      eng := { s.eng with round := some { r with arg := v, part := .opener } } } := by
  have hline : lineValue s.line.offer (fieldBits .arg read) = v.setWidth 256 := by
    rw [hoffer, fieldBits_of_lt (by decide) hread]
    exact lineValue_of_le (by rwa [arg_toNat])
  have hsense := State.senseField_eq ((lineRead_arbitrated (f := .arg) rfl s.sup s.line.offer read).trans hline)
  obtain ⟨hview, hrole', hoffer', -, -⟩ := s.line.sensed_frame .arg (v.setWidth 256) s.now
  refine exec_fieldEnd_settles hs hin (by simp) (by simp) ?_ (hs.inRound hs.notices rfl rfl (.of_eq rfl) (hview.trans hin.view))
  rw [hsense]
  refine (State.argEnded_opens (by simpa [hoffer'] using hline) (by exact hoffer'.trans hoffer)
    (by exact hin.record) (by exact hrole'.trans hrole)).trans ?_
  simp

theorem exec_fieldEnd_arg_lost {s : State} {r : RoundRec} {b : Nat} {v : Arg} {read : LineBits} (hs : Settled s)
    (hin : InRound s r (.inField .arg b)) (hrole : s.line.role = .contender) (hoffer : s.line.offer = .bits (v.setWidth 256))
    (hread : read.toNat < 65536) (hlt : read.toNat < v.toNat) :
    exec (.fieldEnd read) s = .next { s with
      line := { s.line.sensed .arg read s.now with
        role := .listener
        header := none
        pos := .atMark .openers
        offer := .nothing
        ownDrive := false }
      eng := { s.eng with
        round := some { r with arg := read.setWidth 16, part := .listener }
        queue := s.eng.queue.map Request.unsent } } := by
  have hline : lineValue s.line.offer (fieldBits .arg read) = read := by
    rw [hoffer, fieldBits_of_lt (by decide) hread]
    exact lineValue_of_lt (by rwa [arg_toNat])
  have hne : s.line.offer ≠ .bits read := by
    rw [hoffer]
    rintro ⟨⟩
    exact absurd hlt (by rw [arg_toNat]; exact lt_irrefl _)
  have hsense := State.senseField_eq ((lineRead_arbitrated (f := .arg) rfl s.sup s.line.offer read).trans hline)
  obtain ⟨hview, hrole', hoffer', -, -⟩ := s.line.sensed_frame .arg read s.now
  refine exec_fieldEnd_settles hs hin (by simp) (by simp) ?_ (hs.inRound hs.notices rfl rfl (.of_eq rfl) (hview.trans hin.view))
  rw [hsense]
  have hlost := (State.judgeContention_loses (s := { s with line := s.line.sensed .arg read s.now }) (hrole'.trans hrole)
    (by simpa [hoffer'] using hne)).trans (State.loseHeader_eq (by exact hin.record))
  exact State.argEnded_follows (by simpa [hoffer'] using hline) hlost rfl (by simp)

theorem exec_fieldEnd_arg_followed {s : State} {r : RoundRec} {b : Nat} (read : LineBits) (hs : Settled s)
    (hin : InRound s r (.inField .arg b)) (hrole : s.line.role ≠ .contender) (hoffer : s.line.offer = .nothing) :
    exec (.fieldEnd read) s = .next { s with
      line := { s.line.sensed .arg (fieldBits .arg read) s.now with
        pos := .atMark .openers
        offer := .nothing
        ownDrive := false }
      eng := { s.eng with round := some { r with arg := read.setWidth 16 } } } := by
  have hline : lineValue s.line.offer (fieldBits .arg read) = fieldBits .arg read := by
    rw [hoffer]
    rfl
  have hsense := State.senseField_eq ((lineRead_arbitrated (f := .arg) rfl s.sup s.line.offer read).trans hline)
  obtain ⟨hview, hrole', hoffer', -, -⟩ := s.line.sensed_frame .arg (fieldBits .arg read) s.now
  refine exec_fieldEnd_settles hs hin (by simp) (by simp) ?_ (hs.inRound hs.notices rfl rfl (.of_eq rfl) (hview.trans hin.view))
  rw [hsense, ← fieldBits_arg_setWidth]
  have hkept := State.judgeContention_keeps_role (s := { s with line := s.line.sensed .arg (fieldBits .arg read) s.now })
    (line := fieldBits .arg read) fun hc => absurd (hrole'.symm.trans hc) hrole
  exact State.argEnded_follows (by simpa [hoffer'] using hline) hkept hin.record (by rwa [hrole'])

/-! ## OPENERS -/

/-- The kinds of a round that the observer may open here (R43). -/
theorem acceptsObserver_iff (s : State) (k : RoundKind) :
    acceptsObserver s k = true
      ↔ k = .lock ∨ k = .status ∨ k = .clear ∨ (k = .fit ∧ s.grd.state = .blank ∧ s.pol.table.frozen = false) := by
  cases k <;> simp [acceptsObserver]

/-- The kinds that the observer alone opens (R42). -/
theorem observerOnly_iff (k : RoundKind) : observerOnly k = true ↔ k = .status ∨ k = .clear ∨ k = .fit := by
  cases k <;> simp [observerOnly]

theorem observerOnly_code (k : RoundKind) : observerOnly k = false ↔ kindCode k ≤ 7 := by
  cases k <;> simp [observerOnly, kindCode]

/-- What the end of OPENERS does with the set as taken (R42, R43). -/
theorem State.openersEnded_eq {s : State} {r : RoundRec} {k : RoundKind} {read : LineBits} {set : BitVec 9}
    (hround : s.eng.round = some r) (hkind : r.kind = some k)
    (hset : takenOpeners s.sup (s.line.offer == .slot) (read.setWidth 9) = set) :
    s.openersEnded r read
      = if set = 0 ∨ (set.getLsbD 8 = false ∧ observerOnly k = true) then
          ({ s with eng := { s.eng with round := some { r with openers := set } } } : State).truncate
        else if set.getLsbD 8 = true ∧ acceptsObserver s k = false then
          ((({ s with eng := { s.eng with round := some { r with openers := set } } } : State).setFlag .obsRefused).mapRound
            fun r => { r with part := .refusing }).awaitField .answer
        else ({ s with eng := { s.eng with round := some { r with openers := set } } } : State).awaitField .answer := by
  unfold State.openersEnded
  dsimp only
  rw [hset, State.mapRound_eq hround, hkind]
  dsimp only
  have haccepts : ∀ e : Engine, acceptsObserver { s with eng := e } k = acceptsObserver s k := fun e => by cases k <;> rfl
  rw [haccepts]
  by_cases hzero : set = 0
  · rw [if_pos hzero, if_pos (.inl hzero)]
  · cases hobserver : set.getLsbD 8 <;> cases honly : observerOnly k <;> cases acceptsObserver s k <;> simp

/-- OPENERS with this set, at the round's record (R42, R43). -/
structure OpenersRead (s : State) (r : RoundRec) (b : Nat) (k : RoundKind) (read : LineBits) (set : BitVec 9) : Prop where
  settled : Settled s
  within : InRound s r (.inField .openers b)
  kind : r.kind = some k
  taken : set = takenOpeners s.sup (s.line.offer == .slot) (read.setWidth 9)

/-- The station once OPENERS is read. -/
def State.withOpeners (s : State) (r : RoundRec) (set : BitVec 9) (read : LineBits) : State :=
  { s with
    line := s.line.sensed .openers (lineRead s.sup s.line.offer .openers read) s.now
    eng := { s.eng with round := some { r with openers := set } } }

namespace OpenersRead

variable {s : State} {r : RoundRec} {b : Nat} {k : RoundKind} {read : LineBits} {set : BitVec 9}

theorem taken_eq (h : OpenersRead s r b k read set) :
    (s.senseField .openers read).takeField r .openers read
      = if set = 0 ∨ (set.getLsbD 8 = false ∧ observerOnly k = true) then (s.withOpeners r set read).truncate
        else if set.getLsbD 8 = true ∧ acceptsObserver s k = false then
          (((s.withOpeners r set read).setFlag .obsRefused).mapRound fun r => { r with part := .refusing }).awaitField .answer
        else (s.withOpeners r set read).awaitField .answer := by
  have hoffer := (s.line.sensed_frame .openers (lineRead s.sup s.line.offer .openers read) s.now).2.2.1
  have haccepts : acceptsObserver (s.senseField .openers read) k = acceptsObserver s k := by cases k <;> rfl
  refine (State.openersEnded_eq (s := s.senseField .openers read) (set := set) h.within.record h.kind ?_).trans ?_
  · rw [h.taken]
    show takenOpeners s.sup ((s.line.sensed .openers (lineRead s.sup s.line.offer .openers read) s.now).offer == .slot) _ = _
    rw [hoffer]
  · rw [haccepts]
    rfl

/-- An empty set, or an observer's kind without the observer, is rejected (R42). -/
theorem rejects (h : OpenersRead s r b k read set)
    (hbad : set = 0 ∨ (set.getLsbD 8 = false ∧ (k = .status ∨ k = .clear ∨ k = .fit))) :
    ∃ t, exec (.fieldEnd read) s = .next t ∧ RejectedWith .badRound s t := by
  have hends := exec_fieldEnd_ends h.settled h.within (by simp) (by simp)
    (h.taken_eq.trans (if_pos (hbad.imp_right fun hb => ⟨hb.1, (observerOnly_iff k).2 hb.2⟩)))
  have hn : Notice.startingEnded ∉ (s.withOpeners r set read).notices := by simp [State.withOpeners, h.settled.notices]
  have hrejected : RejectedWith .badRound s ((s.withOpeners r set read).setFlag .badRound).rejectRound.settle :=
    State.rejectRound_with (s := s) (r := { r with openers := set }) rfl hn rfl rfl rfl _
  exact ⟨_, hends, hrejected⟩

/-- An observer opener of a kind that it may not open here is refused (R43). -/
theorem refuses (h : OpenersRead s r b k read set) (hobserver : set.getLsbD 8 = true) (haccepts : acceptsObserver s k = false) :
    ∃ t, exec (.fieldEnd read) s = .next t ∧ t.stat.flags.has .obsRefused = true ∧ t.line.pos = .atMark .answer
      ∧ t.grd = s.grd ∧ ∃ x, t.eng.round = some x ∧ x.part = .refusing ∧ x.openers = set := by
  have hset : set ≠ 0 := by
    rintro rfl
    simp at hobserver
  have hends := exec_fieldEnd_ends h.settled h.within (by simp) (by simp)
    (h.taken_eq.trans ((if_neg fun hc => hc.elim hset fun hb => Bool.false_ne_true (hb.1.symm.trans hobserver)).trans (if_pos ⟨hobserver, haccepts⟩)))
  have hview : (s.withOpeners r set read).line.view = .round := by
    simpa [State.withOpeners, LineIf.sensed_frame] using h.within.view
  have hnone : (s.withOpeners r set read).notices = [] := h.settled.notices
  have hrefused : ((s.withOpeners r set read).setFlag .obsRefused).notices = [] := by
    have hquiet : FlagSet.any Flag.obsRefused.mask disarmingFlags = false := by decide
    unfold State.setFlag
    dsimp only
    rw [hquiet]
    exact hnone
  refine ⟨_, hends, ?_, ?_, ?_, ?_⟩
  · simpa [State.awaitField, State.mapRound] using State.setFlag_has (s.withOpeners r set read) .obsRefused
  · rw [State.settle_line_of_round (by simpa [State.awaitField, State.mapRound] using hview)]
    rfl
  · rw [(State.settle_calm (.inl (by exact hrefused))).grd]
    simp [State.awaitField, State.mapRound, State.withOpeners]
  · refine ⟨{ ({ r with openers := set } : RoundRec).uncarry .obsRefused with part := .refusing }, ?_, rfl, rfl⟩
    simp [State.awaitField, State.mapRound, State.withOpeners]

/-- Any other set goes on to ANSWER (R42). -/
theorem goes_on (h : OpenersRead s r b k read set) (hset : set ≠ 0)
    (hopens : if set.getLsbD 8 then acceptsObserver s k = true else kindCode k ≤ 7) :
    exec (.fieldEnd read) s = .next { s with
      line := { s.line.sensed .openers (lineRead s.sup s.line.offer .openers read) s.now with
        pos := .atMark .answer
        offer := .nothing
        ownDrive := false }
      eng := { s.eng with round := some { r with openers := set } } } := by
  have hview := (s.line.sensed_frame .openers (lineRead s.sup s.line.offer .openers read) s.now).1
  have hfirst : ¬(set = 0 ∨ (set.getLsbD 8 = false ∧ observerOnly k = true)) := by
    rintro (hz | ⟨hb, ho⟩)
    · exact hset hz
    · rw [hb] at hopens
      simp [(observerOnly_code k).2 hopens] at ho
  have hsecond : ¬(set.getLsbD 8 = true ∧ acceptsObserver s k = false) := by
    rintro ⟨hb, ha⟩
    rw [hb] at hopens
    simp [ha] at hopens
  exact exec_fieldEnd_settles h.settled h.within (by simp) (by simp)
    (h.taken_eq.trans ((if_neg hfirst).trans (if_neg hsecond)))
    (h.settled.inRound h.settled.notices rfl rfl (.of_eq rfl) (hview.trans h.within.view))

end OpenersRead

/-- Settles O39: the three header fields, each by what it reads. -/
theorem headerFieldsAreJudged : Obligations.HeaderFieldsAreJudged := by
  unfold Obligations.HeaderFieldsAreJudged
  refine ⟨fun s r b hs hin hrole hoffer => ⟨fun k => ?kind, fun n hn => ?bad, ?idle⟩,
    fun s r b hs => ⟨fun own k n hin hrole hoffer => ⟨fun hle hn => ?kept, fun hlt => ?lost, ?zero⟩,
      fun v read hin hrole hoffer hread => ⟨exec_fieldEnd_arg_won hs hin hrole hoffer hread,
        exec_fieldEnd_arg_lost hs hin hrole hoffer hread⟩,
      fun read hin hrole hoffer => exec_fieldEnd_arg_followed read hs hin hrole hoffer⟩,
    fun s r b k read set hs hin hkind hset => ?openers⟩
  case kind =>
    have hcode : kindCode k ≤ 15 := by cases k <;> decide
    exact exec_fieldEnd_kind_kept hs hin (by rw [hoffer, fieldBits_kind hcode]; rfl) (by simp [hrole])
  case bad =>
    obtain ⟨t, hexec, round, flag, view, -, -, -, notOpened, notAdmin, lock⟩ :=
      exec_fieldEnd_kind_rejected hs hin hrole hoffer hn
    exact ⟨t, hexec, round, flag, view, notOpened, notAdmin, lock⟩
  case idle =>
    obtain ⟨hround, hstat, hgrd, hqueue, hview, hjournal⟩ := State.idleSeen_settle hs (s.line.sensed .kind (asBits 15) s.now)
    exact ⟨_, exec_fieldEnd_kind_idle hs hin hrole hoffer, hround, hstat, hgrd, hqueue, hview, hjournal⟩
  case kept =>
    have hcode : kindCode own < 2 ^ 256 := by cases own <;> decide
    have hline : lineValue s.line.offer (fieldBits .kind (asBits n)) = asBits (kindCode own) := by
      rw [hoffer, fieldBits_kind hn]
      refine lineValue_of_le ?_
      rwa [asBits_toNat hcode, asBits_toNat (by omega)]
    exact exec_fieldEnd_kind_kept hs hin hline fun _ => hoffer
  case lost =>
    have hown : kindCode own ≤ 15 := by cases own <;> decide
    have hread : (asBits (kindCode k)).toNat < (asBits (kindCode own)).toNat := by
      rwa [asBits_toNat (by omega), asBits_toNat (by omega)]
    have hline : lineValue s.line.offer (fieldBits .kind (asBits (kindCode k))) = asBits (kindCode k) := by
      rw [hoffer, fieldBits_kind (by omega)]
      exact lineValue_of_lt hread
    refine exec_fieldEnd_kind_lost hs hin hline hrole fun hc => ?_
    rw [hoffer] at hc
    injection hc with hc
    rw [hc] at hread
    exact lt_irrefl _ hread
  case zero =>
    obtain ⟨t, hexec, round, flag, view, header, drive, -, notOpened, notAdmin, -⟩ :=
      exec_fieldEnd_kind_zero hs hin hrole hoffer
    exact ⟨t, hexec, round, flag, view, header, drive, notOpened, notAdmin⟩
  case openers =>
    have hread : OpenersRead s r b k read set := ⟨hs, hin, hkind, hset⟩
    refine ⟨fun hbad => ?_, fun hobserver hnot => ?_, fun hne hopens => ?_⟩
    · obtain ⟨t, hexec, hrejected⟩ := hread.rejects hbad
      exact ⟨t, hexec, hrejected.round, hrejected.flag, hrejected.notOpened, hrejected.notAdmin⟩
    · exact hread.refuses hobserver (Bool.eq_false_iff.2 (mt (acceptsObserver_iff s k).1 hnot))
    · refine hread.goes_on hne ?_
      simp only [acceptsObserver_iff]
      exact hopens

end Sys2Proof.Machine

end


section
/-! PROOF. Presses set aside are taken in one event: the gate decides after the last of them, not after each (R66, R131). -/

namespace Sys2Proof.Machine

/-- The state that a command leaves. -/
def State.after (s : State) (c : Instr) : State :=
  match exec c s with
  | .next t => t
  | _ => s

theorem State.after_eq {c : Instr} {s t : State} (h : exec c s = .next t) : s.after c = t := by
  unfold State.after
  rw [h]

/-- An ADMIN station with an open mark lock, SHIFT held down, in the ANSWER field of a SETCODE round that it does not answer.
A write to a PUBLIC extent waits for the port, and these presses of 4 are set aside: as chords each toggles the mark lock
(R66, R74). -/
def writeWaits (presses : List Key) : State :=
  { State.reset with
    sup := { State.reset.sup with state := .bus, activity := .awake, step := .done }
    grd := { State.reset.grd with state := .admin }
    line := { view := .round, role := .listener, pos := .inField .answer 0 }
    eng := { State.reset.eng with round := some { kind := some .setcode } }
    key := { State.reset.key with states := keyMask .shift, setAside := presses }
    gate := { State.reset.gate with
      fixedMarks := Vector.replicate 64 .pub
      markLockOpen := true
      presented := some ⟨.write, 0, 0⟩ } }

theorem writeWaits_settled (presses : List Key) : Settled (writeWaits presses) where
  notices := rfl
  decided := by
    rintro r ⟨⟩
    rfl
  granted := nofun
  awake := .of_round rfl

/-- Both chords in one event: the lock is open again when the write is decided. -/
theorem writeWaits_both :
    ((writeWaits [.digit 4, .digit 4]).after (.fieldEnd 0)).toBridge = [] := by
  decide

/-- The second chord in an event of its own: the write was refused at the end of the first. -/
theorem writeWaits_each :
    ((((writeWaits [.digit 4]).after (.fieldEnd 0)).aboutToPress (.digit 4)).after (.keyPress (.digit 4))).toBridge ≠ [] := by
  decide

/-- Refutes O40: the claim that the last press set aside is taken as in an event of its own. Two chords SHIFT+4 leave the
mark lock open, and a write that waits stands; with an event between them it is refused. -/
theorem not_answerAndBodyFieldsHandOver : ¬ Obligations.AnswerAndBodyFieldsHandOver := by
  unfold Obligations.AnswerAndBodyFieldsHandOver
  rintro ⟨-, htaken, -⟩
  obtain ⟨t₀, t, hfirst, hboth, -, u, hpress, ht⟩ := htaken (writeWaits [.digit 4, .digit 4]) { kind := some .setcode } 0 0
    [.digit 4] (.digit 4) (writeWaits_settled _) ⟨rfl, rfl, rfl⟩ rfl nofun rfl (.inr rfl)
  have hfirst' : (writeWaits [.digit 4]).after (.fieldEnd 0) = t₀ := State.after_eq hfirst
  have hu : u.toBridge ≠ [] := by
    rw [← State.after_eq hpress, ← hfirst']
    exact writeWaits_each
  have htBridge : t.toBridge = u.toBridge := by rw [ht]
  refine hu (htBridge.symm.trans ?_)
  rw [← State.after_eq hboth]
  exact writeWaits_both

end Sys2Proof.Machine

end


section
/-! PROOF. What a station drives in each field, and the two reports (R26 to R29, R38, R39, R43, R53, R79, R81 to R84, R86 to R88,
R91, R155, R170, R171, R175). -/

namespace Sys2Proof.Machine

/-! ## Frame fields -/

theorem driveSlot_iff (b : Bool) : driveSlot b = .slot ↔ b = true := by
  cases b <;> simp [driveSlot]

theorem driveSlot_eq (b : Bool) : driveSlot b = if b then .slot else .nothing := rfl

/-- A body field is none of the frame's (R38). -/
theorem bodyFields_not_frame (k : RoundKind) (a : Arg) :
    ∀ f ∈ bodyFields k a, f ≠ .kind ∧ f ≠ .arg ∧ f ≠ .openers ∧ f ≠ .answer ∧ f ≠ .accept := by
  cases k with
  | status =>
    simp only [bodyFields]
    split <;> simp
  | _ => simp [bodyFields]

theorem offerAt_body {k : RoundKind} {a : Arg} {f : Field} (hf : f ∈ bodyFields k a) (s : State) (r : RoundRec) :
    offerAt s r f = if r.answered then bodyOffer s r f else .nothing := by
  obtain ⟨hkind, harg, hopeners, hanswer, haccept⟩ := bodyFields_not_frame k a f hf
  unfold offerAt
  split
  · exact absurd rfl hkind
  · exact absurd rfl harg
  · exact absurd rfl hopeners
  · exact absurd rfl hanswer
  · exact absurd rfl haccept
  · rfl

/-- The offers of the frame's fields (R26, R39, R43, R44). -/
theorem offerAt_frame (s : State) (r : RoundRec) :
    (∀ k a, s.line.role = .contender → s.line.header = some (k, a) → offerAt s r .arg = .bits (a.setWidth 256))
      ∧ (s.line.role ≠ .contender → offerAt s r .arg = .nothing)
      ∧ offerAt s r .openers = (if s.line.role = .opener then .slot else .nothing)
      ∧ offerAt s r .answer = (if r.part = .refusing then .nothing else .slot)
      ∧ offerAt s r .accept = (if r.answered then .slot else .nothing)
      ∧ (r.answered = false → ∀ k a, ∀ f ∈ bodyFields k a, offerAt s r f = .nothing) := by
  refine ⟨fun k a hrole hheader => ?_, fun hrole => ?_, ?_, ?_, rfl, fun hans k a f hf => ?_⟩
  · simp [offerAt, hrole, hheader]
  · simp [offerAt, hrole]
  · by_cases h : s.line.role = .opener <;> simp [offerAt, driveSlot, h]
  · by_cases h : r.part = .refusing <;> simp [offerAt, driveSlot, h]
  · simp [offerAt_body hf, hans]

/-! ## Body fields -/

/-- AGREE was read and equals ANSWER (R85, R91). -/
theorem RoundRec.agreed_iff (r : RoundRec) :
    r.agreed = true ↔ (∃ x, r.result .agree = some x) ∧ r.mapOf .agree = r.answer := by
  simp [RoundRec.agreed, Option.isSome_iff_exists]

/-- A station takes the verdict once every station on the roster answered, agreed and stored (R87). -/
theorem takesVerdict_iff (s : State) (r : RoundRec) :
    takesVerdict s r = true ↔ r.agreed = true ∧ r.answer = rosterSet s.sup.roster ∧ r.mapOf .stored = r.answer
      ∧ s.stat.flags.has .rollShort = false := by
  simp [takesVerdict, and_assoc]

section answered

variable {r : RoundRec} (hans : r.answered = true)
include hans

/-- What a station that answered drives in ROLL (R53). -/
theorem offerAt_roll (s : State) :
    offerAt s r .serial = .bits (slotOffer 32 s.sup.stn.toNat (s.eng.serial.setWidth 256))
      ∧ (r.kind = some .roll → offerAt s r .tallyHi = .bits (asBits (127 - s.tal.tally)))
      ∧ offerAt s r .stampHi = (if s.wipe.journal.phase = .none then
          .bits (asBits (65535 - s.cred.liveStamp.toNat)) else .nothing)
      ∧ offerAt s r .stampLo = (if s.wipe.journal.phase = .none then .bits (s.cred.liveStamp.setWidth 256) else .nothing)
      ∧ offerAt s r .wipeAny = (if s.wipe.journal.phase = .none then .nothing else .slot)
      ∧ offerAt s r .policyLo = .bits (s.pol.table.check.setWidth 256)
      ∧ offerAt s r .policyHi = .bits (asBits (65535 - s.pol.table.check.toNat)) := by
  refine ⟨?_, fun hkind => ?_, ?_, ?_, ?_, ?_, ?_⟩
  · simp [offerAt, hans, bodyOffer]
  · simp only [offerAt, hans, if_true, bodyOffer, tallyOffer, hkind]
    rfl
  · by_cases h : s.wipe.journal.phase = .none
    · simp only [offerAt, hans, if_true, bodyOffer, h]
      rfl
    · simp [offerAt, hans, bodyOffer, h, offerHigh]
  · by_cases h : s.wipe.journal.phase = .none <;> simp [offerAt, hans, bodyOffer, h]
  · by_cases h : s.wipe.journal.phase = .none <;> simp [offerAt, hans, bodyOffer, h, driveSlot]
  · simp [offerAt, hans, bodyOffer]
  · simp only [offerAt, hans, if_true, bodyOffer]
    rfl

/-- What a station that answered drives in CHECK up to the hold field (R82, R84, R86). -/
theorem offerAt_check (s : State) (hkind : r.kind = some .check) :
    (∀ e, s.cred.roundEntry = some e →
        offerAt s r .fingerprint = .bits ((Config.fingerprintOf (e.map .digit) r.arg).setWidth 256))
      ∧ (offerAt s r .agree = .slot ↔ r.equalIn .fingerprint = true ∧ s.grd.state = .locked)
      ∧ offerAt s r .tallyHi = (if r.agreed then .bits (asBits (127 - min 99 (s.tal.tally + 1))) else .nothing) := by
  refine ⟨fun e he => ?_, ?_, ?_⟩
  · simp only [offerAt, hans, if_true, bodyOffer, fingerprintOffer, hkind, he]
    rfl
  · simp [offerAt, hans, bodyOffer, driveSlot_iff, drivesAgree, hkind]
  · simp only [offerAt, hans, if_true, bodyOffer, tallyOffer, hkind]
    rfl

/-- What it drives in the store's map and in the verdict's fields (R87, R88). -/
theorem offerAt_verdict (s : State) :
    (offerAt s r .stored = .slot ↔ r.made = true)
      ∧ offerAt s r .verdict = (if takesVerdict s r then .bits (asBits (verdictOf s)) else .nothing)
      ∧ (offerAt s r .verdictAgree = .slot ↔ r.tookVerdict = true ∧ r.equalIn .verdict = true) := by
  refine ⟨?_, ?_, ?_⟩
  · simp [offerAt, hans, bodyOffer, driveSlot_iff]
  · simp [offerAt, hans, bodyOffer]
  · simp [offerAt, hans, bodyOffer, driveSlot_iff]

/-- What it drives in SETCODE (R91). -/
theorem offerAt_setcode (s : State) (hkind : r.kind = some .setcode) {c : RoundChange} (hc : s.cred.roundChange = some c) :
    offerAt s r .fingerprint
        = .bits ((Config.fingerprintOf (c.code.map .digit ++ [.mustChange c.mustChange]) r.arg).setWidth 256)
      ∧ (offerAt s r .agree = .slot ↔ r.equalIn .fingerprint = true ∧ changeAcceptable s c = true) := by
  refine ⟨?_, ?_⟩
  · simp only [offerAt, hans, if_true, bodyOffer, fingerprintOffer, hkind, hc]
    rfl
  · simp [offerAt, hans, bodyOffer, driveSlot_iff, drivesAgree, hkind, hc]

theorem offerAt_setcode_none (s : State) (hkind : r.kind = some .setcode) (hc : s.cred.roundChange = none) :
    offerAt s r .fingerprint = .nothing ∧ offerAt s r .agree = .nothing := by
  simp [offerAt, hans, bodyOffer, fingerprintOffer, drivesAgree, driveSlot, hkind, hc]

/-- What it drives in PROGRESS and STATUS (R155, R170, R171). -/
theorem offerAt_reports (s : State) :
    (offerAt s r .done = .slot ↔ s.wipe.journal.phase = .done ∧ s.grd.state = .wiping)
      ∧ offerAt s r .badHi = (if s.wipe.journal.phase = .none then .nothing
          else .bits (asBits (127 - s.wipe.journal.bad.length)))
      ∧ offerAt s r .summary = .bits (slotOffer 8 s.sup.stn.toNat ((summaryByte s).setWidth 256))
      ∧ offerAt s r .detail = (if r.arg.toNat = s.sup.stn.toNat then .bits ((detailReport s).setWidth 256)
          else .nothing) := by
  refine ⟨?_, ?_, ?_, ?_⟩
  · simp [offerAt, hans, bodyOffer, driveSlot_iff]
  · by_cases h : s.wipe.journal.phase = .none
    · simp [offerAt, hans, bodyOffer, h, offerHigh]
    · simp only [offerAt, hans, if_true, bodyOffer, bne_iff_ne.2 h, if_neg h]
      rfl
  · simp [offerAt, hans, bodyOffer]
  · simp [offerAt, hans, bodyOffer]

end answered

/-! ## Slots of the code table -/

/-- An entry matches a slot that is not empty and has its length and verifier (R81). -/
theorem matchesSlot_iff (e : List Digit) (c : SlotContents) :
    matchesSlot e c = true ↔
      e ≠ [] ∧ ∃ code, slotMark c = some code ∧ e.length = code.length ∧ Config.verifierOf e = code.verifier := by
  by_cases he : e = []
  · subst he
    unfold matchesSlot
    cases slotMark c <;> simp
  · rw [matchesSlot_iff_of_ne_nil he]
    simp [he]

/-- The verdict is the lowest slot that the round entry matches, 7 for none (R87). -/
theorem verdictOf_eq {s : State} {e : List Digit} (he : s.cred.roundEntry = some e) :
    (∀ i : CodeSlotNo, matchesSlot e (s.cred.slots.get i).contents = true →
        (∀ j : CodeSlotNo, j < i → matchesSlot e (s.cred.slots.get j).contents = false) → verdictOf s = i.val)
      ∧ ((∀ i : CodeSlotNo, matchesSlot e (s.cred.slots.get i).contents = false) → verdictOf s = 7) := by
  refine ⟨fun i hi hlow => ?_, fun hnone => ?_⟩
  · have hfind : lowestMatch s.cred.slots e = some i := by
      unfold lowestMatch slotNumbers
      match i with
      | 0 => simp [hi]
      | 1 => simp [hi, hlow 0 (by decide)]
      | 2 => simp [hi, hlow 0 (by decide), hlow 1 (by decide)]
      | 3 => simp [hi, hlow 0 (by decide), hlow 1 (by decide), hlow 2 (by decide)]
    simp [verdictOf, he, hfind]
  · have hfind : lowestMatch s.cred.slots e = none := by simp [lowestMatch, hnone]
    simp [verdictOf, he, hfind]

/-- The roles that a slot takes (R79, R91). -/
theorem roleAllowed_iff (target : CodeSlotNo) (role : Role) :
    roleAllowed target role = true ↔ (role = .admin ∧ target = 0) ∨ (role = .user ∧ (target = 1 ∨ target = 2))
      ∨ (role = .duress ∧ target = 3) ∨ (role = .empty ∧ target ≠ 0) := by
  cases role <;> simp [roleAllowed]

theorem changeAcceptable_iff (s : State) (c : RoundChange) :
    changeAcceptable s c = true ↔ s.wipe.journal.phase = .none
      ∧ ((c.role = .admin ∧ c.target = 0) ∨ (c.role = .user ∧ (c.target = 1 ∨ c.target = 2))
        ∨ (c.role = .duress ∧ c.target = 3) ∨ (c.role = .empty ∧ c.target ≠ 0))
      ∧ c.stamp.toNat = s.cred.liveStamp.toNat + 1
      ∧ (s.grd.state = .opened ∨ s.grd.state = .admin
        ∨ (s.grd.state = .blank ∧ c.target = 0 ∧ c.role = .admin ∧ c.stamp = 1 ∧ s.cred.liveStamp = 0)) := by
  unfold changeAcceptable
  rw [Bool.and_eq_true, Bool.and_eq_true, Bool.and_eq_true, beq_iff_eq, beq_iff_eq, roleAllowed_iff, guardAllows_iff,
    and_assoc, and_assoc]

/-! ## The station's slot in a data field -/

theorem asBits_ones_bit {w : Nat} (hw : w ≤ 256) (i : Nat) : (asBits (2 ^ w - 1)).getLsbD i = decide (i < w) := by
  unfold asBits
  rw [BitVec.getLsbD_ofNat, Nat.testBit_two_pow_sub_one]
  by_cases h : i < w
  · simp [h, lt_of_lt_of_le h hw]
  · simp [h]

/-- A slot carries the own value, and the rest of the field is recessive (R32, R53). -/
theorem slotOffer_bit {width slot j : Nat} (hslot : slot < 8) (hwidth : width * 8 ≤ 256) (hj : j < 256) (v : LineBits) :
    (slotOffer width slot v).getLsbD j =
      if width * (7 - slot) ≤ j ∧ j < width * (8 - slot) then v.getLsbD (j - width * (7 - slot)) else true := by
  have hend : width * (8 - slot) = width * (7 - slot) + width := by
    rw [← Nat.mul_succ]
    congr 1
    omega
  unfold slotOffer
  rw [BitVec.getLsbD_or, BitVec.getLsbD_and, BitVec.getLsbD_not, BitVec.getLsbD_shiftLeft, BitVec.getLsbD_shiftLeft,
    asBits_ones_bit (by omega), BitVec.getLsbD_allOnes, hend]
  by_cases hlow : width * (7 - slot) ≤ j
  · by_cases hhigh : j < width * (7 - slot) + width
    · rw [if_pos ⟨hlow, hhigh⟩]
      have hin : j - width * (7 - slot) < width := by omega
      simp [hj, hin, Nat.not_lt.2 hlow]
    · rw [if_neg fun h => hhigh h.2]
      have hout : ¬j - width * (7 - slot) < width := by omega
      simp [hj, hout]
  · rw [if_neg fun h => hlow h.1]
    simp [hj, Nat.lt_of_not_le hlow]

end Sys2Proof.Machine

end


section
/-! PROOF. The layouts of SUMMARY and DETAIL, and field marks as a whole (R14, R25, R34 to R36, R170, R171, R175). -/

namespace Sys2Proof.Machine

/-! ## The two reports -/

theorem FlagSet.any_eq (fs mask : FlagSet) : FlagSet.any fs mask = decide (fs &&& mask ≠ 0) := by
  simp [FlagSet.any, bne, BEq.beq]

/-- The layout of the summary byte (R170). -/
theorem summaryByte_layout (s : State) :
    (summaryByte s).getLsbD 7 = decide (s.stat.flags = 0)
      ∧ (summaryByte s).extractLsb' 3 4 = BitVec.ofNat 4 (guardCode s.grd.state)
      ∧ (summaryByte s).getLsbD 2 = decide (s.stat.flags &&& 0b111111000000#12 ≠ 0)
      ∧ (summaryByte s).getLsbD 1 = decide (s.stat.flags &&& 0b000000111000#12 ≠ 0)
      ∧ (summaryByte s).getLsbD 0 = decide (s.stat.flags &&& 0b000000000111#12 ≠ 0) := by
  unfold summaryByte
  refine ⟨?_, ?_, ?_, ?_, ?_⟩
  · simp only [BitVec.getLsbD_append]
    simp
    rfl
  · rw [BitVec.extractLsb'_append_eq_of_le (by decide), BitVec.extractLsb'_append_eq_of_le (by decide),
      BitVec.extractLsb'_append_eq_of_le (by decide)]
    exact BitVec.extractLsb'_append_eq_right
  · simp only [BitVec.getLsbD_append]
    simp [FlagSet.any_eq, flagGroupLineRoster]
  · simp only [BitVec.getLsbD_append]
    simp [FlagSet.any_eq, flagGroupTable]
  · simp only [BitVec.getLsbD_append]
    simp [FlagSet.any_eq, flagGroupMedia]

/-- The memos of the eight entries, entry 0 first (R171). -/
theorem memoBits_layout (memos : Vector Nat 8) (e : EntryNo) :
    (memoBits memos).extractLsb' (56 - 8 * e.val) 8 = BitVec.ofNat 8 (memos.get e) := by
  unfold memoBits
  match e with
  | 0 =>
    simp (disch := decide) only [BitVec.extractLsb'_append_eq_of_le]
    exact BitVec.extractLsb'_eq_self
  | 7 => exact BitVec.extractLsb'_append_eq_right
  | 1 | 2 | 3 | 4 | 5 | 6 =>
    simp (disch := decide) only [BitVec.extractLsb'_append_eq_of_le]
    exact BitVec.extractLsb'_append_eq_right

/-- The layout of the DETAIL report (R171, R175). -/
theorem detailReport_layout (s : State) :
    (detailReport s).getLsbD 159 = false
      ∧ (detailReport s).extractLsb' 147 12 = s.stat.flags
      ∧ (detailReport s).extractLsb' 140 7 = BitVec.ofNat 7 s.tal.tally
      ∧ (detailReport s).extractLsb' 137 3 = BitVec.ofNat 3 (phaseCode s.wipe.journal.phase)
      ∧ (detailReport s).extractLsb' 134 3 = BitVec.ofNat 3 (causeCode s.wipe.journal.cause)
      ∧ (detailReport s).extractLsb' 127 7 = BitVec.ofNat 7 s.wipe.journal.nextExtent
      ∧ (detailReport s).extractLsb' 120 7 = BitVec.ofNat 7 s.wipe.journal.bad.length
      ∧ (detailReport s).extractLsb' 108 12 = BitVec.ofNat 12 (holdSeconds s)
      ∧ (detailReport s).extractLsb' 92 16 = s.cred.liveStamp
      ∧ (detailReport s).extractLsb' 84 8 = s.pol.armed
      ∧ (detailReport s).getLsbD 83 = s.pol.table.faultDisarm ∧ (detailReport s).getLsbD 82 = s.pol.table.frozen
      ∧ (detailReport s).extractLsb' 66 16 = s.pol.table.check
      ∧ (∀ e : EntryNo, (detailReport s).extractLsb' (58 - 8 * e.val) 8 = BitVec.ofNat 8 (s.pol.memos.get e))
      ∧ (detailReport s).extractLsb' 0 2 = 0#2 := by
  unfold detailReport
  refine ⟨?top, ?_, ?_, ?_, ?_, ?_, ?_, ?_, ?_, ?_, ?disarm, ?frozen, ?_, fun e => ?memos,
    BitVec.extractLsb'_append_eq_right⟩
  case top | disarm | frozen =>
    simp only [BitVec.getLsbD_append]
    simp
  case memos =>
    have hstart : 58 - 8 * e.val - 2 = 56 - 8 * e.val := by omega
    rw [BitVec.extractLsb'_append_eq_of_le (by omega), BitVec.extractLsb'_append_eq_of_add_le (by omega), hstart,
      memoBits_layout]
  all_goals
    simp (disch := decide) only [BitVec.extractLsb'_append_eq_of_le]
    exact BitVec.extractLsb'_append_eq_right

/-! ## The marks -/

/-- A section's mark that stands moves on 64 bits (R25). -/
theorem exec_fieldMark_section {s : State} {r : RoundRec} {f : Field} {b : Nat} {level : Level} (hs : Settled s)
    (hin : InRound s r (.inField f b)) (hstands : s.markStands level = true) (hmore : b + 64 < fieldWidth f) :
    exec (.fieldMark level) s = .next { s with
      line := { s.line with
        pos := .inField f (b + 64)
        idleTimer := none
        stuckTimer := some (s.line.stuckTimer.getD (s.now + 50)) } } := by
  have hmarked : s.fieldMarked level = { s with
      line := { s.line with
        pos := .inField f (b + 64)
        idleTimer := none
        stuckTimer := some (s.line.stuckTimer.getD (s.now + 50)) } } := by
    unfold State.fieldMarked
    rw [hin.record, hin.pos]
    dsimp only
    rw [if_pos hmore, if_pos hstands]
    rfl
  show event (State.fieldMarked · level) s = _
  exact hs.event_eq hmarked (hs.inRound hs.notices rfl rfl (.of_eq rfl) hin.view)

/-- Outside its three fields nothing but the offer is fixed at a mark (R87, R91, R169). -/
theorem State.fixAtMark_nothing {s : State} {r : RoundRec} {f : Field}
    (h : f = .fingerprint ∨ f = .verdict ∨ f = .detail → r.answered = false
      ∨ (f = .fingerprint ∧ r.kind ≠ some .setcode) ∨ (f = .detail ∧ r.arg.toNat ≠ s.sup.stn.toNat)) :
    s.fixAtMark r f = s := by
  cases hans : r.answered with
  | false => exact State.fixAtMark_unanswered hans f
  | true =>
    by_cases hf : f = .fingerprint ∨ f = .verdict ∨ f = .detail
    · rcases h hf with ha | ⟨rfl, hkind⟩ | ⟨rfl, harg⟩
      · simp [hans] at ha
      · unfold State.fixAtMark
        split
        · rfl
        · split <;> simp_all
      · rw [State.fixAtMark_detail hans, if_neg harg]
    · unfold State.fixAtMark
      split
      · rfl
      · split <;> simp_all

/-- A mark that reads recessive to a station that does not drive it rejects the round (R25, R34, R36). -/
theorem exec_fieldMark_out {s : State} {r : RoundRec} {f : Field} (hin : InRound s r (.atMark f))
    (hopener : s.line.role ≠ .opener) (hcontender : s.line.role ≠ .contender) :
    ∃ t, exec (.fieldMark .recessive) s = .next t ∧ RejectedWith .badRound s t :=
  ⟨_, exec_fieldMark_recessive hin hopener hcontender,
    State.rejectRound_with (s := s) (u := { s with notices := [], line := s.line.turnRecessive s.now }) hin.record (by simp)
      rfl rfl rfl .badRound⟩

/-- Settles O33: marks that stand and marks that do not, what is driven in each field, and the two reports. -/
theorem marksFixOffersOrTruncate : Obligations.MarksFixOffersOrTruncate := by
  unfold Obligations.MarksFixOffersOrTruncate
  refine ⟨fun s r f level hs hin hstands hhold hfix => ?field, fun s r f b level hs hin hstands hmore =>
      exec_fieldMark_section hs hin ((s.markStands_iff level).2 hstands) hmore, fun s r f hin hopener hcontender => ?out,
    offerAt_frame, fun s r agreed hans hagreed => ?body, matchesSlot_iff,
    fun width slot j v hslot hwidth hj _ => slotOffer_bit hslot hwidth hj v,
    fun s => ⟨summaryByte_layout s, detailReport_layout s⟩⟩
  case field =>
    have hexec := exec_fieldMark_field hs hin ((s.markStands_iff level).2 hstands) hhold
    rw [State.fixAtMark_nothing hfix] at hexec
    exact hexec
  case out =>
    obtain ⟨t, hexec, round, flag, view, -, -, tally, notOpened, notAdmin, lock⟩ := exec_fieldMark_out hin hopener hcontender
    exact ⟨t, hexec, round, flag, view, notOpened, notAdmin, tally, lock⟩
  case body =>
    replace hagreed : agreed ↔ r.agreed = true := hagreed.trans r.agreed_iff.symm
    obtain ⟨hstored, hverdict, hverdictAgree⟩ := offerAt_verdict hans s
    refine ⟨offerAt_roll hans s, ⟨fun e hkind => (offerAt_check hans s hkind).1 e, fun hkind => (offerAt_check hans s hkind).2.1,
        fun hkind hag => ?_, fun hkind hag => ?_, hstored, ?_, fun hnot => ?_, fun e htakes he => ⟨fun i hi hlow => ?_, fun hnone => ?_⟩,
        hverdictAgree⟩,
      fun c hkind hc => ⟨(offerAt_setcode hans s hkind hc).1, ?_⟩, fun hkind hc => offerAt_setcode_none hans s hkind hc,
      offerAt_reports hans s⟩
    · rw [(offerAt_check hans s hkind).2.2, if_pos (hagreed.1 hag)]
    · rw [(offerAt_check hans s hkind).2.2, if_neg (mt hagreed.2 hag)]
    · rw [takesVerdict_iff, hagreed]
    · rw [hverdict, hnot]
      rfl
    · rw [hverdict, if_pos htakes, (verdictOf_eq he).1 i hi hlow]
    · rw [hverdict, if_pos htakes, (verdictOf_eq he).2 hnone]
    · rw [(offerAt_setcode hans s hkind hc).2, changeAcceptable_iff]

end Sys2Proof.Machine

end


section
/-! PROOF. Firings, inputs and actions of the policy triggers (R115 to R121). -/

namespace Sys2Proof.Machine

/-! ## Firings -/

theorem State.runAction_entry (s : State) (e l : EntryNo) : (s.runAction e).entry l = s.entry l := by
  simp [State.entry]

/-- The links of an entry that run, by the table and the armed entries in force (R117). -/
theorem linksRun_runAction (s : State) (e : EntryNo) :
    linksRun (s.runAction e) e
      = entryNumbers.filter fun l => l != e && inEntries (s.entry e).links l && inEntries s.pol.armed l := by
  unfold linksRun
  simp only [State.runAction_entry]
  simp

theorem State.fire_unarmed {s : State} {e : EntryNo} (h : inEntries s.pol.armed e = false) : s.fire e = s :=
  if_neg (by simp [h])

theorem State.fire_armed {s : State} {e : EntryNo} (h : inEntries s.pol.armed e = true) :
    s.fire e = ((linksRun (s.runAction e) e).foldl State.runAction (s.runAction e)).disarm
      (onceOf s (e :: linksRun (s.runAction e) e)) :=
  if_pos h

/-- The entries of a list that are marked ONCE (R117). -/
theorem inEntries_onceOf (s : State) (es : List EntryNo) (l : EntryNo) :
    inEntries (onceOf s es) l = (decide (l ∈ es) && !(s.entry l).repeats) := by
  have hcollect := inEntries_collect_onto (fun l => !(s.entry l).repeats) l es 0
  have hfold : onceOf s es = es.foldl (fun v l => if (!(s.entry l).repeats) = true then v ||| entryBit l else v) 0 := by
    unfold onceOf
    congr 1
    funext v l
    cases (s.entry l).repeats <;> rfl
  rw [hfold, hcollect]
  simp [inEntries]

/-- The entries that run are e and its armed links; those marked ONCE are disarmed, and no other (R117). -/
theorem State.fire_disarms {s : State} {e : EntryNo} (h : inEntries s.pol.armed e = true) (l : EntryNo) :
    inEntries (s.fire e).pol.armed l
      = (inEntries s.pol.armed l && ((s.entry l).repeats || !(l == e || inEntries (s.entry e).links l))) := by
  have hmem : l ∈ e :: linksRun (s.runAction e) e
      ↔ l = e ∨ (l ≠ e ∧ inEntries (s.entry e).links l = true ∧ inEntries s.pol.armed l = true) := by
    rw [linksRun_runAction]
    simp [mem_entryNumbers, and_assoc]
  have harmed : ∀ v : BitVec 8, inEntries (s.pol.armed &&& ~~~v) l = (inEntries s.pol.armed l && !inEntries v l) := by
    intro v
    simp [inEntries, l.isLt]
  rw [State.fire_armed h, State.disarm_armed]
  simp only [foldl_runAction_inner, State.runAction_inner]
  rw [harmed, inEntries_onceOf]
  by_cases hl : l = e
  · subst hl
    simp
  · cases hlinks : inEntries (s.entry e).links l <;> cases hon : inEntries s.pol.armed l <;> simp [hmem, hl, hlinks, hon]

theorem State.fire_runs {s : State} {e : EntryNo} (h : inEntries s.pol.armed e = true) :
    ∃ once, s.fire e = ((entryNumbers.filter fun l => l != e && inEntries (s.entry e).links l
      && inEntries s.pol.armed l).foldl State.runAction (s.runAction e)).disarm once :=
  ⟨_, by rw [State.fire_armed h, linksRun_runAction]⟩

/-! ## Inputs -/

/-- The last condition values after an input, entry by entry (R116). -/
theorem inEntries_lastAfterNotice (s : State) (n : Notice) (e : EntryNo) :
    inEntries (lastAfterNotice s n) e = lastAfter n (entryBehaviour (s.entry e)).1 (inEntries s.pol.last e) :=
  inEntries_collect _ e

theorem State.takeNotice_last {s : State} {n : Notice} (h : s.grd.state ≠ .strapFault) (hf : n ≠ .fault)
    (he : n ≠ .startingEnded) : (s.takeNotice n).pol.last = lastAfterNotice s n := by
  rw [State.takeNotice_fires h hf he]
  simp

theorem State.takeNotice_eq {s : State} {n : Notice} (h : s.grd.state ≠ .strapFault) (hf : n ≠ .fault)
    (he : n ≠ .startingEnded) :
    s.takeNotice n = (entryNumbers.filter fun e => raises n (entryBehaviour (s.entry e)).1 (inEntries s.pol.last e)).foldl
      State.fire { s with pol := { s.pol with last := (s.takeNotice n).pol.last } } := by
  rw [State.takeNotice_last h hf he]
  exact State.takeNotice_fires h hf he

/-- Entries that are not armed do nothing (R117). -/
theorem State.foldl_fire_unarmed {s : State} {l : List EntryNo} (h : ∀ e ∈ l, inEntries s.pol.armed e = false) :
    l.foldl State.fire s = s := by
  induction l with
  | nil => rfl
  | cons e l ih =>
    rw [List.foldl_cons, State.fire_unarmed (h e List.mem_cons_self)]
    exact ih fun x hx => h x (List.mem_cons_of_mem e hx)

/-- What raises a cause (R115, R116). -/
theorem raises_iff (n : Notice) (c : Cause) (last : Bool) : raises n c last = true ↔
    (∃ v k, n = .tally v ∧ c = .tallyAtLeast k ∧ last = false ∧ k ≤ v)
      ∨ (n = .peerLost true ∧ c = .peerLost ∧ last = false)
      ∨ (∃ g, n = .entered g ∧ c = .stateEnter g) ∨ (∃ t, n = .timer t ∧ c = .timer t)
      ∨ (n = .busRise ∧ c = .busRise) ∨ (n = .busFall ∧ c = .busFall) := by
  unfold raises
  split
  · simp
  · simp [and_comm]
  · next g g' =>
    rw [beq_iff_eq]
    exact ⟨fun h => .inr (.inr (.inl ⟨g, rfl, by rw [h]⟩)), fun h => Eq.symm (by simpa using h)⟩
  · next t t' =>
    rw [beq_iff_eq]
    exact ⟨fun h => .inr (.inr (.inr (.inl ⟨t, rfl, by rw [h]⟩))), fun h => Eq.symm (by simpa using h)⟩
  · simp
  · simp
  · next htally hpeer hentered htimer hrise hfall =>
    simp only [Bool.false_eq_true, false_iff, not_or, not_exists, not_and]
    exact ⟨fun v k hn hc => absurd hc (htally v k hn), fun hn hc => absurd hc (hpeer true hn),
      fun g hn hc => absurd hc (hentered g g hn), fun t hn hc => absurd hc (htimer t t hn), fun hn hc => absurd hc (hrise hn),
      fun hn hc => absurd hc (hfall hn)⟩

/-- A tally that raises no armed entry's cause moves the last values alone (R116). -/
theorem State.takeNotice_tally_quiet {s : State} {v : Nat} (h : s.grd.state ≠ .strapFault)
    (hquiet : ∀ (e : EntryNo) (k : Nat), inEntries s.pol.armed e = true → (entryBehaviour (s.entry e)).1 = .tallyAtLeast k →
      inEntries s.pol.last e = true ∨ v < k) :
    s.takeNotice (.tally v) = { s with pol := { s.pol with last := (s.takeNotice (.tally v)).pol.last } } := by
  refine (State.takeNotice_eq (n := .tally v) h nofun nofun).trans (State.foldl_fire_unarmed fun e he => ?_)
  have hraises := (List.mem_filter.1 he).2
  refine Bool.eq_false_iff.2 fun harmed => ?_
  rcases (raises_iff _ _ _).1 hraises with ⟨w, k, hw, hk, hlast, hle⟩ | ⟨hn, -⟩ | ⟨g, hn, -⟩ | ⟨t, hn, -⟩ | ⟨hn, -⟩ | ⟨hn, -⟩
  · cases hw
    rcases hquiet e k harmed hk with hset | hlt
    · simp [hlast] at hset
    · omega
  all_goals exact nomatch hn

end Sys2Proof.Machine

end


section
/-! PROOF. The actions of the policy triggers, and an event whose cause is the one armed entry's (R54, R115, R119 to R122). -/

namespace Sys2Proof.Machine

/-! ## Actions -/

/-- What an action does for its entry (R119 to R121). -/
def State.effectOf (s : State) (e : EntryNo) : Action → State
  | .nop => s
  | .hold n => s.holdRequest n
  | .lock => s.lockLocally.post .lock 2
  | .wipe => s.post .wipe 4
  | .startTimer t n => { s with pol := { s.pol with timers := s.pol.timers.set t.val (some (s.now + 1000 * n)) } }
  | .stopTimer t => { s with pol := { s.pol with timers := s.pol.timers.set t.val none } }
  | .pulse n => { s with grd := { s.grd with pulseTimer := some (s.now + 1000 * n) } }
  | .snapshot => { s with pol := { s.pol with memos := s.pol.memos.set e.val s.tal.tally } }

theorem State.runAction_of {s : State} {e : EntryNo} {a : Action} (h : (entryBehaviour (s.entry e)).2 = a) :
    s.runAction e = s.effectOf e a := by
  unfold State.runAction
  rw [h]
  cases a <;> rfl

/-- Only the two timer actions touch the policy timers (R120). -/
theorem State.runAction_timers {s : State} {e : EntryNo} (hstart : ∀ t n, (entryBehaviour (s.entry e)).2 ≠ .startTimer t n)
    (hstop : ∀ t, (entryBehaviour (s.entry e)).2 ≠ .stopTimer t) : (s.runAction e).pol.timers = s.pol.timers := by
  rw [State.runAction_of rfl]
  cases ha : (entryBehaviour (s.entry e)).2 with
  | startTimer t n => exact absurd ha (hstart t n)
  | stopTimer t => exact absurd ha (hstop t)
  | nop => rfl
  | hold n => simp [State.effectOf]
  | lock => simp [State.effectOf]
  | wipe => simp [State.effectOf]
  | pulse n => rfl
  | snapshot => rfl

/-- What each action leaves, as the statements name it (R119 to R121). -/
theorem State.runAction_taken {s : State} {e : EntryNo} {a : Action} (h : (entryBehaviour (s.entry e)).2 = a)
    (hstrap : s.grd.state ≠ .strapFault) : ActionTaken a e s s.now (s.runAction e) := by
  rw [State.runAction_of h]
  cases a with
  | nop => exact ⟨rfl, rfl, rfl⟩
  | hold n => exact s.holdRequest_heldUntil_request n
  | lock =>
    have hqueue : (s.lockLocally.post .lock 2).eng.queue = queuePost .lock 2 s.lockLocally.eng.queue :=
      State.post_queue _ _ _ (s.lockLocally_not_strapFault hstrap)
    obtain ⟨x, hx, -⟩ := queueFind_queuePost_arg .lock 2 s.lockLocally.eng.queue
    have hstate : (s.lockLocally.post .lock 2).grd.state = s.lockLocally.grd.state := by simp
    have hclosed : s.lockLocally.grd.state ≠ .opened ∧ s.lockLocally.grd.state ≠ .admin := by
      rw [s.lockLocally_state]
      repeat' split
      all_goals simp_all
    refine ⟨hstate.trans_ne hclosed.1, hstate.trans_ne hclosed.2, ?_⟩
    show (queueFind .lock (s.lockLocally.post .lock 2).eng.queue).isSome = true
    rw [hqueue, hx]
    rfl
  | wipe =>
    have hqueue : (s.post .wipe 4).eng.queue = queuePost .wipe 4 s.eng.queue := State.post_queue _ _ _ hstrap
    obtain ⟨x, hx, -⟩ := queueFind_queuePost_arg .wipe 4 s.eng.queue
    show (queueFind .wipe (s.post .wipe 4).eng.queue).isSome = true
    rw [hqueue, hx]
    rfl
  | startTimer t n => simp [ActionTaken, State.effectOf, Vector.get_eq_getElem]
  | stopTimer t => simp [ActionTaken, State.effectOf, Vector.get_eq_getElem]
  | pulse n => rfl
  | snapshot => simp [ActionTaken, State.effectOf, Vector.get_eq_getElem]

/-! ## What the action left stays to the event's end -/

/-- The fields that tell whether an action was taken are the same. -/
structure SameEffects (s u : State) : Prop where
  state : u.grd.state = s.grd.state
  pulse : u.grd.pulseTimer = s.grd.pulseTimer
  deadline : u.tal.deadline = s.tal.deadline
  tally : u.tal.tally = s.tal.tally
  timers : u.pol.timers = s.pol.timers
  memos : u.pol.memos = s.pol.memos
  queue : u.eng.queue = s.eng.queue

theorem ActionTaken.congr {a : Action} {e : EntryNo} {s t u : State} {m : Nat} (h : ActionTaken a e s m t)
    (hsame : SameEffects t u) : ActionTaken a e s m u := by
  obtain ⟨state, pulse, deadline, -, timers, memos, queue⟩ := hsame
  cases a with
  | nop => exact ⟨pulse.trans h.1, timers.trans h.2.1, memos.trans h.2.2⟩
  | hold n =>
    obtain ⟨d, hd, hm⟩ := h
    exact ⟨d, deadline.trans hd, hm⟩
  | lock => exact ⟨state ▸ h.1, state ▸ h.2.1, queue ▸ h.2.2⟩
  | wipe =>
    show (queueFind .wipe u.eng.queue).isSome = true
    rw [queue]
    exact h
  | startTimer k n =>
    show u.pol.timers.get k = _
    rw [timers]
    exact h
  | stopTimer k =>
    show u.pol.timers.get k = _
    rw [timers]
    exact h
  | pulse n => exact pulse.trans h
  | snapshot =>
    show u.pol.memos.get e = _
    rw [memos]
    exact h

/-- But for NOP only the tally at the start tells of the action. -/
theorem ActionTaken.of_tally {a : Action} {e : EntryNo} {s s' t : State} {m : Nat} (h : ActionTaken a e s m t)
    (hnop : a ≠ .nop) (htally : s'.tal.tally = s.tal.tally) : ActionTaken a e s' m t := by
  cases a with
  | nop => exact absurd rfl hnop
  | snapshot => exact (show _ = _ from h).trans htally.symm
  | hold n => exact h
  | lock => exact h
  | wipe => exact h
  | startTimer k n => exact h
  | stopTimer k => exact h
  | pulse n => exact h

/-- The one entry that may be armed behaves so, at a station that may act (R113, R127). -/
structure Alone (e : EntryNo) (c : Cause) (a : Action) (s : State) : Prop where
  strap : s.grd.state ≠ .strapFault
  only : ∀ l, inEntries s.pol.armed l = true → l = e
  behaves : entryBehaviour (s.entry e) = (c, a)

theorem Alone.congr {e : EntryNo} {c : Cause} {a : Action} {s u : State} (h : Alone e c a s) (hstate : u.grd.state ≠ .strapFault)
    (harmed : ∀ l, inEntries u.pol.armed l = true → inEntries s.pol.armed l = true) (htable : u.pol.table = s.pol.table) :
    Alone e c a u where
  strap := hstate
  only l hl := h.only l (harmed l hl)
  behaves := by
    unfold State.entry
    rw [htable]
    exact h.behaves

/-- The one entry's firing runs its action alone, and disarms it or not (R117). -/
theorem Alone.fire {e : EntryNo} {c : Cause} {a : Action} {s : State} (h : Alone e c a s)
    (harmed : inEntries s.pol.armed e = true) : ∃ once, s.fire e = (s.runAction e).disarm once := by
  obtain ⟨once, hfire⟩ := State.fire_runs harmed
  refine ⟨once, ?_⟩
  have hnone : (entryNumbers.filter fun l => l != e && inEntries (s.entry e).links l && inEntries s.pol.armed l) = [] := by
    refine List.filter_eq_nil_iff.2 fun l _ hl => ?_
    simp only [Bool.and_eq_true, bne_iff_ne] at hl
    exact hl.1.1 (h.only l hl.2)
  rwa [hnone] at hfire

theorem State.runAction_not_strapFault {s : State} (h : s.grd.state ≠ .strapFault) (e : EntryNo) :
    (s.runAction e).grd.state ≠ .strapFault := by
  rcases s.runAction_cases e with hr | ⟨n, hr⟩ | hr | hr | ⟨n, hr⟩ | ⟨p, -, -, hr⟩ <;> rw [hr]
  · exact h
  · rcases s.holdRequest_state n with hs | ⟨-, hs⟩ <;> rw [hs]
    · exact h
    · simp
  · simpa using s.lockLocally_not_strapFault h
  · simpa using h
  · exact h
  · exact h

/-- An event in which one entry may fire: its moment, the tally it began with, and the notices to be taken. -/
structure InEvent (e : EntryNo) (c : Cause) (a : Action) (s : State) (m : Nat) (u : State) : Prop where
  now : u.now = m
  tally : u.tal.tally = s.tal.tally
  alone : Alone e c a u
  started : Notice.startingEnded ∉ u.notices
  idle : a = .nop → ActionTaken .nop e s m u

namespace InEvent

variable {e : EntryNo} {c : Cause} {a : Action} {s u v : State} {m : Nat}

/-- A change of the policy block's armed and last values, and of the notices, leaves the event where it is. -/
theorem congr (h : InEvent e c a s m u) (hnow : v.now = u.now) (hsame : SameEffects u v)
    (harms : ArmsNothing u v) (htable : v.pol.table = u.pol.table) : InEvent e c a s m v where
  now := hnow.trans h.now
  tally := hsame.tally.trans h.tally
  alone := h.alone.congr (hsame.state ▸ h.alone.strap) harms.armed htable
  started := harms.quiet h.started
  idle ha := (h.idle ha).congr hsame

theorem runAction (h : InEvent e c a s m u) : InEvent e c a s m (u.runAction e) where
  now := by simpa using h.now
  tally := by simpa using h.tally
  alone := h.alone.congr (u.runAction_not_strapFault h.alone.strap e) (ArmsNothing.runAction u e).armed (by simp)
  started := (ArmsNothing.runAction u e).quiet h.started
  idle ha := by
    have hnop : u.runAction e = u := State.runAction_of (a := .nop) (by rw [h.alone.behaves, ha])
    rw [hnop]
    exact h.idle ha

/-- The entry's action, run in the event, is taken. -/
theorem taken (h : InEvent e c a s m u) : ActionTaken a e s m (u.runAction e) := by
  by_cases ha : a = .nop
  · subst ha
    exact h.runAction.idle rfl
  · have htaken := State.runAction_taken (congrArg Prod.snd h.alone.behaves) h.alone.strap
    rw [h.now] at htaken
    exact htaken.of_tally ha h.tally.symm

end InEvent

theorem SameEffects.disarm (s : State) (set : BitVec 8) : SameEffects s (s.disarm set) := ⟨rfl, rfl, rfl, rfl, rfl, rfl, rfl⟩

/-- The entry's action has been taken in the event. -/
structure Acted (e : EntryNo) (c : Cause) (a : Action) (s : State) (m : Nat) (u : State) : Prop extends
    InEvent e c a s m u where
  acted : ActionTaken a e s m u

/-- The armed entry's firing in the event takes its action (R117). -/
theorem InEvent.fire {e : EntryNo} {c : Cause} {a : Action} {s u : State} {m : Nat} (h : InEvent e c a s m u)
    (harmed : inEntries u.pol.armed e = true) : Acted e c a s m (u.fire e) := by
  obtain ⟨once, hfire⟩ := h.alone.fire harmed
  rw [hfire]
  exact ⟨h.runAction.congr rfl (.disarm _ _) (.disarm _ _) rfl, h.taken.congr (.disarm _ _)⟩

namespace Acted

variable {e : EntryNo} {c : Cause} {a : Action} {s u v : State} {m : Nat}

theorem congr (h : Acted e c a s m u) (hnow : v.now = u.now) (hsame : SameEffects u v)
    (harms : ArmsNothing u v) (htable : v.pol.table = u.pol.table) : Acted e c a s m v :=
  ⟨h.toInEvent.congr hnow hsame harms htable, h.acted.congr hsame⟩

/-- No firing undoes the action. -/
theorem fire (h : Acted e c a s m u) (l : EntryNo) : Acted e c a s m (u.fire l) := by
  cases harmed : inEntries u.pol.armed l with
  | false => rwa [State.fire_unarmed harmed]
  | true =>
    have hl := h.alone.only l harmed
    subst hl
    exact h.toInEvent.fire harmed

theorem foldl_fire (l : List EntryNo) (h : Acted e c a s m u) : Acted e c a s m (l.foldl State.fire u) := by
  induction l generalizing u with
  | nil => exact h
  | cons x l ih => exact ih (h.fire x)

theorem takeNotice (h : Acted e c a s m u) {n : Notice} (hn : n ≠ .startingEnded) : Acted e c a s m (u.takeNotice n) := by
  by_cases hf : n = .fault
  · have harms := ArmsNothing.takeNotice u hn
    subst hf
    refine h.congr ?_ ?_ harms ?_
    all_goals
      simp only [State.takeNotice, if_neg h.alone.strap, State.faultDisarm]
      split
    · rfl
    · rfl
    · exact ⟨rfl, rfl, rfl, rfl, rfl, rfl, rfl⟩
    · exact ⟨rfl, rfl, rfl, rfl, rfl, rfl, rfl⟩
    · rfl
    · rfl
  · rw [State.takeNotice_fires h.alone.strap hf hn]
    exact (h.congr (v := { u with pol := { u.pol with last := lastAfterNotice u n } }) rfl ⟨rfl, rfl, rfl, rfl, rfl, rfl, rfl⟩
      ⟨fun _ h => h, id⟩ rfl).foldl_fire _

theorem dropNotices (h : Acted e c a s m u) {l : List Notice} (hl : Notice.startingEnded ∉ l) :
    Acted e c a s m { u with notices := l } :=
  h.congr rfl ⟨rfl, rfl, rfl, rfl, rfl, rfl, rfl⟩ ⟨fun _ h => h, fun _ => hl⟩ rfl

theorem drainNotices (h : Acted e c a s m u) (n : Nat) : Acted e c a s m (drainNotices n u) := by
  induction n generalizing u with
  | zero => exact h.dropNotices (by simp)
  | succ n ih =>
    cases hnotices : u.notices with
    | nil => rwa [drainNotices_nil _ _ hnotices]
    | cons x xs =>
      have hstarted := h.started
      rw [hnotices, List.mem_cons, not_or] at hstarted
      rw [drainNotices_cons _ _ _ _ hnotices]
      exact ih ((h.dropNotices hstarted.2).takeNotice (Ne.symm hstarted.1))

end Acted

end Sys2Proof.Machine

end


section
/-! PROOF. An event whose cause is the one armed entry's takes its action (R54, R115, R118, R122). -/

namespace Sys2Proof.Machine

/-- Level conditions aside an input leaves the last condition values (R116). -/
theorem lastAfterNotice_entered (s : State) (g : GuardState) : lastAfterNotice s (.entered g) = s.pol.last := by
  refine entries_ext fun e => ?_
  rw [lastAfterNotice, inEntries_collect]
  rfl

/-- A guard state that is no armed entry's cause is nothing to the triggers. -/
theorem Alone.takeNotice_entered {e : EntryNo} {c : Cause} {a : Action} {u : State} (h : Alone e c a u) {g : GuardState}
    (hg : c ≠ .stateEnter g) : u.takeNotice (.entered g) = u := by
  rw [State.takeNotice_fires (n := .entered g) h.strap nofun nofun, lastAfterNotice_entered]
  refine State.foldl_fire_unarmed fun x hx => Bool.eq_false_iff.2 fun harmed => ?_
  have hraises := (List.mem_filter.1 hx).2
  rw [h.only x harmed, h.behaves] at hraises
  simp only [raises_iff, reduceCtorEq, false_and, exists_false, Notice.entered.injEq, false_or, or_false] at hraises
  obtain ⟨g', rfl, hc⟩ := hraises
  exact hg hc

namespace InEvent

variable {e : EntryNo} {c : Cause} {a : Action} {s u : State} {m : Nat}

theorem dropNotices (h : InEvent e c a s m u) {l : List Notice} (hl : Notice.startingEnded ∉ l) :
    InEvent e c a s m { u with notices := l } :=
  h.congr rfl ⟨rfl, rfl, rfl, rfl, rfl, rfl, rfl⟩ ⟨fun _ h => h, fun _ => hl⟩ rfl

/-- The armed entry is among those that fire. -/
theorem foldl_fire {l : List EntryNo} (h : InEvent e c a s m u) (harmed : inEntries u.pol.armed e = true) (hl : e ∈ l) :
    Acted e c a s m (l.foldl State.fire u) := by
  induction l with
  | nil => simp at hl
  | cons x l ih =>
    rw [List.foldl_cons]
    by_cases hx : x = e
    · subst hx
      exact (h.fire harmed).foldl_fire l
    · have hunarmed : inEntries u.pol.armed x = false := Bool.eq_false_iff.2 fun hon => hx (h.alone.only x hon)
      rw [State.fire_unarmed hunarmed]
      exact ih ((List.mem_cons.1 hl).resolve_left (Ne.symm hx))

/-- An input of the entry's cause takes its action. -/
theorem takeNotice {n : Notice} (h : InEvent e c a s m u) (harmed : inEntries u.pol.armed e = true)
    (hraises : raises n c (inEntries u.pol.last e) = true) : Acted e c a s m (u.takeNotice n) := by
  have hf : n ≠ .fault := by
    rintro rfl
    exact nomatch hraises
  have he : n ≠ .startingEnded := by
    rintro rfl
    exact nomatch hraises
  rw [State.takeNotice_fires h.alone.strap hf he]
  refine foldl_fire (u := { u with pol := { u.pol with last := lastAfterNotice u n } })
    (h.congr rfl ⟨rfl, rfl, rfl, rfl, rfl, rfl, rfl⟩ ⟨fun _ h => h, id⟩ rfl) harmed ?_
  refine List.mem_filter.2 ⟨mem_entryNumbers e, ?_⟩
  rwa [h.alone.behaves]

/-- The inputs before it are guard states that are not its cause. -/
theorem drainNotices {before after : List Notice} {n : Notice} (h : InEvent e c a s m u)
    (harmed : inEntries u.pol.armed e = true) (hbefore : ∀ x ∈ before, ∃ g, x = .entered g ∧ c ≠ .stateEnter g)
    (hnotices : u.notices = before ++ n :: after) (hraises : raises n c (inEntries u.pol.last e) = true) {k : Nat}
    (hk : before.length < k) : Acted e c a s m (drainNotices k u) := by
  have hstarted := h.started
  induction before generalizing u k with
  | nil =>
    obtain ⟨k, rfl⟩ : ∃ j, k = j + 1 := ⟨k - 1, by simp at hk; omega⟩
    rw [hnotices, List.nil_append, List.mem_cons, not_or] at hstarted
    rw [drainNotices_cons _ _ _ _ hnotices]
    exact ((h.dropNotices hstarted.2).takeNotice harmed hraises).drainNotices k
  | cons x before ih =>
    obtain ⟨k, rfl⟩ : ∃ j, k = j + 1 := ⟨k - 1, by simp at hk; omega⟩
    rw [hnotices, List.cons_append, List.mem_cons, not_or] at hstarted
    obtain ⟨g, rfl, hg⟩ := hbefore x List.mem_cons_self
    have hdrop := h.dropNotices hstarted.2
    rw [drainNotices_cons _ _ _ _ hnotices]
    show Acted e c a s m (Machine.drainNotices k (State.takeNotice { u with notices := before ++ n :: after } (.entered g)))
    rw [hdrop.alone.takeNotice_entered hg]
    exact ih hdrop harmed (fun y hy => hbefore y (List.mem_cons_of_mem _ hy)) rfl hraises (by simpa using hk) hdrop.started

/-- The event ends with the entry's action taken. -/
theorem settle {before after : List Notice} {n : Notice} (h : InEvent e c a s m u)
    (harmed : inEntries u.pol.armed e = true) (hbefore : ∀ x ∈ before, ∃ g, x = .entered g ∧ c ≠ .stateEnter g)
    (hnotices : u.notices = before ++ n :: after) (hraises : raises n c (inEntries u.pol.last e) = true) :
    ActionTaken a e s m u.settle := by
  have hacted : Acted e c a s m u.drain :=
    h.drainNotices harmed hbefore hnotices hraises (by rw [hnotices, List.length_append]; omega)
  refine hacted.acted.congr ⟨?_, ?_, ?_, ?_, ?_, ?_, u.settle_queue⟩
  · rw [u.settle_grd]
  · rw [u.settle_grd]
  all_goals simp [State.settle]

end InEvent

/-- Entry e alone is armed (R54). -/
structure Lone (e : EntryNo) (c : Cause) (a : Action) (s : State) : Prop where
  strap : s.grd.state ≠ .strapFault
  armed : s.pol.armed = entryBit e
  behaves : entryBehaviour (s.entry e) = (c, a)

namespace Lone

variable {e : EntryNo} {c : Cause} {a : Action} {s u : State}

theorem armed_iff (h : Lone e c a s) (l : EntryNo) : inEntries s.pol.armed l = true ↔ l = e := by
  rw [h.armed, inEntries_entryBit]
  exact decide_eq_true_iff

/-- What the event's owners make of a station with one armed entry, before the triggers take its inputs. -/
theorem inEvent (h : Lone e c a s) (hstrap : u.grd.state ≠ .strapFault) (hpol : u.pol = s.pol)
    (htally : u.tal.tally = s.tal.tally) (hpulse : u.grd.pulseTimer = s.grd.pulseTimer)
    (hn : Notice.startingEnded ∉ u.notices) : InEvent e c a s u.now u where
  now := rfl
  tally := htally
  alone := ⟨hstrap, fun l hl => (h.armed_iff l).1 (hpol ▸ hl), by
    unfold State.entry
    rw [hpol]
    exact h.behaves⟩
  started := hn
  idle _ := ⟨hpulse, congrArg Policy.timers hpol, congrArg Policy.memos hpol⟩

/-- Its cause among the event's inputs, after guard states that are not its cause, takes its action. -/
theorem settle {before after : List Notice} {n : Notice} (h : Lone e c a s) (hstrap : u.grd.state ≠ .strapFault)
    (hpol : u.pol = s.pol) (htally : u.tal.tally = s.tal.tally) (hpulse : u.grd.pulseTimer = s.grd.pulseTimer)
    (hn : Notice.startingEnded ∉ u.notices) (hbefore : ∀ x ∈ before, ∃ g, x = .entered g ∧ c ≠ .stateEnter g)
    (hnotices : u.notices = before ++ n :: after) (hraises : raises n c (inEntries s.pol.last e) = true) :
    ActionTaken a e s u.now u.settle :=
  (h.inEvent hstrap hpol htally hpulse hn).settle (by rw [hpol]; exact (h.armed_iff e).2 rfl) hbefore hnotices
    (by rw [hpol]; exact hraises)

end Lone

/-! ## A policy timer -/

theorem Lone.timerExpiry {e : EntryNo} {n : TimerNo} {a : Action} {s : State} {t : Nat} (h : Lone e (.timer n) a s)
    (ht : s.pol.timers.get n = some t) : ∃ u, exec (.policyTimerExpiry n) s = .next u
      ∧ if a = .nop then u.pol.timers = s.pol.timers.set n.val none else ActionTaken a e s (max s.now t) u := by
  have hexec : exec (.policyTimerExpiry n) s
      = .next ((({ s with notices := [] } : State).timerOut n t).note (.timer n)).settle :=
    exec_policyTimerExpiry (s := { s with notices := [] }) rfl ht
  have hlone : Lone e (.timer n) a (({ s with notices := [] } : State).timerOut n t) := ⟨h.strap, h.armed, h.behaves⟩
  have htaken := hlone.settle (u := (({ s with notices := [] } : State).timerOut n t).note (.timer n)) (before := [])
    (after := []) (n := .timer n) h.strap rfl rfl rfl (by simp [State.timerOut]) (by simp) rfl (by simp [raises])
  refine ⟨_, hexec, ?_⟩
  split
  · next ha =>
    subst ha
    exact htaken.2.1
  · next ha => exact htaken.of_tally ha rfl

/-! ## A hold's deadline -/

theorem Lone.holdDeadline {e : EntryNo} {a : Action} {s : State} {d : Nat} (h : Lone e (.stateEnter .locked) a s)
    (hheld : s.grd.state = .held) (hd : s.tal.deadline = some d) :
    ∃ u, exec .holdDeadlineReached s = .next u ∧ ActionTaken a e s (max s.now d) u := by
  have hexec : exec .holdDeadlineReached s
      = .next ((({ s with notices := [] } : State).holdOver d).setGuard .locked).settle :=
    (exec_holdDeadlineReached (s := { s with notices := [] }) rfl hd).trans (by rw [if_pos hheld])
  have hnotices : ((({ s with notices := [] } : State).holdOver d).setGuard .locked).notices = [.entered .locked] := by
    rw [State.setGuard_notices (by simp [State.holdOver, hheld])]
    rfl
  have hnow : ((({ s with notices := [] } : State).holdOver d).setGuard .locked).now = max s.now d := by simp [State.holdOver]
  refine ⟨_, hexec, hnow ▸ ?_⟩
  refine h.settle (before := []) (after := []) (n := .entered .locked) (by simp) (by simp [State.holdOver])
    (by simp [State.holdOver]) (by simp [State.holdOver]) (by simp [hnotices]) (by simp) hnotices (by simp [raises])

/-! ## Bus power -/

/-- The inputs that a part of an event adds are guard states entered. -/
def AddsEntered (s u : State) : Prop := ∃ l, u.notices = s.notices ++ l ∧ ∀ x ∈ l, ∃ g, x = Notice.entered g

namespace AddsEntered

variable {s u v : State}

theorem of_same (h : u.notices = s.notices) : AddsEntered s u := ⟨[], by simp [h], by simp⟩

theorem trans (h : AddsEntered s u) (h' : AddsEntered u v) : AddsEntered s v := by
  obtain ⟨l, hl, hentered⟩ := h
  obtain ⟨l', hl', hentered'⟩ := h'
  refine ⟨l ++ l', by rw [hl', hl, List.append_assoc], fun x hx => ?_⟩
  exact (List.mem_append.1 hx).elim (hentered x) (hentered' x)

theorem setGuard (s : State) (g : GuardState) : AddsEntered s (s.setGuard g) := by
  by_cases hg : s.grd.state = g
  · exact .of_same (by rw [State.setGuard_self hg])
  · exact ⟨[.entered g], State.setGuard_notices hg, by simp⟩

theorem endClosing (s : State) : AddsEntered s s.endClosing := setGuard _ _

theorem drained (s : State) : AddsEntered s s.drained := by
  unfold State.drained
  split
  · exact endClosing s
  · exact .of_same rfl

theorem lockLocally (s : State) : AddsEntered s s.lockLocally := by
  have hclosing : AddsEntered s (({ s with grd := { s.grd with batteryTimer := none } } : State).setGuard .closing) :=
    setGuard { s with grd := { s.grd with batteryTimer := none } } .closing
  unfold State.lockLocally
  split
  · dsimp only
    split
    · exact hclosing.trans (drained _)
    · exact hclosing
  · exact .of_same rfl

end AddsEntered

theorem State.drained_not_strapFault {s : State} (h : s.grd.state ≠ .strapFault) : s.drained.grd.state ≠ .strapFault := by
  unfold State.drained
  split
  · rw [s.endClosing_state]
    split <;> simp
  · exact h

/-- A flag that is none of the four is nothing to the triggers (R125). -/
theorem State.setFlag_notices {s : State} {f : Flag} (h : FlagSet.any f.mask disarmingFlags = false) :
    (s.setFlag f).notices = s.notices := by
  unfold State.setFlag
  rw [h]
  rfl

/-- What the gate and the wipe engine do at a fall leaves the rest of the station. -/
theorem State.fallTaken_kept (s : State) :
    s.fallTaken.notices = s.notices ∧ s.fallTaken.now = s.now ∧ s.fallTaken.pol = s.pol ∧ s.fallTaken.tal = s.tal
      ∧ s.fallTaken.grd = s.grd := by
  by_cases hlost : s.gate.outstanding = []
  · simp [State.fallTaken, hlost]
  · simp [State.fallTaken, hlost, State.setFlag_notices (f := .abandoned) rfl]

theorem Lone.busFalls {e : EntryNo} {a : Action} {s : State} (h : Lone e .busFall a s) (hbus : s.sup.state = .bus)
    (cause : FallCause) : ∃ u, exec (.busPowerFall cause) s = .next u ∧ ActionTaken a e s s.now u := by
  refine ⟨_, exec_busPowerFall hbus cause, ?_⟩
  generalize hp : fallPins cause s.pins = p
  generalize hv : ({ s with notices := [], pins := p } : State) = v
  have hnil : v.notices = [] := by simp [← hv]
  obtain ⟨l, hl, hentered⟩ : AddsEntered v v.fallTaken.drained.lockLocally :=
    ((AddsEntered.of_same v.fallTaken_kept.1).trans (.drained _)).trans (.lockLocally _)
  have hnotices : v.busFall.notices = l ++ .busFall :: [] := by
    rw [State.busFall_eq]
    simp [hl, hnil]
  obtain ⟨hnone, hnow, hpol, htal, hgrd⟩ := v.fallTaken_kept
  have hbase : v.now = s.now ∧ v.pol = s.pol ∧ v.tal = s.tal ∧ v.grd = s.grd := by simp [← hv]
  have hstrap : v.fallTaken.drained.lockLocally.grd.state ≠ .strapFault := by
    refine State.lockLocally_not_strapFault (State.drained_not_strapFault ?_)
    rw [hgrd, hbase.2.2.2]
    exact h.strap
  have hmoment : v.busFall.now = s.now := by simp [State.busFall_eq, hnow, hbase]
  rw [← hmoment]
  refine h.settle ?_ ?_ ?_ ?_ ?_ (fun x hx => ?_) hnotices (by simp [raises])
  · simpa [State.busFall_eq] using hstrap
  · simp [State.busFall_eq, hpol, hbase]
  · simp [State.busFall_eq, htal, hbase]
  · simp [State.busFall_eq, hgrd, hbase]
  · rw [hnotices]
    intro hx
    obtain ⟨g, hg⟩ := hentered _ ((List.mem_append.1 hx).resolve_right (by simp))
    exact nomatch hg
  · obtain ⟨g, hg⟩ := hentered x hx
    exact ⟨g, hg, nofun⟩

theorem Lone.busRises {e : EntryNo} {a : Action} {s : State} (h : Lone e .busRise a s) (hbattery : s.sup.state = .battery)
    (hpfw : s.pins.pfw = false) : ∃ u, exec (.busPowerRise .senseAppeared) s = .next u ∧ ActionTaken a e s s.now u := by
  refine ⟨_, exec_busPowerRise (cause := .senseAppeared) hbattery hpfw, ?_⟩
  generalize hp : ({ s.pins with busSense := true, pfw := false } : Pins) = p
  generalize hv : ({ s with notices := [], pins := p } : State) = v
  have hbase : v.notices = [] ∧ v.now = s.now ∧ v.pol = s.pol ∧ v.tal = s.tal ∧ v.grd = s.grd := by simp [← hv]
  have hstep : v.riseStepped.notices = [] ∧ v.riseStepped.now = s.now ∧ v.riseStepped.pol = s.pol
      ∧ v.riseStepped.tal = s.tal ∧ v.riseStepped.grd = { s.grd with batteryTimer := none } := by
    simp [State.riseStepped, hbase]
  obtain ⟨hnone, hnow, hpol, htal, hgrd⟩ := hstep
  obtain ⟨sup, hrise⟩ : ∃ sup, v.busRise = ({ v.riseStepped with sup := sup } : State).note .busRise := by
    rw [State.busRise_eq]
    dsimp only
    split
    · exact ⟨_, rfl⟩
    · exact ⟨_, rfl⟩
  have hmoment : v.busRise.now = s.now := by simp [hrise, hnow]
  have hnotices : v.busRise.notices = [] ++ .busRise :: [] := by simp [hrise, hnone]
  rw [← hmoment]
  refine h.settle ?_ ?_ ?_ ?_ ?_ (by simp) hnotices (by simp [raises])
  · simpa [hrise, hgrd] using h.strap
  · simp [hrise, hpol]
  · simp [hrise, htal]
  · simp [hrise, hgrd]
  · simp [hnotices]

end Sys2Proof.Machine

end


section
/-! PROOF. A peer that reaches LOST_ROUNDS at a round's end, to the triggers (R54, R55, R116). -/

namespace Sys2Proof.Machine

theorem State.peerLost_iff (s : State) : s.peerLost = true ↔ ∃ i : Fin 8, s.eng.absence.get i = 3 := by
  unfold State.peerLost
  rw [List.any_eq_true]
  constructor
  · rintro ⟨n, hn, hlost⟩
    obtain ⟨i, hi, rfl⟩ := List.getElem_of_mem hn
    have hlt : i < 8 := by simpa using hi
    refine ⟨⟨i, hlt⟩, ?_⟩
    simpa [Config.lostRounds, Vector.get_eq_getElem] using hlost
  · rintro ⟨i, hi⟩
    refine ⟨s.eng.absence.get i, ?_, by simp [Config.lostRounds, hi]⟩
    refine List.mem_iff_getElem.2 ⟨i.val, by simp, ?_⟩
    simp [Vector.get_eq_getElem]

theorem AddsEntered.takeDueDeadline (s : State) : AddsEntered s s.takeDueDeadline := by
  rcases s.takeDueDeadline_cases with hd | ⟨-, -, -, hd⟩ <;> rw [hd]
  · exact .of_same rfl
  · exact setGuard { s with grd := { s.grd with holdDue := false } } .held

theorem State.endQueue_notices (s : State) (x : RoundRec) : (s.endQueue x).notices = s.notices := by
  unfold State.endQueue
  dsimp only
  split
  · rfl
  · exact State.setFlag_notices (f := .rollShort) rfl

/-- The record of a round in which the first peer is lost tells the triggers (R54, R55). -/
theorem State.recordRound_peerLost {s : State} {x : RoundRec} (hrecords : (x.answered && x.cls.any RoundClass.applies) = true)
    (hbefore : s.peerLost = false)
    (hafter : ({ s with eng := { s.eng with absence := countsAfter s.sup x.answer s.eng.absence } } : State).peerLost = true) :
    (s.recordRound x).notices = s.notices ++ [.peerLost true] := by
  generalize hu : ({ s with eng := { s.eng with absence := countsAfter s.sup x.answer s.eng.absence } } : State) = u at hafter
  have hflag : ∀ (c : Prop) [Decidable c], (if c then u.setFlag .peerLost else u).notices = s.notices
      ∧ (if c then u.setFlag .peerLost else u).peerLost = true := by
    intro c _
    split
    · rw [State.setFlag_notices (f := .peerLost) rfl, ← hu]
      refine ⟨rfl, ?_⟩
      rw [hu]
      simpa [State.peerLost] using hafter
    · exact ⟨by rw [← hu], hafter⟩
  unfold State.recordRound
  rw [if_pos hrecords]
  dsimp only
  rw [hu]
  obtain ⟨hnotices, hlost⟩ := hflag (reachesLost s.eng.absence (countsAfter s.sup x.answer s.eng.absence) = true)
  rw [hlost, hbefore, if_neg (by simp)]
  exact congrArg (· ++ [Notice.peerLost true]) hnotices

theorem Lone.losesPeer {e : EntryNo} {a : Action} {s : State} {r : RoundRec} {b : Nat} (h : Lone e .peerLost a s) (m : Slots)
    (i : Fin 8) (hin : InRound s r (.inField .accept b)) (hpart : r.part ≠ .rejected) (hans : r.answered = true)
    (hkind : r.kind = some .status) (habsence : ∀ j : Fin 8, s.eng.absence.get j < 3) (hroster : i.val < s.sup.roster)
    (hown : i.val ≠ s.sup.stn.toNat) (htwo : s.eng.absence.get i = 2) (hsilent : r.answer.getLsbD i.val = false)
    (hlast : inEntries s.pol.last e = false) : ∃ u, exec (.roundEnd m) s = .next u ∧ ActionTaken a e s s.now u := by
  have happlies := classifyRound_applies (r := r.takenBy s m) hpart hans s.sup
  have howners := State.ownersEnd_status (s := s.roundLeft m) (r := r.closedBy s m) happlies hkind
  refine ⟨_, exec_roundEnd_owners hin m howners, ?_⟩
  obtain ⟨-, hstn, hsize⟩ := s.roundLeft_sup m
  have hrecords : ((r.closedBy s m).answered && (r.closedBy s m).cls.any RoundClass.applies) = true := by
    simp [(r.closedBy_fields s m).2.2, hans, happlies]
  have hanswer : (r.closedBy s m).answer = r.answer := rfl
  generalize r.closedBy s m = x at hrecords hanswer
  generalize hv : (s.roundLeft m).endStatus x = v
  have hbase : v.notices = [] ∧ v.now = s.now ∧ v.pol = s.pol ∧ v.tal = s.tal ∧ v.grd = s.grd
      ∧ v.eng.absence = s.eng.absence ∧ v.sup.stn = s.sup.stn ∧ v.sup.roster = s.sup.roster := by
    simp [← hv, State.roundLeft_frame, hstn, hsize]
  obtain ⟨hnone, hnow, hpol, htal, hgrd, hcounts, hstn, hsize⟩ := hbase
  have hbefore : (v.takeDueDeadline.endQueue x).peerLost = false := by
    refine Bool.eq_false_iff.2 fun hlost => ?_
    obtain ⟨j, hj⟩ := (State.peerLost_iff _).1 hlost
    have := habsence j
    simp [hcounts] at hj
    omega
  have hnotices : (v.roundOver x).notices = v.takeDueDeadline.notices ++ .peerLost true :: [] := by
    rw [BitVec.getLsbD_eq_getElem i.isLt] at hsilent
    have hrecord := State.recordRound_peerLost hrecords hbefore ((State.peerLost_iff _).2 ⟨i, by
      simp [countsAfter_get, hcounts, hstn, hsize, hanswer, hsilent, htwo, hown, Nat.not_le.2 hroster]⟩)
    rw [State.endQueue_notices] at hrecord
    simpa [State.roundOver] using hrecord
  obtain ⟨l, hl, hentered⟩ := AddsEntered.takeDueDeadline v
  rw [hl, hnone, List.nil_append] at hnotices
  have hmoment : (v.roundOver x).now = s.now := by simp [hnow]
  rw [← hmoment]
  refine h.settle ?_ ?_ ?_ ?_ ?_ (fun y hy => (hentered y hy).imp fun g hg => ⟨hg, nofun⟩) hnotices (by simp [raises, hlast])
  · rw [State.roundOver_state]
    split
    · simp
    · rw [hgrd]
      exact h.strap
  · simp [hpol]
  · simp [htal]
  · simp [(v.roundOver_rest x).2.1, hgrd]
  · rw [hnotices]
    intro hy
    obtain ⟨g, hg⟩ := hentered _ ((List.mem_append.1 hy).resolve_right (by simp))
    exact nomatch hg

end Sys2Proof.Machine

end


section
/-! PROOF. The latch and the arm-at-start entries over an event (R123, R125, R126). -/

namespace Sys2Proof.Machine

/-! ## What the triggers hand on -/

namespace AddsEntered

theorem holdRequest (s : State) (n : Nat) : AddsEntered s (s.holdRequest n) := by
  rcases s.holdRequest_cases n with hr | ⟨tal, due, -, -, hr | ⟨-, hr⟩⟩ <;> rw [hr]
  · exact .of_same rfl
  · exact .of_same rfl
  · exact setGuard { s with tal := tal } .held

theorem runAction (s : State) (e : EntryNo) : AddsEntered s (s.runAction e) := by
  rcases s.runAction_cases e with hr | ⟨n, hr⟩ | hr | hr | ⟨n, hr⟩ | ⟨p, -, -, hr⟩ <;> rw [hr]
  · exact .of_same rfl
  · exact holdRequest s n
  · exact (lockLocally s).trans (.of_same (by simp))
  · exact .of_same (by simp)
  · exact .of_same rfl
  · exact .of_same rfl

/-- An input's actions hand on guard states alone (R118). -/
theorem takeNotice (s : State) (n : Notice) : AddsEntered s (s.takeNotice n) :=
  s.takeNotice_keeps (AddsEntered s) (fun u e h => h.trans (runAction u e)) (fun _ _ _ h => h.trans (.of_same rfl)) n
    (.of_same rfl)

end AddsEntered

/-! ## The latch -/

theorem State.takeNotice_strapFault {s : State} (h : s.grd.state = .strapFault) (n : Notice) : s.takeNotice n = s :=
  if_pos h

/-- Inputs other than a fault leave the latch (R125). -/
theorem State.takeNotice_latch {s : State} {n : Notice} (h : n ≠ .fault) : (s.takeNotice n).pol.latch = s.pol.latch := by
  by_cases hstrap : s.grd.state = .strapFault
  · rw [State.takeNotice_strapFault hstrap]
  · by_cases hstart : n = .startingEnded
    · subst hstart
      simp only [State.takeNotice, if_neg hstrap, State.armAtStart]
      split <;> rfl
    · rw [State.takeNotice_fires hstrap h hstart]
      simp

theorem State.drain_latch {s : State} (h : Notice.fault ∉ s.notices) : s.drain.pol.latch = s.pol.latch := by
  have hall : ∀ (k : Nat) (u : State), Notice.fault ∉ u.notices → (drainNotices k u).pol.latch = u.pol.latch := by
    intro k
    induction k with
    | zero => exact fun u _ => rfl
    | succ k ih =>
      intro u hu
      cases hnotices : u.notices with
      | nil => rw [drainNotices_nil _ _ hnotices]
      | cons x xs =>
        rw [hnotices, List.mem_cons, not_or] at hu
        rw [drainNotices_cons _ _ _ _ hnotices, ih, State.takeNotice_latch (Ne.symm hu.1)]
        obtain ⟨l, hl, hentered⟩ := AddsEntered.takeNotice { u with notices := xs } x
        rw [hl]
        intro hmem
        rcases List.mem_append.1 hmem with hmem | hmem
        · exact hu.2 hmem
        · obtain ⟨g, hg⟩ := hentered _ hmem
          exact nomatch hg
  exact hall _ s h

theorem State.settle_latch {s : State} (h : Notice.fault ∉ s.notices) : s.settle.pol.latch = s.pol.latch := by
  have hdrain := State.drain_latch h
  simpa [State.settle] using hdrain

/-- With the latch set no input arms an entry, and none clears the latch (R123). -/
theorem State.takeNotice_latched {s : State} (h : s.pol.latch = true) (n : Notice) : (s.takeNotice n).pol.latch = true
    ∧ ∀ e, inEntries (s.takeNotice n).pol.armed e = true → inEntries s.pol.armed e = true := by
  by_cases hstrap : s.grd.state = .strapFault
  · rw [State.takeNotice_strapFault hstrap]
    exact ⟨h, fun _ he => he⟩
  · by_cases hstart : n = .startingEnded
    · subst hstart
      simp only [State.takeNotice, if_neg hstrap, State.armAtStart, if_pos h]
      exact ⟨h, fun _ he => he⟩
    · refine ⟨?_, (ArmsNothing.takeNotice s hstart).armed⟩
      by_cases hfault : n = .fault
      · subst hfault
        simp only [State.takeNotice, if_neg hstrap, State.faultDisarm]
        split
        · rfl
        · exact h
      · rw [State.takeNotice_latch hfault, h]

theorem State.drain_latched {s : State} (h : s.pol.latch = true) {e : EntryNo} (he : inEntries s.drain.pol.armed e = true) :
    inEntries s.pol.armed e = true := by
  have hkept : s.drain.pol.latch = true ∧ ∀ e, inEntries s.drain.pol.armed e = true → inEntries s.pol.armed e = true :=
    s.drain_keeps (fun u => u.pol.latch = true ∧ ∀ e, inEntries u.pol.armed e = true → inEntries s.pol.armed e = true)
      (fun _ _ h => h) (fun u n ⟨hlatch, harmed⟩ =>
        ⟨(State.takeNotice_latched hlatch n).1, fun e he => harmed e ((State.takeNotice_latched hlatch n).2 e he)⟩)
      ⟨h, fun _ he => he⟩
  exact hkept.2 e he

/-! ## The arm-at-start entries -/

/-- A repeating arm-at-start entry at a station whose faults do not disarm. -/
structure ArmsAtStart (e : EntryNo) (s : State) : Prop where
  strap : s.grd.state ≠ .strapFault
  latch : s.pol.latch = false
  faults : s.pol.table.faultDisarm = false
  atStart : (s.entry e).armAtStart = true
  repeats : (s.entry e).repeats = true

theorem State.takeNotice_not_strapFault {s : State} (h : s.grd.state ≠ .strapFault) (n : Notice) :
    (s.takeNotice n).grd.state ≠ .strapFault :=
  s.takeNotice_keeps (fun u => u.grd.state ≠ .strapFault) (fun _ e h => State.runAction_not_strapFault h e) (fun _ _ _ h => h) n h

namespace ArmsAtStart

variable {e : EntryNo} {s u : State}

theorem congr (h : ArmsAtStart e s) (hstrap : u.grd.state ≠ .strapFault) (hlatch : u.pol.latch = s.pol.latch)
    (htable : u.pol.table = s.pol.table) : ArmsAtStart e u where
  strap := hstrap
  latch := hlatch.trans h.latch
  faults := htable ▸ h.faults
  atStart := by
    unfold State.entry
    rw [htable]
    exact h.atStart
  repeats := by
    unfold State.entry
    rw [htable]
    exact h.repeats

theorem takeNotice (h : ArmsAtStart e s) (n : Notice) : ArmsAtStart e (s.takeNotice n) := by
  refine h.congr (State.takeNotice_not_strapFault h.strap n) ?_ (by simp)
  by_cases hf : n = .fault
  · subst hf
    simp [State.takeNotice, h.strap, State.faultDisarm, h.faults]
  · exact State.takeNotice_latch hf

/-- No firing disarms it (R117). -/
theorem foldl_fire (h : (s.entry e).repeats = true) (l : List EntryNo) (harmed : inEntries s.pol.armed e = true) :
    inEntries (l.foldl State.fire s).pol.armed e = true := by
  induction l generalizing s with
  | nil => exact harmed
  | cons x l ih =>
    have htable : (s.fire x).entry e = s.entry e := by simp [State.entry]
    refine ih (by rwa [htable]) ?_
    cases hx : inEntries s.pol.armed x with
    | false => rwa [State.fire_unarmed hx]
    | true => rw [State.fire_disarms hx, harmed, h, Bool.true_or, Bool.and_true]

/-- No input disarms it. -/
theorem takeNotice_armed (h : ArmsAtStart e s) (n : Notice) (harmed : inEntries s.pol.armed e = true) :
    inEntries (s.takeNotice n).pol.armed e = true := by
  by_cases hf : n = .fault
  · subst hf
    simpa [State.takeNotice, h.strap, State.faultDisarm, h.faults] using harmed
  · by_cases hstart : n = .startingEnded
    · subst hstart
      simp only [State.takeNotice, if_neg h.strap, State.armAtStart, h.latch, Bool.false_eq_true, if_false]
      simp only [inEntries, BitVec.getLsbD_or, Bool.or_eq_true]
      exact .inl harmed
    · rw [State.takeNotice_fires h.strap hf hstart]
      exact foldl_fire (s := { s with pol := { s.pol with last := lastAfterNotice s n } }) h.repeats _ harmed

theorem drainNotices_armed (h : ArmsAtStart e s) (k : Nat) (harmed : inEntries s.pol.armed e = true) :
    inEntries (drainNotices k s).pol.armed e = true := by
  induction k generalizing s with
  | zero => exact harmed
  | succ k ih =>
    cases hnotices : s.notices with
    | nil => rwa [drainNotices_nil _ _ hnotices]
    | cons x xs =>
      have hdrop : ArmsAtStart e { s with notices := xs } := ⟨h.strap, h.latch, h.faults, h.atStart, h.repeats⟩
      rw [drainNotices_cons _ _ _ _ hnotices]
      exact ih (hdrop.takeNotice x) (hdrop.takeNotice_armed x harmed)

/-- The end of STARTING arms it (R123). -/
theorem takeNotice_startingEnded (h : ArmsAtStart e s) : inEntries (s.takeNotice .startingEnded).pol.armed e = true := by
  have hset : inEntries (armAtStartSet s.pol.table) e = true :=
    (inEntries_collect (fun l => (s.pol.table.entries.get l).armAtStart) e).trans h.atStart
  simp only [State.takeNotice, if_neg h.strap, State.armAtStart, h.latch, Bool.false_eq_true, if_false]
  simp only [inEntries, BitVec.getLsbD_or, Bool.or_eq_true]
  exact .inr hset

theorem drainNotices {before after : List Notice} (h : ArmsAtStart e s)
    (hnotices : s.notices = before ++ .startingEnded :: after) {k : Nat} (hk : before.length < k) :
    inEntries (drainNotices k s).pol.armed e = true := by
  induction before generalizing s after k with
  | nil =>
    obtain ⟨k, rfl⟩ : ∃ j, k = j + 1 := ⟨k - 1, by simp at hk; omega⟩
    rw [drainNotices_cons _ _ _ _ hnotices]
    have hdrop : ArmsAtStart e { s with notices := after } := ⟨h.strap, h.latch, h.faults, h.atStart, h.repeats⟩
    exact (hdrop.takeNotice _).drainNotices_armed k hdrop.takeNotice_startingEnded
  | cons x before ih =>
    obtain ⟨k, rfl⟩ : ∃ j, k = j + 1 := ⟨k - 1, by simp at hk; omega⟩
    rw [drainNotices_cons _ _ _ _ hnotices]
    have hdrop : ArmsAtStart e { s with notices := before ++ .startingEnded :: after } :=
      ⟨h.strap, h.latch, h.faults, h.atStart, h.repeats⟩
    obtain ⟨l, hl, -⟩ := AddsEntered.takeNotice { s with notices := before ++ .startingEnded :: after } x
    refine ih (after := after ++ l) (hdrop.takeNotice x) ?_ (by simpa using hk)
    exact hl.trans (by simp)

theorem settle (h : ArmsAtStart e s) (hstart : Notice.startingEnded ∈ s.notices) : inEntries s.settle.pol.armed e = true := by
  obtain ⟨before, after, hnotices⟩ := List.append_of_mem hstart
  have hdrain : inEntries s.drain.pol.armed e = true :=
    h.drainNotices hnotices (by rw [hnotices, List.length_append]; omega)
  simpa [State.settle] using hdrain

end ArmsAtStart

end Sys2Proof.Machine

end


section
/-! PROOF. The ROLL that ends STARTING, a failed store and a CLEAR, to the triggers (R123, R125, R126). -/

namespace Sys2Proof.Machine

/-! ## What follows a round's owners -/

/-- The round's record tells the triggers of lost peers alone (R55). -/
theorem State.recordRound_adds (s : State) (x : RoundRec) :
    ∃ l, (s.recordRound x).notices = s.notices ++ l ∧ ∀ y ∈ l, ∃ b, y = Notice.peerLost b := by
  have hflag : ∀ (c : Prop) [Decidable c] (u : State), (if c then u.setFlag .peerLost else u).notices = u.notices := by
    intro c _ u
    split
    · exact State.setFlag_notices (f := .peerLost) rfl
    · rfl
  have hnote : ∀ (c : Prop) [Decidable c] (u : State) (b : Bool), u.notices = s.notices →
      ∃ l, (if c then u else u.note (.peerLost b)).notices = s.notices ++ l ∧ ∀ y ∈ l, ∃ b, y = Notice.peerLost b := by
    intro c _ u b hu
    split
    · exact ⟨[], by simp [hu], by simp⟩
    · exact ⟨[.peerLost b], by simp [hu], by simp⟩
  unfold State.recordRound
  split
  · exact hnote _ _ _ (hflag _ _)
  · exact ⟨[], by simp, by simp⟩

theorem State.roundOver_adds (s : State) (x : RoundRec) :
    ∃ l, (s.roundOver x).notices = s.notices ++ l ∧ Notice.fault ∉ l := by
  obtain ⟨l, hl, hentered⟩ := AddsEntered.takeDueDeadline s
  obtain ⟨l', hl', hlost⟩ := (s.takeDueDeadline.endQueue x).recordRound_adds x
  rw [State.endQueue_notices] at hl'
  refine ⟨l ++ l', ?_, fun hmem => ?_⟩
  · have hover : (s.roundOver x).notices = ((s.takeDueDeadline.endQueue x).recordRound x).notices := by simp [State.roundOver]
    rw [hover, hl', hl, List.append_assoc]
  · rcases List.mem_append.1 hmem with hmem | hmem
    · obtain ⟨g, hg⟩ := hentered _ hmem
      exact nomatch hg
    · obtain ⟨b, hb⟩ := hlost _ hmem
      exact nomatch hb

theorem State.roundOver_not_strapFault {s : State} (h : s.grd.state ≠ .strapFault) (x : RoundRec) :
    (s.roundOver x).grd.state ≠ .strapFault := by
  rw [State.roundOver_state]
  split
  · simp
  · exact h

/-! ## The ROLL that ends STARTING -/

theorem AddsEntered.enterWiping (s : State) : AddsEntered s s.enterWiping := by
  unfold State.enterWiping
  dsimp only
  refine .trans ?_ (setGuard _ _)
  exact .of_same (by simp)

theorem State.endStarting_tells (s : State) (adopted : Bool) : Notice.startingEnded ∈ (s.endStarting adopted).notices := by
  have hmem : ∀ {u v : State}, AddsEntered (u.note .startingEnded) v → Notice.startingEnded ∈ v.notices := by
    rintro u v ⟨l, hl, -⟩
    simp [hl]
  by_cases h : s.wipe.journal.phase ≠ .none ∨ adopted = true
  · have hwiping : Notice.startingEnded ∈ s.wipingStart.notices :=
      hmem (AddsEntered.enterWiping _)
    rw [State.endStarting_wipes h]
    split <;> simpa using hwiping
  · unfold State.endStarting
    rw [if_neg h]
    exact hmem (AddsEntered.setGuard _ _)

theorem State.endStarting_not_strapFault (s : State) (adopted : Bool) : (s.endStarting adopted).grd.state ≠ .strapFault := by
  by_cases h : s.wipe.journal.phase ≠ .none ∨ adopted = true
  · rw [State.endStarting_wiping h]
    decide
  · rw [State.endStarting_rests h]
    repeat' split
    all_goals simp

theorem State.endRoll_pol (s : State) (r : RoundRec) (cls : RoundClass) : (s.endRoll r cls).pol = s.pol := by simp

theorem exec_roundEnd_roll_arms {s : State} {r : RoundRec} {b : Nat} {m : Slots} (hin : InRound s r (.inField .accept b))
    (hpart : r.part ≠ .rejected) (hans : r.answered = true) (hkind : r.kind = some .roll) (hstarting : s.grd.state = .starting)
    (hfull : takenMap s.sup (s.line.offer == .slot) m = rosterSet s.sup.roster) :
    ∃ u, exec (.roundEnd m) s = .next u
      ∧ (s.pol.latch = false → s.pol.table.faultDisarm = false → ∀ e : EntryNo, (s.entry e).armAtStart = true →
          (s.entry e).repeats = true → inEntries u.pol.armed e = true)
      ∧ (s.pol.latch = true → ∀ e : EntryNo, inEntries u.pol.armed e = true → inEntries s.pol.armed e = true) := by
  have hreads := State.rollTaken_reads (s := s.roundLeft m) hstarting (r.closedBy s m) (classifyRound s.sup (r.takenBy s m))
  have hends := (roll_ends_iff (s := s) (r := r.takenBy s m) hpart hans s.eng.rollCount).2 (.inl hfull)
  have hroll := ((s.roundLeft m).endRoll_eq (r.closedBy s m) (classifyRound s.sup (r.takenBy s m))).trans
    (if_pos ⟨hreads.state, hends⟩)
  have hpol : ((s.roundLeft m).endRoll (r.closedBy s m) (classifyRound s.sup (r.takenBy s m))).pol = s.pol :=
    State.endRoll_pol _ _ _
  refine ⟨_, exec_roundEnd_roll hin m hpart hans hkind, ?_⟩
  rw [hroll] at hpol ⊢
  have htells := ((s.roundLeft m).rollTaken (r.closedBy s m) (classifyRound s.sup (r.takenBy s m))).endStarting_tells
    (adoptsOrder (s.roundLeft m) (r.closedBy s m))
  have hstrap := ((s.roundLeft m).rollTaken (r.closedBy s m) (classifyRound s.sup (r.takenBy s m))).endStarting_not_strapFault
    (adoptsOrder (s.roundLeft m) (r.closedBy s m))
  generalize ((s.roundLeft m).rollTaken (r.closedBy s m) (classifyRound s.sup (r.takenBy s m))).endStarting
    (adoptsOrder (s.roundLeft m) (r.closedBy s m)) = u at *
  generalize r.closedBy s m = x
  have hover : (u.roundOver x).pol = s.pol := by simp [hpol]
  constructor
  · intro hlatch hfaults e hatStart hrepeats
    obtain ⟨l, hl, -⟩ := u.roundOver_adds x
    have harms : ArmsAtStart e s := by
      refine ⟨by simp [hstarting], hlatch, hfaults, hatStart, hrepeats⟩
    exact (harms.congr (State.roundOver_not_strapFault hstrap x) (by rw [hover]) (by rw [hover])).settle
      (by rw [hl]; exact List.mem_append_left l htells)
  · intro hlatch e he
    have hdrain : inEntries (u.roundOver x).drain.pol.armed e = true := by simpa [State.settle] using he
    have harmed := State.drain_latched (by rw [hover]; exact hlatch) hdrain
    rwa [hover] at harmed

/-! ## A store that failed -/

/-- A fault alone among the inputs disarms every entry and sets the latch, where faults disarm (R125). -/
theorem State.settle_fault_pol {u : State} (hn : u.notices = [.fault]) (hstrap : u.grd.state ≠ .strapFault) :
    u.settle.pol = if u.pol.table.faultDisarm then { u.pol with armed := 0, latch := true } else u.pol := by
  have htake : ({ u with notices := [] } : State).takeNotice .fault = ({ u with notices := [] } : State).faultDisarm :=
    if_neg hstrap
  have hquiet : ({ u with notices := [] } : State).faultDisarm.notices = [] := by
    unfold State.faultDisarm
    split <;> rfl
  have hdrain : u.drain = ({ u with notices := [] } : State).faultDisarm := by
    unfold State.drain
    rw [drainNotices_cons _ _ _ _ hn, htake, drainNotices_nil _ _ hquiet]
  have hsettle : u.settle.pol = u.drain.pol := by simp [State.settle]
  rw [hsettle, hdrain]
  unfold State.faultDisarm
  split <;> rfl

theorem exec_tallyStoreEnded_storeFail {s : State} {v : Nat} (hn : s.notices = []) (hbusy : s.tal.tallyStore.busy = some v)
    (hheld : heldStore s ≠ some .tally) : exec (.tallyStoreEnded false) s = .next ({ s with
      tal := { s.tal with tallyStore := s.tal.tallyStore.failed s.tal.tally s.mayStore (!s.inHold) } } : State).storeFail.settle := by
  show execTallyStoreEnded false s = _
  refine event_of_effect hn ?_
  rw [if_neg hheld, if_neg Bool.false_ne_true, ← State.setFlag_storeFail]
  simp [State.tallyFailed, hbusy]

theorem exec_tallyStoreEnded_fails {s : State} {v : Nat} (hstrap : s.grd.state ≠ .strapFault)
    (hbusy : s.tal.tallyStore.busy = some v) (hheld : heldStore s ≠ some .tally) :
    ∃ u, exec (.tallyStoreEnded false) s = .next u
      ∧ u.pol = (if s.pol.table.faultDisarm then { s.pol with armed := 0, latch := true } else s.pol) :=
  ⟨_, exec_tallyStoreEnded_storeFail (s := { s with notices := [] }) rfl hbusy hheld,
    State.settle_fault_pol (by simp [State.storeFail]) hstrap⟩

/-! ## CLEAR -/

theorem clearable_left (st : Status) (named : FlagSet) :
    st.flags &&& ~~~clearable st named = st.flags &&& ~~~(named &&& st.reported) := by
  refine BitVec.eq_of_getLsbD_eq fun i hi => ?_
  simp only [BitVec.getLsbD_and, BitVec.getLsbD_not, clearable_bit, hi, decide_true, Bool.true_and]
  cases named.getLsbD i <;> cases st.reported.getLsbD i <;> cases st.flags.getLsbD i <;> rfl

theorem State.clearFlags_latch (s : State) (named : FlagSet) : (s.clearFlags named).pol.latch
    = (s.pol.latch && FlagSet.any (s.stat.flags &&& ~~~(named &&& s.stat.reported)) disarmingFlags) := by
  rw [← clearable_left]
  unfold State.clearFlags
  dsimp only
  split
  · next h => rw [h, Bool.and_true]
  · next h => rw [Bool.eq_false_iff.2 h, Bool.and_false]

theorem exec_roundEnd_clear_latch {s : State} {r : RoundRec} {b : Nat} (m : Slots) (hin : InRound s r (.inField .accept b))
    (hpart : r.part ≠ .rejected) (hans : r.answered = true) (hkind : r.kind = some .clear)
    (htarget : clearTarget r.arg = s.sup.stn.toNat ∨ clearTarget r.arg = 15) :
    ∃ u, exec (.roundEnd m) s = .next u ∧ u.pol.latch = (s.pol.latch
      && FlagSet.any (s.stat.flags &&& ~~~(clearSet r.arg &&& s.stat.reported)) disarmingFlags) := by
  have happlies := classifyRound_applies (r := r.takenBy s m) hpart hans s.sup
  have howners : (s.roundLeft m).ownersEnd (r.closedBy s m) (classifyRound s.sup (r.takenBy s m))
      = (s.roundLeft m).clearFlags (clearSet r.arg) := by
    rw [State.ownersEnd_clear (r := r.closedBy s m) happlies hkind, State.endClear, if_pos]
    · rfl
    · rw [(s.roundLeft_sup m).2.1]
      exact htarget
  refine ⟨_, exec_roundEnd_owners hin m howners, ?_⟩
  obtain ⟨l, hl, hnofault⟩ := ((s.roundLeft m).clearFlags (clearSet r.arg)).roundOver_adds (r.closedBy s m)
  have hnone : ((s.roundLeft m).clearFlags (clearSet r.arg)).notices = [] := by simp [State.roundLeft]
  rw [State.settle_latch (by rw [hl, hnone]; exact hnofault), (State.roundOver_frame _ _).2.2.2.2.2.2, State.clearFlags_latch]
  rfl

/-- Settles O29: firings and inputs by what they are made of; an event whose cause is the one armed entry's by the inputs
it hands on; arming and disarming by the inputs that a round's end or a failed store adds. -/
theorem firingsRunArmedEntriesOnce : Obligations.FiringsRunArmedEntriesOnce := by
  unfold Obligations.FiringsRunArmedEntriesOnce
  refine ⟨fun s e => ⟨State.fire_unarmed, State.fire_disarms, State.fire_runs⟩, fun s v hstrap => ⟨fun e => ?last, fun hquiet =>
    State.takeNotice_tally_quiet hstrap hquiet⟩, fun s n => State.takeNotice_eq, raises_iff, fun s e => ?actions,
    fun s e c a hstrap harmed hbehaves => ?events, fun s r b m => exec_roundEnd_roll_arms, fun s v => exec_tallyStoreEnded_fails,
    fun s r b m => exec_roundEnd_clear_latch m⟩
  case last =>
    rw [State.takeNotice_last (n := .tally v) hstrap nofun nofun, inEntries_lastAfterNotice]
    generalize (entryBehaviour (s.entry e)).1 = c
    cases c <;> rfl
  case actions =>
    exact ⟨State.runAction_of, fun n => State.runAction_of, State.runAction_of, State.runAction_of,
      fun t n => State.runAction_of, fun t => State.runAction_of, fun n => State.runAction_of, State.runAction_of,
      State.runAction_timers, fun set => rfl⟩
  case events =>
    have hlone : Lone e c a s := ⟨hstrap, harmed, hbehaves⟩
    refine ⟨fun n t ht hc => ?_, fun cause hbus hc => ?_, fun hbattery hpfw hc => ?_, fun d hheld hd hc => ?_,
      fun r b m i hin hpart hans hkind habsence hroster hown htwo hsilent hc hlast => ?_⟩ <;> subst hc
    · exact hlone.timerExpiry ht
    · exact hlone.busFalls hbus cause
    · exact hlone.busRises hbattery hpfw
    · exact hlone.holdDeadline hheld hd
    · exact hlone.losesPeer m i hin hpart hans hkind habsence hroster hown htwo hsilent hlast

end Sys2Proof.Machine

end
